-- ==== Sys2Proof/Word.lean ====
section
/-!
DEFINITION. The word types of the KF1664: a register or cell word is 32 bits (R5, R161), a register pair 64 bits
(R6), a payload or pool byte 8 bits (R3).
-/
namespace Sys2Proof

/-- A register, a cell word, a packet word (R5, R161, R503). -/
abbrev Word := BitVec 32

/-- A quantity held in a pair of registers, low word first (R6), and a Lattice element (R119). -/
abbrev DWord := BitVec 64

/-- One byte, as R3 numbers it in a word. -/
abbrev Byte := BitVec 8

end Sys2Proof
end

