-- ==== Sys2Proof/Operand.lean ====
section
/-!
DEFINITION. The operands of the commands: what the outside world tells the block with a command (a host's value, a
frame's fields on the bus, how an attempt ended, what a DMA read brought, which stored word a particle has changed).
-/
namespace Sys2Proof

/-- The two host interfaces (R494). -/
inductive Iface where
  | pcie | serial
deriving DecidableEq, Repr

/-- The kinds of host-link fault (R514), in the order of their values 0 to 6. -/
inductive HlKind where
  | linkDown | ecrc | poisoned | cplTimeout | cplAbort | serialCrc | serialFrame
deriving DecidableEq, Repr

/-- What a DMA read brings (R496): the words read, or the words that came before a failing read, and the host-link kind it
failed with. -/
inductive Dma where
  | good (words : List Word)
  | bad (kind : HlKind) (before : List Word)
deriving DecidableEq, Repr

/-- The straps sampled at reset (R347, R407, R442, R443): BOOT_SEL, UNIT_ID, GPIO1:GPIO0 and TESTMODE. -/
structure Straps where
  bootSel  : Fin 4
  unitId   : Fin 2
  b1Rate   : Fin 4
  testMode : Bool
deriving DecidableEq, Repr

/-- What the host writes into the configuration space of the PCI Express function (R486, R487): its base addresses, D3hot,
the function mask of MSI-X, the maximum payload size (256 bytes, or 128), the maximum read request (128 bytes times a power of
two), and the ECRC enables of advanced error reporting. -/
structure Endpoint where
  bar0       : Word
  bar2       : DWord
  d3hot      : Bool
  msixMask   : Bool
  payload256 : Bool
  maxRead    : Fin 3
  ecrcGen    : Bool
  ecrcChk    : Bool
deriving DecidableEq, Repr

/-- A frame's format on the bus (R39). -/
inductive BusFmt where
  | cc | fd | xl | trunk
deriving DecidableEq, Repr

/-- One frame as its bits show it on the bus: for a trunk frame, the fields of the inner frame (R65). `rtr` is RTR
of Classical CAN and RRS of the other formats; `res` is a recessive reserved bit after FDF; `dlc` is the received
data length code, or TLEN; `data` is the payload in bus order (R4). -/
structure Frame where
  fmt   : BusFmt
  tfmt  : Fin 4
  ide   : Bool
  ident : BitVec 29
  rtr   : Bool
  res   : Bool
  brs   : Bool
  esi   : Bool
  sec   : Bool
  sdt   : Byte
  vcid  : Byte
  af    : Word
  dlc   : Nat
  data  : List Byte
deriving DecidableEq, Repr

/-- What ISO 11898-1's counting rules need to know of an error (R80): whether the first bit after this node's error
flag was dominant, how many bit errors it met while sending the flag, and how many further runs of 8 dominant bits
followed. -/
structure ErrInfo where
  dominantAfterFlag : Bool
  flagBitErrors     : Nat
  dominantRuns      : Nat
deriving DecidableEq, Repr

/-- A change of a stored word by a fault in the storage: a single-bit or (`double`) a double-bit error of a word with
SECDED (`flip`: the data bits a double-bit error changes), a parity error of a word with parity
(of a context's records and of the buffers for snapshots among them), a parity mismatch of the next transfer that a slot
of the wheel carries (R35; `commit`: on the commit lane), a changed byte of the
unprotected cell pool, a disagreement of a channel engine's lock-step copies (R384) (R151, R152, R167, R196, R245, R317, R356,
R377). And what befalls a port for which the table has no row: the levels at the GPIO pins (R534) and at the strap pins (R442), TRST_N
and a cycle of TCK (R546), a write of the host to the function's configuration space (R486). -/
inductive Upset where
  | element (index : Fin 16384) (double : Bool) (flip : DWord)
  | gate (g : Fin 256) (double : Bool)
  | context (c : Fin 512) (word : Fin 32) (double : Bool) (flip : Word)
  | link (cell : Fin 65536)
  | route (r : Fin 1024)
  | hold (ch : Fin 16)
  | record (c : Fin 512) (k : Fin 8)
  | snapshot (buffer : Fin 3)
  | transfer (slot : Fin 48) (commit : Bool)
  | poolByte (addr : Fin 4194304) (value : Byte)
  | lockstep (ch : Fin 16)
  | gpio (levels : BitVec 16)
  | strap (levels : Straps)
  | trst (high : Bool)
  | tck (tms tdi : Bool)
  | config (e : Endpoint)
deriving DecidableEq, Repr

/-- What frames the payload of a received packet of the Waltis Link (R349): its header word, its CRC-32C word, and whether a
coding error falls inside it. -/
structure LinkFrame where
  header : Word
  crc    : Word
  coding : Bool
deriving DecidableEq, Repr

/-- How a received frame ends for this channel: valid at its sixth end-of-frame bit; in an error the channel detects
and, where its mode lets it, signals; in a data-phase error of a trunk frame, answered with NACK (R66); by the trunk
abort pattern (R67); or with a parity mismatch in the receive path (R101). -/
inductive RxEnd where
  | valid
  | error (e : ErrInfo)
  | nack (e : ErrInfo)
  | trunkAbort
  | parity
deriving DecidableEq, Repr

/-- A timing edge the margin planner measures in a received frame (R460): the phase (false nominal, true data) and the
phase error in protocol clock periods. -/
structure Edge where
  dataPhase : Bool
  err       : Int
deriving DecidableEq, Repr

/-- A transfer of a channel's slot: undisturbed; with a parity mismatch of the transfer (R35) in the channel's first or
second slot of the round; with a parity mismatch of the staging slot it reads (R101). -/
inductive SlotFault where
  | none
  | transfer (second : Bool)
  | staging
deriving DecidableEq, Repr

/-- What the margin planner reads at the end of a cycle (R464): the eight oscillators' raw counts with their slowdowns in
0.01 %, Tj in degrees and the lowest VDD_CORE in mV. -/
structure MpSample where
  ros  : List (Nat × Int)
  tj   : Int
  vmin : Nat
deriving DecidableEq, Repr

/-- A received frame comes in parts, between which other commands may act: its SOF; its header up to the last bit
that settles the verdict, with the storage errors met; the point after its CRC field, with whether the bound check
unit's engines disagree and how long the frame has lasted; its end. `whole` is all four at once. `overload` is an overload flag that the channel sends after a frame as a receiver. -/
inductive RxPart where
  | sof
  | header (f : Frame) (ups : List Upset)
  | crc (engineFault : Bool)
  | finish (e : RxEnd) (edges : List Edge)
  | overload (e : ErrInfo)
  | whole (f : Frame) (ups : List Upset) (engineFault : Bool) (e : RxEnd) (edges : List Edge)
deriving DecidableEq, Repr

/-- How a transmission attempt ends: sent; arbitration lost; a bit error after the arbitration field and before the
ACK slot (R95); a stuff error in the arbitration field, which ISO 11898-1 does not count; no acknowledgement (with a
dominant bit seen during the passive flag or not), or a NACK; any other error; the end of the abort flag of R218; the
abort pattern of a cut-through frame (R67, R241), sent for the receiving channel's failure or for an underrun. -/
inductive AttemptEnd where
  | sent
  | lost
  | bitError (e : ErrInfo)
  | arbStuff (e : ErrInfo)
  | ackError (dominantSeen : Bool) (e : ErrInfo)
  | nack (e : ErrInfo)
  | otherError (e : ErrInfo)
  | flagEnd
  | ctAbort
deriving DecidableEq, Repr

/-- A transmission attempt comes in parts: the latch (own SOF, or `joined` at another node's SOF), the cancel
deadline of R216, the header with the measured loop delay in protocol clock periods (`none`: no edge found), the end of
the data phase, and the end with the edges returned on RXD in the data phase, in protocol clock periods relative to the bit on TXD plus tdc_meas
(R463). `engineFault`: the engines of the unit that builds the check field disagree (R335). `overload` is an overload flag
that the channel sends after a frame as its transmitter. -/
inductive AttemptPart where
  | latch (joined : Bool)
  | deadline
  | header (delay : Option Nat) (engineFault : Bool)
  | dataEnd
  | ended (e : AttemptEnd) (edges : List Int)
  | overload (e : ErrInfo)
  | whole (joined : Bool) (delay : Option Nat) (engineFault : Bool) (e : AttemptEnd) (edges : List Int)
deriving DecidableEq, Repr

end Sys2Proof
end

