-- ==== Sys2Proof/Syntax.lean ====
section
/-!
DEFINITION. The commands of the KF1664: one constructor per row of the opcode table, in its order, with the operands that the
outside world gives with it. `r` is a command ring, `i` a host interface, `ch` a channel, `v` a written word, `waited` the
core cycles since the command before it, `pick` a choice among free cells.
-/
namespace Sys2Proof

/-- A command to the KF1664. -/
inductive Instr where
  /-- VAO rises above its POR threshold; retention, PW registers and VX_LAST3 are cleared and PWR_HOLD is driven high
  (R440). -/
  | vaoPor
  /-- VDD_CORE rises above its POR threshold, or returns after HIBERNATE; bring-up restarts at B0 and registers take
  their Reset values (R440). -/
  | corePor (straps : Straps) (bad : List (Fin 128))
  /-- RESET_N is held low for at least 10 us and then rises; bring-up restarts at B0, keeping what RESET_N keeps (R440).
  -/
  | resetN (straps : Straps) (bad : List (Fin 128))
  /-- A write of 1 to GL_RST soft_reset while GL_KEY is unlocked resets the device as RESET_N does (R440). -/
  | softReset (i : Iface) (straps : Straps) (bad : List (Fin 128))
  /-- The PCI Express root asserts PE_PERST_N; only the endpoint is reset and PCI Express rings go to DISABLED (R488).
  -/
  | pePerstN
  /-- The B0 ROM check ends; on a pass the clock monitor waits for the reference, on a failure the device enters the
  safe state (R443). -/
  | romCheckDone (ok : Bool)
  /-- The clock monitor has counted 4 096 stable XIN cycles; B1 reduced service starts and B2 begins (R443). -/
  | referenceStable
  /-- No stable reference within 50 ms of the ROM check; source 26 asserts and the device enters the safe state (R443).
  -/
  | referenceTimeout
  /-- The PLL locks in B2; the core clock runs at 480 MHz and pool clear and BIST start (R443). -/
  | pllLocked
  /-- The PLL has not locked 200 us after B2 started; source 25 asserts and the device enters the safe state (R443). -/
  | pllLockTimeout
  /-- Pool clear and BIST end; on a pass B3 starts with the time base, on a failure the device goes to B3_FAILED (R443).
  -/
  | bistDone (ok : Bool) (us : Nat)
  /-- A flash image copy has been read and checked; it commits, or the next copy is tried, or B3_FAILED is entered
  (R446). -/
  | flashCopyDone (image : List Byte)
  /-- The flash gives no valid header within 1 ms; that copy fails with reason FLASH (R446). -/
  | flashHeaderTimeout
  /-- The sequencer watchdog expires; source 34 asserts and the device enters the safe state (R444). -/
  | sequencerWatchdog
  /-- The PLL loses lock; level source 25 asserts at class 3 (R384). -/
  | pllLockLoss
  /-- The clock monitor finds the core, reference or always-on clock faulty; source 26 asserts (R384). -/
  | clockMonitorFault (clocks : Fin 8)
  /-- VDD_CORE, VDD_IO or VDD_SER stays outside its threshold for longer than 200 ns; source 27, 28 or 29 asserts
  (R552). -/
  | supplyExcursion (supply : Fin 3) (high : Bool)
  /-- The sensor reads Tj above 110 C; level source 30 asserts (R552). -/
  | temperatureAlarm
  /-- A monitored level is back within its thresholds for 10 us, or below 105 C for the temperature; the level source
  deasserts (R552). -/
  | monitorDeassert (k : Fin 4)
  /-- A Vertex register differs from its complement copy; source 62 sets the reaction latch directly (R402). -/
  | complementMismatch (off : Fin 4096)
  /-- The pad drivers acknowledge the safe state and the consequential tag window starts its 64-cycle tail (R394). -/
  | safeStateComplete
  /-- 64 core cycles after a reset completes, consequential tagging of its sources ends (R396). -/
  | tagWindowEnd
  /-- Every 500 us of the time base, ALIVE toggles (R400). -/
  | aliveToggle
  /-- The always-on domain sees no ALIVE edge for 64 AO ticks and drives ALIVE low (R400). -/
  | aliveTimeout
  /-- An injected source has not asserted 100 us after the injection; VX_PROOF_TEST completes with E_CHECK (R405). -/
  | proofTestTimeout
  /-- Returns command words 2 and 3 (R518). -/
  | nop (r : Fin 4)
  /-- Returns GL_ID and the device's address, phase, profile, revision and duplex state (R518). -/
  | identify (r : Fin 4)
  /-- Checks a loaded image section by section, then applies it and enters SERVICE (R452). -/
  | commitConfig (r : Fin 4)
  /-- COMMIT_CONFIG with empty = 1 commits the configuration that commands built under BOOT_SEL NONE (R565). -/
  | commitConfigEmpty (r : Fin 4)
  /-- Loads an image from host memory and checks it without committing (R455). -/
  | loadImage (r : Fin 4)
  /-- LOAD_IMAGE with commit = 1 loads and checks an image, then commits it (R455). -/
  | loadImageCommit (r : Fin 4)
  /-- Returns a summary of fault, duplex, power and channel status (R518). -/
  | readStatus (r : Fin 4)
  /-- Changes the profile between NATIVE and LEGACY when the device is idle and within the LEGACY limits (R482). -/
  | setProfile (r : Fin 4)
  /-- A command packet with an undefined opcode completes with E_UNSUPPORTED (R506). -/
  | undefinedOpcode (r : Fin 4)
  /-- A write of SQ_CR_TAIL moves a command ring's tail, or is ignored with db_err set (R498). -/
  | cmdDoorbell (i : Iface) (r : Fin 4) (v : Word)
  /-- A write of SQ_CQ_HEAD frees entries of a completion ring or the event ring, or is ignored with db_err set (R498).
  -/
  | cqDoorbell (i : Iface) (k : Fin 5) (v : Word)
  /-- A write of en = 1 to a ring's configuration starts the ring, or leaves it DISABLED with halt_kind CONFIG (R500).
  -/
  | ringEnable (i : Iface) (ring : Fin 9) (v : Word)
  /-- A write of en = 0 to a ring's configuration disables it, passing through DISABLING when a command is in progress
  (R500). -/
  | ringDisable (i : Iface) (ring : Fin 9) (v : Word)
  /-- The sequencer fetches the next entry of a non-empty command ring, round-robin, after the previous command has
  completed (R499). -/
  | commandFetch (entry : Dma)
  /-- A completion entry is written once its completion ring has room (R502). -/
  | completionWrite (r : Fin 4)
  /-- coal_us passes since the first unsignalled entry, and the ring signals its vector (R511). -/
  | coalesceTimeout (k : Fin 5)
  /-- A DMA read completion arrives for a command, either good or failed (R496). -/
  | dmaReadDone (r : Fin 4) (result : Dma)
  /-- A DMA read completion times out; the command completes with E_TIMEOUT (R496); `before`: the words
  of earlier completions of the read. -/
  | dmaCompletionTimeout (r : Fin 4) (before : List Word := [])
  /-- A serial WRITE transaction ends; its words are applied only when the CRC and clock count are right (R491). -/
  | serialWrite (addr : Word) (words : List Word) (crc : BitVec 16) (clocks : Nat)
  /-- A serial READ transaction returns words with their CRC (R490). -/
  | serialRead (addr : Word) (n : Fin 64) (clocks : Nat := 40 + 8 * n.val)
  /-- A serial STATUS transaction returns the port status byte (R490). -/
  | serialStatus (clocks : Nat := 10)
  /-- A serial transaction with an unknown instruction is ignored and reported as SERIAL_FRAME (R491). -/
  | serialUnknownInstruction
  /-- The PCI Express link leaves L0 outside sleep entry; source 37 asserts with kind LINK_DOWN (R514). -/
  | pcieLinkDown
  /-- A TLP with a failed ECRC, or a poisoned TLP, arrives and is discarded (R514). -/
  | pcieBadTlp (poisoned : Bool)
  /-- A non-zero write to SQ_STG stg_cells takes staging cells off the free list, or is refused with stg_err (R493). -/
  | stagingSet (i : Iface) (v : Word)
  /-- A write of 0 to SQ_STG stg_cells returns the staging cells to the free list (R493). -/
  | stagingRelease (i : Iface) (v : Word)
  /-- A write of 0x5A5A to GL_KEY arms the key and records the interface (R531). -/
  | glKeyArm (i : Iface)
  /-- A write of 0xA5A5 from the arming interface within 100 us unlocks GL_KEY and starts the relock timer (R531). -/
  | glKeyUnlock (i : Iface)
  /-- A write of 0x0000 to GL_KEY locks it (R531). -/
  | glKeyLock (i : Iface)
  /-- Any other write of GL_KEY returns an armed key to LOCKED and leaves an unlocked key unchanged (R531). -/
  | glKeyOtherCode (i : Iface) (v : Word)
  /-- 100 us pass after an arm without the second code; GL_KEY returns to LOCKED (R531). -/
  | keyArmTimeout
  /-- relock_us passes after an unlock; GL_KEY returns to LOCKED (R531). -/
  | keyRelockTimeout
  /-- A host write to a register with no row of its own is applied under its access code (R9). -/
  | registerWrite (i : Iface) (off : Fin 1048576) (v : Word) (be : Fin 16)
  /-- A read of the low word of a register pair latches the high word for that interface (R6); any other read of one word
is one too. The address is that of R492's map: a register, or from 0x0100_0000 the pool window, which is BAR2 (R197). -/
  | lowWordRead (i : Iface) (addr : Fin 20971520)
  /-- Writes the RWC fields of a channel from a host image while the channel is STOPPED (R519). -/
  | chConfigure (r : Fin 4)
  /-- Checks the channel's settings and moves it from STOPPED to INTEGRATING (R54). -/
  | chStart (r : Fin 4)
  /-- Stops a channel, at once or after the frame on the wire, and reports the waiting work (R102). -/
  | chStop (r : Fin 4)
  /-- Requests a transceiver state for a channel (R107). -/
  | chSetState (r : Fin 4)
  /-- Starts the bus-off recovery sequence from WAIT_HOST or BACKOFF (R92). -/
  | chRecover (r : Fin 4)
  /-- Samples the channel counters in one cycle and writes them as a 256-byte block (R520). -/
  | chCounters (r : Fin 4)
  /-- An integrating channel samples 11 consecutive recessive nominal bits and becomes ACTIVE (R74). -/
  | integrationDone (ch : Fin 16)
  /-- A frame on the bus is received whole, with its verdict, checks and stamp, and ends valid, in error, as a protocol
  exception or aborted (R50). -/
  | rxFrame (ch : Fin 16) (waited : Nat) (p : RxPart)
  /-- A received frame's commit record is carried in the channel's slot and the frame becomes visible at every
  destination (R36). -/
  | rxCommit (ch : Fin 16) (fault : SlotFault)
  /-- A cell of a received frame is written into the pool in the channel's slot, retrying under back-pressure (R99). -/
  | stagedCellWrite (ch : Fin 16) (pick : Fin 65536) (fault : SlotFault)
  /-- The picker's winning head has its cell 0 fetched in the channel's next slot and its header loaded (R37). -/
  | txHeadFetch (ch : Fin 16) (fault : SlotFault)
  /-- A latched frame arbitrates and is transmitted, ending sent, lost, in error or aborted (R211). -/
  | txAttempt (ch : Fin 16) (waited : Nat) (p : AttemptPart)
  /-- The DELAYED bus-off backoff ends and the recovery sequence starts (R88). -/
  | backoffElapsed (ch : Fin 16)
  /-- The 128th occurrence of 11 recessive bits is sampled; the channel returns to ACTIVE with counters at 0 (R87). -/
  | recoveryDone (ch : Fin 16)
  /-- The 3 600 s bus-off window closes and the entry count returns to 0 (R89). -/
  | boffWindowClose (ch : Fin 16)
  /-- A write of 1 to a source bit of CH_DUP_STAT releases a held source with its count at 0 (R97). -/
  | dupHoldRelease (i : Iface) (ch : Fin 16) (v : Word)
  /-- A pending change between NORMAL and LISTEN is applied at the end of the frame on the wire (R107). -/
  | trxChangeApplied (ch : Fin 16)
  /-- settle_us ends after a change that involves STANDBY or SLEEP and CH_SET_STATE completes (R109). -/
  | trxSettled (ch : Fin 16)
  /-- A write of arm = 1 to CH_TXP_ARM checks the prime buffer and arms it, or refuses it (R207). -/
  | primeArm (i : Iface) (ch : Fin 16) (b : Fin 3) (v : Word)
  /-- Reads a host item and commits it to a TRANSMIT queue (R567). -/
  | txSubmit (r : Fin 4)
  /-- A host submission's item is committed to its queue, possibly after back-pressure, and the command completes
  (R177). -/
  | hostItemCommit (r : Fin 4) (pick : Fin 65536)
  /-- A host submission is still not committed after bp_tmo_ms; it ends with E_TIMEOUT (R177). -/
  | bpTimeout (r : Fin 4)
  /-- Cancels a source's current candidate, removing it, aborting it or letting it finish (R217). -/
  | txCancel (r : Fin 4)
  /-- Loads a prime buffer from host memory and arms it (R567). -/
  | txPrime (r : Fin 4)
  /-- Copies elements from the host into the shadow half of one region (R135). -/
  | ltWrite (r : Fin 4)
  /-- The last cell of an LT_WRITE is moved into the table and the command completes (R135). -/
  | ltWriteDone
  /-- Checks the shadow halves of the channels in the mask and swaps their halves (R138). -/
  | ltCommit (r : Fin 4)
  /-- The old half of every channel in the mask has drained and LT_COMMIT completes (R138). -/
  | ltDrainDone
  /-- The mirror copy of a region finishes (R139). -/
  | ltCopyDone (ch : Fin 16)
  /-- Reads elements of a region into host memory with corrected values (R158). -/
  | ltRead (r : Fin 4)
  /-- Returns the owned-identifier record and optionally clears it (R158). -/
  | ltOwned (r : Fin 4)
  /-- The housekeeping slot serves Lattice, list audit or margin planner work in its fixed rotation (R32). -/
  | housekeepingTurn (ups : List Upset)
  /-- A write to the low word of a window position holds that word (R136). -/
  | elementWindowLowWrite (i : Iface) (c : Fin 8) (p : Fin 512) (v : Word)
  /-- A write to the high word of a window position writes the 64-bit element with fresh check bits (R136). -/
  | elementWindowHighWrite (i : Iface) (c : Fin 8) (p : Fin 512) (v : Word)
  /-- A write of en = 1 to LT_GATE_CFG moves an OFF gate to UNARMED or ARMED (R148). -/
  | gateEnable (i : Iface) (g : Fin 256) (v : Word)
  /-- A write of en = 0 to LT_GATE_CFG moves the gate to OFF (R148). -/
  | gateDisable (i : Iface) (g : Fin 256) (v : Word)
  /-- A host write of LT_GATE_STAT highest sets the claim and arms the gate (R148). -/
  | gateHighestWrite (i : Iface) (g : Fin 256) (v : Word)
  /-- Creates a queue with its budget and consumer (R201). -/
  | qCreate (r : Fin 4)
  /-- Q_CREATE with remove = 1 removes an empty queue that nothing names (R192). -/
  | qRemove (r : Fin 4)
  /-- Unlinks the listed items of the chosen classes and marks items in progress (R187). -/
  | qFlush (r : Fin 4)
  /-- Q_FLUSH with repair = 1 unlinks a BROKEN queue and reclaims its cells by an audit pass (R195). -/
  | qFlushRepair (r : Fin 4)
  /-- Changes a queue's min and max (R202). -/
  | qBudget (r : Fin 4)
  /-- Returns a queue's status and depth (R201). -/
  | qStatus (r : Fin 4)
  /-- A read of QM_W_LOCK locks the head of a non-empty queue, or reports empty (R181). -/
  | windowLockRead (i : Iface) (q : Fin 256)
  /-- A read of QM_W_DATA returns a word of the locked item, or the previous value with underrun (R185). -/
  | windowDataRead (i : Iface) (q : Fin 256) (k : Fin 16)
  /-- A write with pop = 1 to QM_W_POP unlinks the locked item and frees its cells (R183). -/
  | windowPop (i : Iface) (q : Fin 256) (v : Word)
  /-- A write with release = 1 to QM_W_POP clears the lock and leaves the item in place (R183). -/
  | windowRelease (i : Iface) (q : Fin 256) (v : Word)
  /-- A window lock held for lock_tmo_us is released and lock_lost is set (R184). -/
  | lockTimeout (q : Fin 256)
  /-- A list audit pass ends and its tallies are compared with the queue counts (R193). -/
  | auditPassEnd (bad : List (Fin 256)) (freeBad ownerBad : Bool)
  /-- A BAR2 write writes the enabled bytes of a pool word while GL_KEY is unlocked (R197). -/
  | poolWindowWrite (addr : Nat) (be : Fin 16) (v : Word)
  /-- Adds a route entry to the route table (R248). -/
  | cdRouteAdd (r : Fin 4)
  /-- CD_ROUTE_ADD with reenable = 1 enables a disabled route again (R243). -/
  | cdRouteReenable (r : Fin 4)
  /-- Disables or clears a route, completing when no hold carries its copy (R243). -/
  | cdRouteRemove (r : Fin 4)
  /-- Returns and optionally clears one group of a route's counters (R250). -/
  | cdStats (r : Fin 4)
  /-- In the first slot of a channel's pair, Chord pops a copy from a lane and rewrites its header into the hold (R229).
  -/
  | chordSelect (ch : Fin 16)
  /-- In the second slot, Chord judges the held copy and forwards, keeps or drops it (R230). -/
  | chordJudge (ch : Fin 16)
  /-- A copy has been kept under WAIT for stall_us (R246). -/
  | cdStall (ch : Fin 16)
  /-- period_us passes and one token is added to a route's bucket up to burst (R235). -/
  | tokenAdd (r : Fin 1024)
  /-- At t_start, the receiving channel commits a cut-through copy into its outbound queue (R240). -/
  | cutThroughCommit (ch : Fin 16)
  /-- TM_SET op SET writes the time-base counter (R267). -/
  | tmSet (r : Fin 4)
  /-- TM_SET op STEP adds a signed offset to the counter (R267). -/
  | tmStep (r : Fin 4)
  /-- TM_SET op RATE sets the rate adjustment (R267). -/
  | tmRate (r : Fin 4)
  /-- Sets the time-base role FREE, MASTER or SLAVE (R259). -/
  | tmRole (r : Fin 4)
  /-- A rising edge on TIME_PPS_IN is captured and may drive the servo (R257). -/
  | ppsInEdge (waited : Nat)
  /-- The counter passes a whole second and TIME_PPS_OUT rises (R258). -/
  | ppsOutRise (waited : Nat)
  /-- width_ms after its rise, TIME_PPS_OUT falls (R258). -/
  | ppsOutFall
  /-- Every sync_ms, a master commits a SYNC on each master_mask channel and withdraws an unsent one (R260). -/
  | syncInterval
  /-- No valid measurement for hold_ms; the servo enters HOLDOVER (R264). -/
  | servoHoldTimeout
  /-- HOLDOVER has lasted hold_max_s; source 38 asserts once (R264). -/
  | holdoverLimit
  /-- Within 1 ms of an IDENTIFY_REQ, the device commits its IDENTIFY_ANS on that channel (R281). -/
  | identifyAnsCommit (ch : Fin 16) (pick : Fin 65536)
  /-- After a probe, or after the previous echo's frame valid, the device commits the next MARGIN_ECHO (R282). -/
  | marginEchoCommit (ch : Fin 16) (pick : Fin 65536)
  /-- Within 1 ms of a bring-up console request, the device answers with the register value (R448). -/
  | consoleAnswer
  /-- Every 250 us, an ACTIVE unit, or a SOLO device with sup_mask set, commits HEARTBEAT frames on its supervised
  channels (R351). -/
  | heartbeatInterval
  /-- Every 100 ms, an ACTIVE unit commits a CLAIM with reason PERIODIC (R370). -/
  | claimInterval
  /-- Writes context words 0 to 23 and resets the context to DISABLED (R292). -/
  | tgConfig (r : Fin 4)
  /-- Enables a DISABLED context in MANUAL or AUTO (R292). -/
  | tgEnable (r : Fin 4)
  /-- Disables a context after its evaluation and frame finish (R313). -/
  | tgDisable (r : Fin 4)
  /-- Changes a context's mode or manual output at its next evaluation (R308). -/
  | tgMode (r : Fin 4)
  /-- Writes a context's target set-point (R306). -/
  | tgSetpoint (r : Fin 4)
  /-- Copies a context's 128 bytes to host memory (R322). -/
  | tgRead (r : Fin 4)
  /-- Tangent detects a context's sample instant; a pending sample not yet begun is skipped (R299). -/
  | tgInstant (c : Fin 512) (waited : Nat)
  /-- The evaluator runs a due context's law and builds its command frame (R303). -/
  | tgEvaluation
  /-- In a Tangent slot, the oldest waiting frame is committed into its queue (R312). -/
  | tgEmitCommit (pick : Fin 65536)
  /-- In a Tangent slot, a set-point item is popped and its target applied (R307). -/
  | setpointItemRead
  /-- On the duplex controller's request, Tangent replays a sample record in one evaluation turn (R311). -/
  | tgReplay
  /-- Configures a check unit for frames bound after the command (R342). -/
  | ckConfig (r : Fin 4)
  /-- CK_CONTEXT op SAVE writes the unit's context image to host memory (R336). -/
  | ckSave (r : Fin 4)
  /-- CK_CONTEXT op RESTORE loads a context image into an idle unit (R336). -/
  | ckRestore (r : Fin 4)
  /-- CK_CONTEXT op FEED_HOST folds a host buffer and optionally compares the final value (R333). -/
  | ckFeedHost (r : Fin 4) (fault : Bool)
  /-- CK_CONTEXT op FEED_QUEUE starts checking items popped from a CHECK queue (R333). -/
  | ckFeedQueue (r : Fin 4)
  /-- In a check-unit slot, one item of a FEED_QUEUE job is checked and committed or dropped (R333). -/
  | ckFeedItem (u : Fin 32) (fault : Bool)
  /-- Sets the duplex configuration, pairing or unpairing the device (R379). -/
  | dxConfig (r : Fin 4)
  /-- DX_CONFIG with reinit sets the claim to a new generation and sends CLAIM with reason REINIT (R379). -/
  | dxReinit (r : Fin 4)
  /-- Starts a planned swap of the ACTIVE and STANDBY roles (R375). -/
  | dxSwap (r : Fin 4)
  /-- Returns DX_STAT and DX_CLAIM (R379). -/
  | dxStatus (r : Fin 4)
  /-- Moves a STANDBY_FAULT unit to STANDBY_SYNC for full resynchronisation (R345). -/
  | dxResync (r : Fin 4)
  /-- Every 10 us, a unit sends an HB packet on the Waltis Link (R351). -/
  | linkHbSend
  /-- A valid HB packet arrives from the partner (R348). -/
  | hbPacket (p : LinkFrame) (w0 w1 : Word)
  /-- A link lane loses alignment and the link goes DOWN (R348). -/
  | laneAlignLoss (lane : Fin 2)
  /-- lk_miss HB intervals pass without a valid HB; the link goes DOWN and source 31 asserts (R348). -/
  | linkHbTimeout
  /-- A NOTICE of the partner's fault arrives; an eligible standby takes over (R371). -/
  | noticePacket (p : LinkFrame) (w0 : Word)
  /-- A VERDICT arrives at the active; a verdict against it demotes it (R345). -/
  | verdictPacket (p : LinkFrame) (w0 : Word)
  /-- A referee request arrives; the active replays its record and answers (R360). -/
  | refReqPacket (p : LinkFrame) (words : List Word)
  /-- The active's answer arrives; the standby judges the verdict and sends it (R362). -/
  | refAnsPacket (p : LinkFrame) (w0 w1 : Word)
  /-- A SWAP PREP arrives; the standby answers ACK or REFUSE (R375). -/
  | swapPrepPacket (p : LinkFrame) (lo hi : Word)
  /-- A SWAP ACK arrives and the swap instant stands (R375). -/
  | swapAckPacket (p : LinkFrame) (lo hi : Word)
  /-- A SWAP REFUSE arrives and the swap is abandoned (R375). -/
  | swapRefusePacket (p : LinkFrame) (lo hi : Word)
  /-- A mirrored Tangent change arrives at the standby for its named instant (R355). -/
  | ctlPacket (p : LinkFrame) (words : List Word)
  /-- A RESYNC request arrives and the active flags its next snapshot as full (R367). -/
  | resyncPacket (p : LinkFrame) (w0 : Word)
  /-- A sample record of the active arrives and is kept, or is replayed to resynchronise a context (R356); `after`: the active's
  words 26, 29, 30 and 31 of that context after the record's instant (R363). -/
  | recPacket (p : LinkFrame) (words : List Word) (after : List Word := [])
  /-- A snapshot chunk arrives and is written into the receive buffer (R365). -/
  | chunkPacket (p : LinkFrame) (words : List Word)
  /-- An epoch COMMIT arrives; a matching epoch becomes committed, otherwise it is discarded (R365). -/
  | commitPacket (p : LinkFrame) (w0 w1 w2 : Word)
  /-- The 100 ms start timer elapses with no partner heard; the unit takes over with cause START (R345). -/
  | pairingTimeout
  /-- hb_miss times 250 us pass without a partner HEARTBEAT or CLAIM; with the link lost the standby takes over (R352).
  -/
  | busHbTimeout
  /-- A pending standby frame waits cmp_us without observation and is judged MISSING (R358). -/
  | cmpMissingTimeout (c : Fin 512)
  /-- No REF_ANS within ref_tmo_us; the exchange ends with verdict NONE and source 32 asserts (R361). -/
  | refereeTimeout
  /-- At an epoch boundary, the active captures a snapshot and sends it in chunks closed by COMMIT (R364). -/
  | epochBoundary (waited : Nat) (app : Dma)
  /-- The swap instant is reached; the active demotes and the standby takes over with cause SWAP (R375). -/
  | swapInstant (waited : Nat)
  /-- No ACK within 1 ms of PREP; DX_SWAP completes with E_TIMEOUT and nothing changes (R375). -/
  | swapAckTimeout
  /-- The new claim is not observed 10 ms after the swap instant; DX_SWAP completes with E_TIMEOUT (R375). -/
  | swapClaimTimeout
  /-- The unit is not STANDBY 10 epochs after DX_RESYNC; the command completes with E_TIMEOUT (R379). -/
  | resyncEpochLimit
  /-- Returns the Vertex status word (R410). -/
  | vxStatus (r : Fin 4)
  /-- Clears status bits whose cause is gone, and the first-fault, consequential and last-class-3 records (R403). -/
  | vxClear (r : Fin 4)
  /-- Drives a detector's injection point and completes when the source asserts (R405). -/
  | vxProofTest (r : Fin 4) (latency : Option Nat)
  /-- VX_PROOF_TEST with factory = 1 injects into a reaction path in TESTMODE (R407). -/
  | vxFactoryTest (r : Fin 4) (latency : Nat)
  /-- Sets the fault class of each source while GL_KEY is unlocked (R410). -/
  | vxClasses (r : Fin 4)
  /-- Opens a sleep ballot on the given channels (R429). -/
  | pwSleepPrepare (r : Fin 4)
  /-- Commits a ballot in READY by sending SLEEP_COMMIT (R429). -/
  | pwSleepCommit (r : Fin 4)
  /-- Sets channel or global wake and power settings (R438). -/
  | pwWakeConfig (r : Fin 4)
  /-- PW_MODE op DOZE_ON enables clock gating of idle blocks (R414). -/
  | dozeOn (r : Fin 4)
  /-- PW_MODE op DOZE_OFF disables DOZE gating (R415). -/
  | dozeOff (r : Fin 4)
  /-- PW_MODE op SLEEP starts entry to SLEEP without a ballot (R416). -/
  | pwModeSleep (r : Fin 4)
  /-- PW_MODE op HIBERNATE starts entry to HIBERNATE without a ballot (R416). -/
  | pwModeHibernate (r : Fin 4)
  /-- PW_MODE op REASON_SET holds a HOST or APPLICATION keep-awake reason (R427). -/
  | reasonSet (r : Fin 4)
  /-- PW_MODE op REASON_CLEAR ends a held keep-awake reason (R427). -/
  | reasonClear (r : Fin 4)
  /-- When the device sleep condition holds, the device starts entry by itself (R436). -/
  | deviceSleepEntry
  /-- SLEEP or HIBERNATE entry completes and the core is gated or PWR_HOLD driven low (R415). -/
  | entryComplete
  /-- Entry is not complete within 150 us; it is abandoned and source 39 asserts with kind ENTRY (R415). -/
  | entryTimeout (step : Fin 5)
  /-- SLEEP exit completes and the device regains full service (R417). -/
  | exitComplete (ticks : Nat) (bad : List (Fin 128))
  /-- CHn_RXD stays low past the filter on an asleep channel with wake_en = 1; the channel wakes (R423). -/
  | busWake (ch : Fin 16)
  /-- A filtered falling edge on GPIO15 sets the HOST_PIN wake latch bit (R422). -/
  | hostWakePin
  /-- wake_timer_s passes in SLEEP or HIBERNATE and sets the TIMER wake latch bit (R422). -/
  | wakeTimer
  /-- confirm_ms passes without a frame; the wake is false and the channel returns to sleep (R425). -/
  | confirmTimeout (ch : Fin 16)
  /-- The 3 600 s false-wake window closes and may restore the short filter (R426). -/
  | fwWindowClose (ch : Fin 16)
  /-- Every ka_ms while an own reason holds, KEEP_AWAKE frames are committed on the ballot channels (R428). -/
  | keepAwakeInterval
  /-- window_ms passes after the SLEEP_PREPARE frames without objection; the ballot becomes READY or COMMITTED (R429).
  -/
  | ballotWindowEnd
  /-- A SLEEP_PREPARE has not ended SENT window_ms after its commit; the ballot ends NO_SEND (R429). -/
  | ballotSendTimeout
  /-- window_ms passes in READY without a commit; the ballot ends LAPSED (R429). -/
  | ballotLapse
  /-- delay_ms passes on every ballot channel after SLEEP_COMMIT; the channels go to sleep (R429). -/
  | ballotDelayEnd
  /-- delay_ms after a received SLEEP_COMMIT, a participant's group channels go to sleep (R431). -/
  | groupSleepDelayEnd
  /-- The awake timer expires and the device opens a ballot with cause AWAKE_TIME (R434). -/
  | awakeTimerExpiry
  /-- Writes margin records of a channel to host memory (R475). -/
  | mpReport (r : Fin 4)
  /-- MP_APPLY op FOLD makes the values in force the plan (R475). -/
  | mpFold (r : Fin 4)
  /-- MP_APPLY op REVERT restores the plan at the next gap between frames (R475). -/
  | mpRevert (r : Fin 4)
  /-- MP_APPLY op NOM_SP writes the recommended nominal sample point into a stopped channel (R475). -/
  | mpNomSp (r : Fin 4)
  /-- Every plan_s, the planner closes measurements, computes margins, plans steps, guard, recommendations and alarms
  (R458). -/
  | planningCycleEnd (x : MpSample)
  /-- A planned timing step is applied at the end of the frame on the wire, or at once on an idle bus (R468). -/
  | mpStepApply (ch : Fin 16)
  /-- In a host DMA slot, the host DMA engine pops the head of a HOST_DMA queue and drains the item into host memory
  (R168). -/
  | hostDmaDrain (q : Fin 256)
  /-- In the duplex controller's slot, a waiting BDP item is committed into its bdp_queue, retrying after back-pressure
  (R276). -/
  | bdpItemCommit (ch kind : Fin 16) (pick : Fin 65536)
  /-- A Waltis Link receiver sees 3 consecutive K28.5 commas on a lane and that lane becomes aligned (R348). -/
  | laneAligned (lane : Fin 2)
  /-- A Waltis Link packet finishes transmission; the highest waiting packet starts, or after a NOTICE in a class-3 safe
  state the transmitter falls silent (R350). -/
  | linkPacketEnd
  /-- The PCI Express link trains to L0, after PE_PERST_N is released or on return from SLEEP, and SQ_HLINK link_up
  becomes 1 (R489). -/
  | pcieLinkUp (two fast : Bool)
  /-- RESET_N stays low past the device's filter time and the device is held in reset with CHn_TXD recessive and mode
  pins high-impedance (R440). -/
  | resetNAsserted
  /-- VDD_CORE, VDD_PLL, VDD_IO or VDD_SER falls below its falling POR threshold and core power-on reset is asserted
  (R551). -/
  | corePorAsserted (rail : Fin 4 := 0)
  /-- VAO falls below its POR threshold; retention, counters and the wake latch are lost and PWR_HOLD is no longer
  driven (R415). -/
  | vaoLost
  /-- The clock monitor finds the clock good again and level source 26 deasserts, so VX_CLEAR can clear its bit (R384).
  -/
  | clockMonitorRecovered
  /-- A channel in RECOVERING samples an occurrence of 11 consecutive recessive bits and seq_cnt rises by 1 (R87). -/
  | recoveryOccurrence (ch : Fin 16)
deriving DecidableEq, Repr

end Sys2Proof
end

