-- ==== Sys2Proof/Decode.lean ====
section
/-!
DEFINITION. The commands that a word spells. The opcode table gives no row of this block any bits: no word spells a command.
-/
namespace Sys2Proof

/-- The command of an `nbits`-bit word w: the table has no row with bits, so there is none. -/
def decodeTableWord (nbits w : Nat) : Option Instr :=
  match nbits, w with
  | _, _ => none

end Sys2Proof
end

