-- ==== Sys2Proof/Machine/Bits.lean ====
section
/-!
DEFINITION. Bit fields, byte order, saturating counters and the sparse tables the state is built from.
Numbers of fields follow the manual's notation [msb:lsb]: `fld w lo n` is the n-bit field whose lowest bit is lo.
-/
namespace Sys2Proof.Machine

/-- The n-bit field of `w` that starts at bit `lo`, as a number. -/
def fld (w : Word) (lo n : Nat) : Nat := (w.toNat >>> lo) % 2 ^ n

/-- Bit `i` of `w`. -/
def bitOf (w : Word) (i : Nat) : Bool := fld w i 1 == 1

/-- `w` with the n-bit field at `lo` replaced by `v` (taken modulo 2^n). -/
def putFld (w : Word) (lo n v : Nat) : Word :=
  BitVec.ofNat 32 (w.toNat - (fld w lo n) * 2 ^ lo + (v % 2 ^ n) * 2 ^ lo)

/-- A number as a 32-bit word, modulo 2^32. -/
def w32 (v : Nat) : Word := BitVec.ofNat 32 v

/-- A Boolean as a one-bit number. -/
def b1 (b : Bool) : Nat := if b then 1 else 0

/-- A word put together from fields `(lo, width, value)`, each value taken modulo its width; other bits 0. -/
def packW : List (Nat × Nat × Nat) → Word
  | [] => 0#32
  | (lo, n, v) :: t => w32 ((packW t).toNat ||| ((v % 2 ^ n) <<< lo))

/-- `old` with the bits selected by `mask` taken from `new`. -/
def maskMerge (old new mask : Word) : Word := (old &&& ~~~mask) ||| (new &&& mask)

/-- The low word of a 64-bit quantity (R6). -/
def lo32 (d : DWord) : Word := w32 d.toNat
/-- The high word of a 64-bit quantity (R6). -/
def hi32 (d : DWord) : Word := w32 (d.toNat >>> 32)
/-- The 64-bit quantity of a low and a high word (R6). -/
def join64 (lo hi : Word) : DWord := BitVec.ofNat 64 (lo.toNat + (hi.toNat <<< 32))
/-- Bit `i` of a 64-bit quantity. -/
def bitOf64 (d : DWord) (i : Nat) : Bool := (d.toNat >>> i) % 2 == 1
/-- A field of a 64-bit quantity. -/
def fld64 (d : DWord) (lo n : Nat) : Nat := (d.toNat >>> lo) % 2 ^ n
/-- `d` with bit `i` set to `b`. -/
def putBit64 (d : DWord) (i : Nat) (b : Bool) : DWord :=
  BitVec.ofNat 64 (d.toNat - (fld64 d i 1) * 2 ^ i + b1 b * 2 ^ i)

/-- A two's complement field of `n` bits as an integer. -/
def signed (v n : Nat) : Int := if v < 2 ^ (n - 1) then (v : Int) else (v : Int) - 2 ^ n
/-- An integer as an `n`-bit two's complement field. -/
def unsign (v : Int) (n : Nat) : Nat := (v % (2 ^ n : Int)).toNat
/-- A word read as a signed 32-bit value. -/
def sw (w : Word) : Int := signed w.toNat 32
/-- A signed value as a word, modulo 2^32. -/
def ws (v : Int) : Word := w32 (unsign v 32)
/-- `v` limited to the range `lo` to `hi`. -/
def clampI (lo hi v : Int) : Int := if v < lo then lo else if hi < v then hi else v

/-- A counter that stops at `top`. -/
def satInc (top v : Nat) : Nat := if v < top then v + 1 else top
/-- A counter that wraps at 2^32. -/
def wrapInc (v : Nat) : Nat := (v + 1) % 2 ^ 32

/-- Byte `i` (0 to 3) of a word (R3). -/
def byteOf (w : Word) (i : Nat) : Byte := BitVec.ofNat 8 (fld w (8 * i) 8)
/-- The four bytes of a word, byte 0 first (R3). -/
def bytesOf (w : Word) : List Byte := [byteOf w 0, byteOf w 1, byteOf w 2, byteOf w 3]
/-- The bytes of a list of words in order (R3). -/
def bytesOfWords : List Word → List Byte
  | [] => []
  | w :: t => bytesOf w ++ bytesOfWords t
/-- Byte `i` of a byte list; bytes past its end read 0 (R161). -/
def byteAt (l : List Byte) (i : Nat) : Byte := l.getD i 0#8
/-- The little-endian word at byte offset `i` of a byte list (R3, R4). -/
def wordAt (l : List Byte) (i : Nat) : Word :=
  w32 ((byteAt l i).toNat + ((byteAt l (i + 1)).toNat <<< 8) + ((byteAt l (i + 2)).toNat <<< 16)
    + ((byteAt l (i + 3)).toNat <<< 24))
/-- The little-endian 16-bit value at byte offset `i` of a byte list. -/
def halfAt (l : List Byte) (i : Nat) : Nat := (byteAt l i).toNat + ((byteAt l (i + 1)).toNat <<< 8)
/-- `n` words of a byte list from offset 0. -/
def wordsOf (l : List Byte) (n : Nat) : List Word := (List.range n).map (fun k => wordAt l (4 * k))
/-- Word `i` of a word list; words past its end read 0. -/
def wd (l : List Word) (i : Nat) : Word := l.getD i 0#32

/-! ### Sparse tables

A table of like things (queues, gates, routes, channels, registers) is a list of numbered entries; a number with no
entry reads as the table's default, which is the entry's value at reset. -/

/-- The entry numbered `i`, or `d` where none is listed. -/
def mget {α : Type} (d : α) : List (Nat × α) → Nat → α
  | [], _ => d
  | (k, v) :: t, i => if i = k then v else mget d t i

/-- The table with entry `i` set to `v`. -/
def mset {α : Type} : List (Nat × α) → Nat → α → List (Nat × α)
  | [], i, v => [(i, v)]
  | (k, w) :: t, i, v =>
    if i < k then (i, v) :: (k, w) :: t else if i = k then (i, v) :: t else (k, w) :: mset t i v

/-- The table without entry `i`. -/
def mdel {α : Type} (m : List (Nat × α)) (i : Nat) : List (Nat × α) := m.filter (fun e => e.1 != i)

/-- The table with every listed entry changed. -/
def mmap {α : Type} (f : α → α) : List (Nat × α) → List (Nat × α)
  | [] => []
  | (k, v) :: t => (k, f v) :: mmap f t

/-! ### The byte memory of the cell pool

A list of `Host.Cell`s in ONE canonical form: addresses strictly rising, no entry equal to 0, which is what an
unlisted byte reads as: bring-up clears the pool (R443, phase B2). -/

/-- The byte at address `a`. -/
def memGet (m : List Host.Cell) (a : Nat) : Byte := mget 0#8 m a

/-- The memory with byte `v` at address `a`; a byte written 0 is no longer listed. -/
def memSet (m : List Host.Cell) (a : Nat) (v : Byte) : List Host.Cell := if v = 0#8 then mdel m a else mset m a v

/-- Writes a run of bytes at rising addresses. -/
def memWrite (m : List Host.Cell) (a : Nat) : List Byte → List Host.Cell
  | [] => m
  | v :: t => memWrite (memSet m a v) (a + 1) t

/-- Reads `n` bytes from address `a`. -/
def memRead (m : List Host.Cell) (a n : Nat) : List Byte := (List.range n).map (fun i => memGet m (a + i))

/-- Every listed address of the memory is above `a`, they rise strictly, and no listed byte is 0. -/
def memWfFrom : Nat → List Host.Cell → Bool
  | _, [] => true
  | a, (k, v) :: t => decide (a ≤ k) && decide (v ≠ 0#8) && memWfFrom (k + 1) t

/-- The canonical form of the pool's memory: addresses strictly rising, no byte 0 listed. -/
def Memory.wf (m : List Host.Cell) : Bool := memWfFrom 0 m

end Sys2Proof.Machine
end

