-- ==== Sys2Proof/Machine/Crc.lean ====
section
/-!
DEFINITION. The cyclic redundancy checks of R324: CRC8, CRC16, CRC32 and CRC32C.
-/
namespace Sys2Proof.Machine

/-- One bit of a CRC register of `w` bits, most significant bit first. -/
def crcBit (w poly reg : Nat) (b : Bool) : Nat :=
  let top := reg.testBit (w - 1) != b
  let sh := (reg * 2) % 2 ^ w
  if top then sh ^^^ poly else sh

/-- The eight bits of a byte, most significant first. -/
def bitsMsb (v : Nat) : List Bool := [v.testBit 7, v.testBit 6, v.testBit 5, v.testBit 4, v.testBit 3, v.testBit 2,
  v.testBit 1, v.testBit 0]

/-- The CRC register after one more byte; a reflected CRC takes the least significant bit first (R324). -/
def crcByte (w poly : Nat) (refl : Bool) (reg : Nat) (v : Byte) : Nat :=
  (if refl then (bitsMsb v.toNat).reverse else bitsMsb v.toNat).foldl (crcBit w poly) reg

/-- The CRC register after a run of bytes. -/
def crcBytes (w poly : Nat) (refl : Bool) (reg : Nat) (l : List Byte) : Nat := l.foldl (crcByte w poly refl) reg

/-- `v` with its `w` bits in reverse order. -/
def reflect (w v : Nat) : Nat := (List.range w).foldl (fun a i => a + (if v.testBit i then 2 ^ (w - 1 - i) else 0)) 0

/-- CRC-16 of R324 over a run of bytes (polynomial 0x1021, initial value 0xFFFF, no final XOR). -/
def crc16 (l : List Byte) : Nat := crcBytes 16 0x1021 false 0xFFFF l

/-- CRC-32C of R324 over a run of bytes (polynomial 0x1EDC6F41, reflected, initial value and final XOR all ones). -/
def crc32c (l : List Byte) : Nat := reflect 32 (crcBytes 32 0x1EDC6F41 true 0xFFFFFFFF l) ^^^ 0xFFFFFFFF

end Sys2Proof.Machine
end

