-- ==== Sys2Proof/Config.lean ====
section
/-!
DEFINITION. What one implementation of the KF1664 fixes, and the values that the manual leaves open. A value left open
is an opaque constant without a body: nothing can be proved about it that is not true of every value.
-/
namespace Sys2Proof.Config

/-- The slot in progress when GL_WHEEL_STAT is read (R38): diagnostic, with no fixed relation to host timing. Free
value (log entry 8), applied to the count of free values used. -/
opaque slotNow : Nat → BitVec 6

/-- What ISO 11898-1 leaves open when a receive error counter above 127 falls after a good frame: it takes a value from
119 to 127. Free value (log entry 9). -/
opaque recAfter : Nat → BitVec 4

/-- Which way R251's round goes for a rate adjustment whose product with 8.947 8 lies halfway between two steps of the
fraction (log entry 14). -/
opaque rateTieUp : Int → Bool

/-- The number by which 0x7B PW_MODE_CHANGE carries a power mode (0 RUN, 1 DOZE, 2 SLEEP, 3 HIBERNATE here): the manual
numbers no modes (R439, R509). Free value (log entry 17). -/
opaque modeCode : Fin 4 → BitVec 8

/-- The values that a check unit records or returns where R330 and R335 leave them unknown: a frame too short for its
check field, engines that disagree (log entry 20). -/
opaque ckUnknown : Nat → BitVec 32

/-- The cause that 0x69 DX_DEMOTED carries: the manual numbers no causes of a demotion (R380). 0 a higher claim observed,
1 a verdict, 2 a swap. Free value (log entry 22). -/
opaque demoteCause : Fin 3 → BitVec 8

/-- Which way R460's and R465's rounding to the nearest milli-bit-time goes for a phase of `err` periods that lies halfway,
with `n` periods in a bit (log entry 24). -/
opaque edgeTieUp : Int → Nat → Bool

/-- What the host reads where the slot transfer of its read has been discarded for a parity mismatch: R35 gives no value.
Free value (log entry 127). -/
opaque discardedRead : Nat → BitVec 32

/-- The patch level of a PATCH section (its bytes): R529 gives GL_REV that level and no rule says where the section holds
it. Free value (log entry 123). -/
opaque patchLevel : List Byte → BitVec 8

/-- The first of the pool's cells in which an image read from the flash is staged: R446 names none. Free value (log entry 46). -/
opaque flashCell : Nat → BitVec 16

/-- The instruction that a code in the TAP's instruction register stands for (0 BYPASS, 1 IDCODE, 2 SAMPLE/PRELOAD, 3 EXTEST), what
its register captures above the two bits that IEEE 1149.1 fixes, and what the boundary register's cells capture: R546 gives
no codes, lengths or cells. Free values (log entry 121). -/
opaque tapCode : List Bool → BitVec 2
/-- See `tapCode`. -/
opaque irCapture : List Bool
/-- See `tapCode`. -/
opaque boundaryCells : Nat → List Bool

/-- Whether an output pin (by its number in Machine/Pins.lean) is driven under EXTEST, and its level, from the boundary register's
outputs. Free values (log entry 121). -/
opaque extestDrives : List Bool → Nat → Bool
/-- See `extestDrives`. -/
opaque extestLevel : List Bool → Nat → Bool

end Sys2Proof.Config
end

