-- ==== Sys2Proof/Machine/State.lean ====
section
/-!
DEFINITION. The state of the KF1664: every register, buffer, queue, engine state, timer and pin that the manual gives
it, as plain data, with the value each has after core power-on reset. Registers that software reads and writes as a
word are words; what lives only inside an engine is a named value. Tables of like things are sparse (`mget`, `mset`):
an entry that is not listed has the default written here.
-/
namespace Sys2Proof.Machine

/-! ## Host interface: rings, interrupts, host link (chapter 19) -/

/-- A ring's state (R500), numbered as SQ_CR_CFG and SQ_CQ_TAIL report it. -/
inductive RingState where
  | disabled | running | disabling | halted
deriving DecidableEq, Repr

/-- What a command leaves for its completion entry (R504). -/
structure Comp where
  status : Nat
  r0     : Word
  r1     : Word
deriving DecidableEq, Repr

/-- A host submission that has begun to write its item (R177): its queue and class, the item's words and payload, the
cells allocated so far, whether an allocation has been refused, whether a flush has marked it (R187), and the commit records
counted when its request for the host DMA slots arose (R33). -/
structure Submission where
  queue  : Nat
  cls    : Nat
  words  : List Word
  data   : List Byte
  cells  : List Nat
  waited : Bool
  marked : Bool
  arr    : Nat := 0
deriving DecidableEq, Repr

/-- The command a ring has fetched: its packet, its place in the fetch order (for the fence, R503), whether it has
begun, whether it waits for a DMA read, whether its completion is to be discarded (R488), a host submission in
progress, progress counts of the command's own, its completion once its completion point is reached, and when that arose among the
commit records (R33). -/
structure Cmd where
  words   : List Word
  seq     : Nat
  begun   : Bool
  dma     : Bool
  discard : Bool
  sub     : Option Submission
  aux     : List Nat
  comp    : Option Comp
  arr     : Nat := 0
deriving DecidableEq, Repr

/-- A command ring (R497, R516). -/
structure CmdRing where
  baseLo   : Word
  baseHi   : Word
  en       : Bool
  serial   : Bool
  log2     : Nat
  state    : RingState
  dbErr    : Bool
  haltKind : Nat
  tail     : Nat
  head     : Nat
  done     : Nat
  cmd      : Option Cmd
deriving DecidableEq, Repr

/-- A command ring at reset (R516, R535: SQ_CR_CFG 0x0000_0008). -/
def CmdRing.reset : CmdRing :=
  { baseLo := 0, baseHi := 0, en := false, serial := false, log2 := 2, state := .disabled, dbErr := false,
    haltKind := 0, tail := 0, head := 0, done := 0, cmd := none }

/-- A completion ring, or the event ring (number 4) (R497, R517), with the entries written since its last signal
(R511). -/
structure CqRing where
  baseLo  : Word
  baseHi  : Word
  en      : Bool
  serial  : Bool
  log2    : Nat
  dbErr   : Bool
  vector  : Nat
  coalN   : Nat
  coalUs  : Nat
  state   : RingState
  head    : Nat
  tail    : Nat
  phase   : Bool
  unsig   : Nat
deriving DecidableEq, Repr

/-- A completion ring at reset (R517, R535: SQ_CQ_CFG 0x0001_0008, SQ_CQ_TAIL 0x0000_1000). -/
def CqRing.reset : CqRing :=
  { baseLo := 0, baseHi := 0, en := false, serial := false, log2 := 2, dbErr := false, vector := 0, coalN := 1,
    coalUs := 0, state := .disabled, head := 0, tail := 0, phase := true, unsig := 0 }

/-- The function's configuration after a reset of the endpoint (R486, R488; log entry 148). -/
def Endpoint.reset : Endpoint :=
  { bar0 := 0, bar2 := 0, d3hot := false, msixMask := false, payload256 := false, maxRead := 2, ecrcGen := false,
    ecrcChk := false }

/-- The sequencer's host side (R515 to R517): SQ_IRQ_CFG, staging, host link and its fault record, event masks,
serial interrupts, lost events (the saturating register, and the count since the last 0x02 SQ_EV_LOST), the rings,
the MSI-X table (word k of entry v at 4v + k; vector control is word 3) and pending bits, the round-robin position,
the number of commands fetched, STATUS [0] of the serial port (R490), and the configuration of the PCI Express function (R486).
`evOut` lists, oldest first, the keys (code
and instance) of the event entries the host has not consumed (R510). -/
structure Sq where
  irqCfg    : Word
  stgCells  : Nat
  stgErr    : Bool
  linkUp    : Bool
  linkWidth : Nat
  linkSpeed : Bool
  herrKind  : Nat
  herrSeen  : Bool
  herrCount : Nat
  evMask    : List (Nat × Word)
  irqPend   : DWord
  irqMask   : DWord
  evLost    : Nat
  lostSince : Nat
  evOut     : List Nat
  crs       : List (Nat × CmdRing)
  cqs       : List (Nat × CqRing)
  msix      : List (Nat × Word)
  msixPend  : DWord
  lastRing  : Nat
  fetched   : Nat
  serialBad : Bool
  ep        : Endpoint
deriving DecidableEq, Repr

/-- Chapter 19's registers at reset (R535). -/
def Sq.reset : Sq :=
  { irqCfg := 0x0000023F#32, stgCells := 0, stgErr := false, linkUp := false, linkWidth := 0, linkSpeed := false,
    herrKind := 0, herrSeen := false, herrCount := 0, evMask := [], irqPend := 0, irqMask := 0xFFFFFFFFFFFFFFFF#64,
    evLost := 0, lostSince := 0, evOut := [], crs := [], cqs := [], msix := [], msixPend := 0, lastRing := 3,
    fetched := 0, serialBad := false, ep := Endpoint.reset }

/-! ## GL block (chapter 20) -/

/-- GL_KEY (R530, R531) with the interface that armed it, GL_KEY_CFG, the wheel's parity record (R38), the general
purpose pins (R534), the patch level (R529), the high-word latches of R6 and R524 (the latch of interface i and
low-word offset o is entry 2^20 i + o), and the slots whose next transfer has a parity mismatch, with the lane (R35). -/
structure Gl where
  unlocked  : Bool
  armed     : Bool
  bySerial  : Bool
  armSerial : Bool
  relockUs  : Nat
  perrSlot  : Nat
  perrLane  : Bool
  perrSeen  : Bool
  gpioDir   : Nat
  gpioOut   : Nat
  gpioPins  : Nat
  patch     : Nat
  hiLatch   : List (Nat × Word)
  slotBad   : List (Nat × Bool) := []
deriving DecidableEq, Repr

/-- The GL block at reset (R528, R530). The level of the pins that the board drives is not the device's: the model
holds them low at reset (log entry 6). -/
def Gl.reset : Gl :=
  { unlocked := false, armed := false, bySerial := false, armSerial := false, relockUs := 0x2710, perrSlot := 0,
    perrLane := false, perrSeen := false, gpioDir := 0, gpioOut := 0, gpioPins := 0, patch := 0, hiLatch := [], slotBad := [] }

/-! ## Vertex (chapter 14) -/

/-- A target of a class-2 reaction, or the whole device (R392, R393, R396). -/
inductive Target where
  | chan (n : Nat)
  | chord
  | tangent
  | check
  | queue (q : Nat)
  | duplex
  | device
deriving DecidableEq, Repr

/-- A proof test in progress (R405): its source, its instance, the ring whose command it is, and the counter value at its
injection. -/
structure ProofTest where
  source   : Nat
  inst     : Nat
  ring     : Nat
  start    : DWord
deriving DecidableEq, Repr

/-- Vertex: status bits, injected marks, the level lines asserted now, the bits set by a genuine class-3 assertion
(R403), the first-fault latch (R387, R388), consequential count and last (R397), the class map (class of source 16k+j
in bits [2j+1:2j] of word k), VX_CFG, TESTMODE as sampled, ALIVE running and its level, the complement-copy error
(R402), the reaction latch of the safe state and its completion (R394), whether R390's record of this power cycle is
made, the class-2 holders (source, target), the open tag windows (targets; the reset of a target is over, R396) and a
proof test in progress. -/
structure Vx where
  stat       : DWord
  inj        : DWord
  level      : DWord
  genuine3   : DWord
  fSource    : Nat
  fClass     : Nat
  fValid     : Bool
  fInjected  : Bool
  fOverflow  : Bool
  fInfo      : Word
  fTime      : DWord
  conseq     : Nat
  conseqLast : Nat
  classes    : List (Nat × Word)
  cfg        : Word
  testMode   : Bool
  aliveRun   : Bool
  alivePin   : Bool
  cplErr     : Bool
  safe       : Bool
  safeDone   : Bool
  last3Done  : Bool
  held       : List (Nat × Target)
  windows    : List (Target × List Nat)
  proof      : Option ProofTest
deriving DecidableEq, Repr

/-- The default class map (R384, R409). -/
def Vx.classMap : List (Nat × Word) :=
  [(0, 0xAAAAAAAA#32), (1, 0x57FD7552#32), (2, 0x005855F5#32), (3, 0x30000000#32)]

/-- The Vertex registers at core power-on reset (R391, R409). -/
def Vx.reset : Vx :=
  { stat := 0, inj := 0, level := 0, genuine3 := 0, fSource := 0, fClass := 0, fValid := false, fInjected := false,
    fOverflow := false, fInfo := 0, fTime := 0, conseq := 0, conseqLast := 0, classes := Vx.classMap, cfg := 1#32,
    testMode := false, aliveRun := false, alivePin := false, cplErr := false, safe := false, safeDone := false,
    last3Done := false, held := [], windows := [], proof := none }

/-! ## Cell pool and queues (chapter 6) -/

/-- A queue's state (R191). -/
inductive QState where
  | none | opened | flushing | broken
deriving DecidableEq, Repr

/-- An item in a queue's lists: the class it is filed by, its cells in item order (R161, R170), and its place in the
order of all commit records (R229); copies of one frame share theirs. -/
structure Item where
  cls   : Nat
  cells : List Nat
  seq   : Nat
deriving DecidableEq, Repr

/-- A flush in progress (R187, R190, R195): classes, items discarded and cells freed so far, whether it is a repair,
the ring of its command (4: the command has been ended by other means). -/
structure Flush where
  mask   : Nat
  items  : Nat
  cells  : Nat
  repair : Bool
  ring   : Nat
deriving DecidableEq, Repr

/-- A queue (R168 to R200): its configuration, its listed items in the order of their commits (all classes; the lists
per class of R170 are its sublists), the registers of R198, and its read window (R180 to R185): the locked item's
cell 0, the cell shown, the flags, and the value of the previous QM_W_DATA read. `fullTold`: 0x31 Q_FULL has been
raised since occupancy was last below max (R203). -/
structure Queue where
  state    : QState
  consumer : Nat
  txCh     : Nat
  txPos    : Nat
  xlFed    : Bool
  notify   : Bool
  min      : Nat
  max      : Nat
  items    : List Item
  full     : Bool
  fullTold : Bool
  bpSeen   : Bool
  hwm      : Nat
  itemsIn  : Nat
  itemsOut : Nat
  itemsDisc : Nat
  bpCount  : Nat
  lock     : Option Nat
  wCell    : Nat
  underrun : Bool
  lockLost : Bool
  popErr   : Bool
  range    : Bool
  prevData : Word
  flush    : Option Flush
deriving DecidableEq, Repr

/-- A queue in NONE (R198, R200). -/
def Queue.reset : Queue :=
  { state := .none, consumer := 0, txCh := 0, txPos := 0, xlFed := false, notify := false, min := 0, max := 0,
    items := [], full := false, fullTold := false, bpSeen := false, hwm := 0, itemsIn := 0, itemsOut := 0,
    itemsDisc := 0, bpCount := 0, lock := none, wCell := 0, underrun := false, lockLost := false, popErr := false,
    range := false, prevData := 0, flush := none }

/-- The cell pool and the queue manager: the pool's bytes (byte b of word k of cell c at 64c + 4k + b, R197; word 15
lives in the link array and is derived), the owner queue of every charged cell, the link entries with a parity error
not yet found and those marked (R167), the queues, QM_CFG, QM_POOL_LOW, QM_AUDIT (R199), the audit's position in
turns, whether 0x32 Q_POOL_LOW has been raised since the last rise (R203), and the number of commit records so far. -/
structure Pool where
  mem      : List Host.Cell
  owner    : List (Nat × Nat)
  linkBad  : List Nat
  linkMark : List Nat
  queues   : List (Nat × Queue)
  lockTmo  : Nat
  bpTmo    : Nat
  lowWater : Nat
  auditEn  : Bool
  failQ    : Nat
  failSeen : Bool
  failKind : Nat
  passes   : Nat
  auditPos : Nat
  lowTold  : Bool
  nextSeq  : Nat
deriving DecidableEq, Repr

/-- Chapter 6's state at reset (R199); the pool is cleared in B2 (R191, R443). -/
def Pool.reset : Pool :=
  { mem := [], owner := [], linkBad := [], linkMark := [], queues := [], lockTmo := 0x64, bpTmo := 0xA,
    lowWater := 0x1000, auditEn := true, failQ := 0, failSeen := false, failKind := 0, passes := 0, auditPos := 0,
    lowTold := false, nextSeq := 0 }

/-! ## Lattice (chapter 5) -/

/-- A claim gate (R148, R156), with the times of its last arming by a frame and of the last host write of highest, by which updates
of one core cycle are told (R147). -/
structure Gate where
  pairAddr : Nat
  en       : Bool
  armMode  : Bool
  highest  : Nat
  armed    : Bool
  sat      : Bool
  rejects  : Nat
  armTime  : Option DWord := none
  hostTime : Option DWord := none
deriving DecidableEq, Repr

/-- A gate after core power-on reset (R148, R156). -/
def Gate.reset : Gate :=
  { pairAddr := 0, en := false, armMode := false, highest := 0, armed := false, sat := false, rejects := 0 }

/-- An LT_WRITE that has not completed (R135): its ring, channel, next position, elements still to be moved, the number it
moves in all, and the status and result word 1 that a failed read of its data gives it (R496). -/
structure LtWrite where
  ring  : Nat
  chan  : Nat
  pos   : Nat
  elems : List DWord
  total : Nat
  fail  : Option (Nat × Word) := none
deriving DecidableEq, Repr

/-- An LT_COMMIT waiting for its old halves to drain (R138). -/
structure LtCommit where
  ring : Nat
  mask : Nat
  copy : Bool
deriving DecidableEq, Repr

/-- Lattice: the element table (index = 8192 half + 512 channel + position), its stored ECC errors (1 single, 2
double bit) and those of the gates, the active half, draining flag and mirror-copy progress of each channel (`some p`:
positions below p are copied), the gates, unfinished writes and commits, pending write-backs, the window's selection
and held low word (position in the window's own numbering: channel, position), the scrub, the channel defaults, and
the records of R157. -/
structure Lat where
  elems    : List (Nat × DWord)
  elemErr  : List (Nat × Nat)
  gateErr  : List (Nat × Nat)
  active   : List (Nat × Bool)
  drain    : List (Nat × Bool)
  copying  : List (Nat × Option Nat)
  gates    : List (Nat × Gate)
  writes   : List LtWrite
  commits  : List LtCommit
  backs    : List Nat
  gateBacks : List Nat
  winGrp   : Nat
  winHalf  : Bool
  held     : Option (Nat × Word)
  scrubEn  : Bool
  scrubPos : Nat
  passes   : Nat
  chDef    : List (Nat × Word)
  ownCh    : Nat
  ownIde   : Bool
  ownSeen  : Bool
  ownCount : Nat
  ownId    : Nat
  corrIdx  : Nat
  corrSeen : Bool
  corrGate : Bool
  uncIdx   : Nat
  uncSeen  : Bool
  uncGate  : Bool
deriving DecidableEq, Repr

/-- Chapter 5's state at reset (R154 to R157). The manual gives the element table no contents before it is written:
the model reads every element as END, 0 (log entry 7). -/
def Lat.reset : Lat :=
  { elems := [], elemErr := [], gateErr := [], active := [], drain := [], copying := [], gates := [], writes := [],
    commits := [], backs := [], gateBacks := [], winGrp := 0, winHalf := false, held := none, scrubEn := true,
    scrubPos := 0, passes := 0, chDef := [], ownCh := 0, ownIde := false, ownSeen := false, ownCount := 0, ownId := 0,
    corrIdx := 0, corrSeen := false, corrGate := false, uncIdx := 0, uncSeen := false, uncGate := false }

/-! ## Channel engines and the transmit path (chapters 3, 4 and 7) -/

/-- A channel's state (R74), numbered as CH_STATE reports it. -/
inductive ChState where
  | stopped | integrating | active | stopping | busOff | safe
deriving DecidableEq, Repr

/-- The states within BUS_OFF (R91); `none` outside it. -/
inductive BoffState where
  | none | waitHost | backoff | recovering | latched
deriving DecidableEq, Repr

/-- A destination of a received frame (R121, R127); `cut` is a route's cut-through copy (R239). -/
inductive Dest where
  | queue (q cls : Nat)
  | route (r : Nat)
  | bind (c : Nat)
  | cut (r : Nat)
deriving DecidableEq, Repr

/-- One cell chain of a received frame (R22): its destination, the element index of R130, the queue charged and the
class, its cells allocated so far, whether cell 0 has been written finally (R99), whether its queue admitted it, and
whether a flush has marked it (R187). -/
structure Chain where
  dest    : Dest
  element : Nat
  queue   : Nat
  cls     : Nat
  cells   : List Nat
  final   : Bool
  marked  : Bool
deriving DecidableEq, Repr

/-- A rejection or a pass of a claim gate, kept until frame valid (R143 to R145): the gate, the reason (`none` is a
pass), the claim, and whether UNARMED alone stood against it (R148). -/
structure GateUse where
  gate   : Nat
  reason : Option Nat
  claim  : Nat
  sole   : Bool
deriving DecidableEq, Repr

/-- How a frame's verdict came out, for the counters of R160. -/
inductive Verdict where
  | pending | delivered | dropped | nomatch | uncorrectable
deriving DecidableEq, Repr

/-- A frame in the receive path or in a staging slot: the SOF stamp and what was latched at SOF (half, channel
default, BDP base), the frame once its header is known, the verdict with its chains, Tangent bindings (context and its word 0, R295) and
gate uses, the owned match, the check unit bound (unit, cfd) with the
settings it was bound under (R342), whether its engines disagree, and its result (status, data ID, sequence number),
whether the CRC field is past and the frame is valid, whether it is the channel's own frame
(loopback), the chain that is a cut-through copy (R239) and the header it was given. -/
structure RxFrame where
  stamp    : DWord
  half     : Bool
  chDef    : Word
  base     : Nat
  frame    : Option Frame
  verdict  : Verdict
  chains   : List Chain
  binds    : List (Nat × Word)
  gates    : List GateUse
  owned    : Bool
  check    : Option (Nat × Bool)
  ckCfg    : Word
  ckCfg2   : Word
  engBad   : Bool
  result   : Nat
  dataId   : Nat
  seqNo    : Nat
  crcDone  : Bool
  valid    : Bool
  own      : Bool
  ctSeq    : Option Nat
  ctHead   : List Word
deriving DecidableEq, Repr

/-- An item as the transmit path uses it (R163, R205): descriptor words 0 to 7 and payload. For a prime buffer, word
6 is its CH_TXP_CTL. -/
structure TxItem where
  words : List Word
  data  : List Byte
deriving DecidableEq, Repr

/-- How far a cancel of the latched attempt has come (R217). -/
inductive CancelState where
  | none | early | late
deriving DecidableEq, Repr

/-- The attempt that the channel engine has latched (R211): its source and item, the acceptance field in force (R219),
whether the deadline is past, the header sent and in the data phase, an abort flag under way, the cancel acting on it
with the rings that wait for it, whether the item may make a further attempt (false after a demotion or a flush), the
SOF stamp, for a cut-through frame the inbound channel, and the check unit in TX mode with its settings (R342), whether
its engines disagree, and the payload it sends (R332). `mistimed`: without compensation the loop delay passes the sample
point, so that the frame fails (R58); `ctGone`: the inbound frame of this cut-through copy has failed (R241); `delay`: the loop delay
measured in this frame (R56). -/
structure Latched where
  source   : Nat
  item     : TxItem
  af       : Word
  deadline : Bool
  aborting : Bool
  cancel   : CancelState
  rings    : List Nat
  retry    : Bool
  stamp    : DWord
  ctFrom   : Option Nat
  check    : Option (Nat × Word × Word)
  engBad   : Bool
  sent     : List Byte
  mistimed : Bool := false
  ctGone   : Bool := false
  delay    : Option Nat := none
deriving DecidableEq, Repr

/-- An item taken from its queue by its first latch (R212). `flushed`: a flush has ended its further attempts
(R188). `underrun`: a cut-through copy that met an underrun waits until its inbound frame is valid (R242). -/
structure Taken where
  queue   : Nat
  cls     : Nat
  cells   : List Nat
  flushed : Bool
  underrun : Bool := false
deriving DecidableEq, Repr

/-- A prime buffer (R206). -/
structure Prime where
  desc    : List (Nat × Word)
  data    : List (Nat × Word)
  ctl     : Word
  armed   : Bool
  outcome : Nat
  done    : Bool
  armErr  : Bool
  lastTag : Nat
deriving DecidableEq, Repr

/-- A prime buffer at reset (R206, R540). -/
def Prime.reset : Prime :=
  { desc := [], data := [], ctl := 0, armed := false, outcome := 0, done := false, armErr := false, lastTag := 0 }

/-- A channel: its registers (R52 to R62, R73, R93, R98, R106, R111, R221, R287) with TDC measurement bits inside the
TDC words, its state (R74), effective XL settings (R61), whether the bus is in a data phase, error counters (R80),
bus-off bookkeeping (R88 to R94), the duplicate count and the source it counts (R95), the
transceiver machine (R107 to R111) with the ring of a waiting CH_SET_STATE, the counters of R520 by
their offset, the frame in the receive path, the staging slots (oldest first) and the frames whose commit record
waits, the loaded source with cell 0 of its item (65536: none, a prime buffer), the latched attempt, the taken items by
position, the prime buffers, and the cells of ended items whose return waits behind commit records (R30). -/
structure Chan where
  mode     : Word
  nom      : Word
  dat      : Word
  xl       : Word
  tdcFd    : Word
  tdcXl    : Word
  pwm      : Word
  boffCfg  : Word
  dup      : Word
  dupStat  : Word
  trxEnc   : Word
  trxTim   : Word
  txCfg    : Word
  bdpCfg   : Word
  state    : ChState
  xlErrsig : Bool
  xlFast   : Bool
  dataPh   : Bool
  tecCnt   : Nat
  recCnt   : Nat
  seqCnt   : Nat
  boffCnt  : Nat
  boff     : BoffState
  ceil     : Bool
  window   : Bool
  backoff  : Nat
  dupCnt   : Nat
  dupSrc   : Nat
  trx      : Nat
  trxTgt   : Nat
  settling : Bool
  pinsDrv  : Bool
  forced   : Bool
  trxRing  : Option Nat
  cnt      : List (Nat × Nat)
  rx       : Option RxFrame
  staged   : List RxFrame
  commits  : List RxFrame
  loaded   : Option Nat
  latch    : Option Latched
  taken    : List (Nat × Taken)
  primes   : List (Nat × Prime)
  loadedCell : Nat := 65536
  rets     : List Nat := []
deriving DecidableEq, Repr

/-- A channel at reset (R540). -/
def Chan.reset : Chan :=
  { mode := 0x000001F0#32, nom := 0x5EBEF801#32, dat := 0x17175E00#32, xl := 0x05051000#32, tdcFd := 0x00086001#32,
    tdcXl := 0x00081201#32, pwm := 0x00000903#32, boffCfg := 0x03E80800#32, dup := 0x07FFFF03#32, dupStat := 0#32,
    trxEnc := 0x24201115#32, trxTim := 0x00000032#32, txCfg := 0#32, bdpCfg := 0#32, state := .stopped,
    xlErrsig := false, xlFast := false, dataPh := false, tecCnt := 0, recCnt := 0, seqCnt := 0, boffCnt := 0, boff := .none,
    ceil := false, window := false, backoff := 0, dupCnt := 0, dupSrc := 0, trx := 2, trxTgt := 2, settling := false,
    pinsDrv := false, forced := false, trxRing := none, cnt := [], rx := none, staged := [],
    commits := [], loaded := none, latch := none, taken := [], primes := [],
    loadedCell := 65536, rets := [] }

/-! ## Time base (chapter 9) -/

/-- The time base: the counter and its fractional accumulator (R251), the rate adjustment and the servo's integral part
(R262), the state and flags of TM_STAT, the registers of R266, the SYNCs that await their FOLLOW_UPs (by sender: sequence,
stamp), the master's previous stamp, whether a sender is followed and whether hold_ms has passed without a valid
measurement (R261), the runs of R264, source 38's mark of this HOLDOVER, the last PPS edge on the counter's present
scale (R257), TIME_PPS_OUT with the seconds that have given a pulse, as closed intervals, and a pulse that is due (R258),
and the counter as it was before a step of this core cycle (R263). -/
structure Tm where
  now      : DWord
  frac     : Nat
  adj      : Int
  integ    : Int
  state    : Nat
  set      : Bool
  sender   : Nat
  steps    : Nat
  servo    : Word
  hold     : Word
  offset   : Word
  role     : Word
  syncMs   : Nat
  discards : Nat
  ppsCfg   : Word
  ppsAdj   : Word
  ppsIn    : DWord
  chAdj    : List (Nat × Word)
  txs      : List (Nat × DWord)
  txsTag   : List (Nat × Word)
  sync     : List (Nat × Nat × DWord × Int)
  prev     : Option DWord
  followed : Bool
  holdPast : Bool
  goodRun  : Nat
  badRun   : Nat
  told38   : Bool
  lastEdge : Option Int
  ppsOut   : Bool
  ppsDone  : List (Int × Int)
  ppsDue   : Bool
  preStep  : Option DWord
deriving DecidableEq, Repr

/-- Chapter 9's state at reset (R252, R266). -/
def Tm.reset : Tm :=
  { now := 0, frac := 0, adj := 0, integ := 0, state := 4, set := false, sender := 0, steps := 0,
    servo := 0x03E82831#32, hold := 0x003C01F4#32, offset := 0, role := 0, syncMs := 0x7D, discards := 0,
    ppsCfg := 0x00640000#32, ppsAdj := 0, ppsIn := 0, chAdj := [], txs := [], txsTag := [], sync := [],
    prev := none, followed := false, holdPast := false, goodRun := 0, badRun := 0, told38 := false,
    lastEdge := none, ppsOut := false, ppsDone := [], ppsDue := false,
    preStep := none }

/-! ## Benzon Domain Protocol (chapter 10) -/

/-- A BDP item waiting to be committed (R279): its channel, type, aux and payload words. -/
structure DueItem where
  ch    : Nat
  kind  : Nat
  aux   : Nat
  words : List Word
deriving DecidableEq, Repr

/-- A BDP item that has been committed and has not ended: its channel, cell 0, type, aux and first payload word. -/
structure OwnItem where
  ch   : Nat
  cell : Nat
  kind : Nat
  aux  : Nat
  word : Word
deriving DecidableEq, Repr

/-- The BDP: GL_BDP_CFG and GL_BDP_STAT (R286), the heartbeat count and the SYNC sequence of each channel (R272, R280),
waiting and committed items, the channels that owe an IDENTIFY_ANS (R281), and the echoes still to be committed (R282).
-/
structure Bdp where
  cfg       : Word
  rx        : Nat
  malformed : Nat
  hbSeq     : List (Nat × Nat)
  syncSeq   : List (Nat × Nat)
  due       : List DueItem
  own       : List OwnItem
  answers   : List Nat
  echoes    : List (Nat × Nat)
deriving DecidableEq, Repr

/-- Chapter 10's state at reset (R286). -/
def Bdp.reset : Bdp :=
  { cfg := 0x0FFF0010#32, rx := 0, malformed := 0, hbSeq := [], syncSeq := [], due := [], own := [], answers := [],
    echoes := [] }

/-! ## Chord (chapter 8) -/

/-- A route (R232): its four words (en and added in the first; tokens apart), whether its entry has a parity error, and
its counters (R250: forwarded, dropped, cut-through committed, cut-through aborts, then drops RATE, ISOLATED, FULL,
other). -/
structure Route where
  cfg    : Word
  ident  : Word
  xl     : Word
  rate   : Word
  tokens : Nat
  bad    : Bool
  cnt    : List (Nat × Nat)
deriving DecidableEq, Repr

/-- A route that does not exist (R232). -/
def Route.reset : Route := { cfg := 0, ident := 0, xl := 0, rate := 0, tokens := 0, bad := false, cnt := [] }

/-- A copy in a hold (R229): its lane, its cells and class, its route, the rewritten descriptor, whether it was popped
after its route was disabled (R243), whether it is kept under WAIT, and whether the hold has a parity error (R245). -/
structure Hold where
  lane     : Nat
  cells    : List Nat
  route    : Nat
  words    : List Word
  fail     : Option Nat
  disabled : Bool
  kept     : Bool
  bad      : Bool
deriving DecidableEq, Repr

/-- Chord: CD_CFG, CD_PERR, the routes, CD_CH_IN and lane_en (R246, R247), the holds, and cells whose return waits for
the channel's next pair (R230). -/
structure Cd where
  stallUs : Nat
  perr    : Word
  routes  : List (Nat × Route)
  chIn    : List (Nat × Word)
  laneEn  : List (Nat × Nat)
  holds   : List (Nat × Hold)
  rets    : List (Nat × List Nat)
deriving DecidableEq, Repr

/-- Chapter 8's state at reset (R232, R246, R247). -/
def Cd.reset : Cd :=
  { stallUs := 0x3E8, perr := 0, routes := [], chIn := [], laneEn := [], holds := [], rets := [] }

/-! ## Tangent (chapter 11) -/

/-- The states of a context (R292), numbered as TG_CTX_STAT reports them. -/
inductive CtxState where
  | unconfigured | disabled | enabled | disabling | failed
deriving DecidableEq, Repr

/-- A context: its 32 words (R290; entry k of the table, 0 where not listed), its state, the words with a stored error
(1 single, 2 double bit), its input latch (R297, R321), the full index of the last instant evaluated or skipped, the
instant that is due with the counter value at which it was detected and whether Tangent was frozen then (R314), a mode change waiting for the next evaluation
(R308), the frame that waits for its commit, and the ring of a TG_DISABLE in progress. -/
structure Ctx where
  words    : List (Nat × Word)
  state    : CtxState
  bad      : List (Nat × Nat)
  latch    : Word
  valid    : Bool
  updated  : Bool
  latchCh  : Nat
  lastK    : Int
  pendK    : Option (Int × DWord)
  pendFroz : Bool
  modeReq  : Option (Nat × Nat)
  frame    : Option TxItem
  ring     : Option Nat
deriving DecidableEq, Repr

/-- A context at reset (R292, R321). -/
def Ctx.reset : Ctx :=
  { words := [], state := .unconfigured, bad := [], latch := 0, valid := false, updated := false, latchCh := 0,
    lastK := 0, pendK := none, pendFroz := false, modeReq := none, frame := none, ring := none }

/-- Tangent: the contexts, those whose frames wait, oldest first (R312), the popped set-point item whose cells are not
yet returned, the next context of the set-point round-robin (R307), TG_OVR, TG_ECC and TG_LAG (R319). -/
structure Tg where
  ctxs    : List (Nat × Ctx)
  emitQ   : List Nat
  spCells : Option (List Nat)
  spNext  : Nat
  ovr     : Word
  ecc     : Word
  lagMax  : Nat
deriving DecidableEq, Repr

/-- Chapter 11's state at reset (R319). -/
def Tg.reset : Tg := { ctxs := [], emitQ := [], spCells := none, spNext := 0, ovr := 0, ecc := 0, lagMax := 0 }

/-! ## Duplex pairs and the Waltis Link (chapter 13) -/

/-- A packet of the Waltis Link (R349, R350): its type and payload words. -/
structure Packet where
  kind  : Nat
  words : List Word
deriving DecidableEq, Repr

/-- What the last HB packet said of the partner (R350): state, unit, worst latched class, claim. -/
structure Partner where
  state : Nat
  unit  : Nat
  worst : Nat
  claim : Nat
deriving DecidableEq, Repr

/-- A mirrored Tangent change held until its instant (R354, R355): context, op, parameter, the instant's index and the
rings whose commands it carries. -/
structure CtlChange where
  ctx   : Nat
  op    : Nat
  param : Word
  index : Nat
  ring  : Option Nat
deriving DecidableEq, Repr

/-- A sample record (R311): the instant's index, the eight words, the frame as built, in the form in which frames are
compared (R358), whether the store's parity has gone bad over it (R356), and of a record of the active's its words 26, 29, 30 and 31
after the instant (R363). -/
structure Rec where
  index  : Nat
  words  : List Word
  frame  : List Word
  bad    : Bool := false
  after  : List Word := []
deriving DecidableEq, Repr

/-- A frame the standby's Tangent built and has not yet seen on the bus (R358): the instant's index and the frame. -/
structure PendFrame where
  index : Nat
  frame : List Word
deriving DecidableEq, Repr

/-- A referee exchange (R360): context, instant, whether the standby is self-consistent (`none`: its replay is still to
come), and the active's answer (`none`: not here yet). -/
structure RefEx where
  ctx    : Nat
  index  : Nat
  selfOk : Option Bool
  answer : Option Bool
deriving DecidableEq, Repr

/-- Why the duplex controller asks Tangent for a replay (R311, R360, R363): for the standby's own verdict, for the
active's answer (with the frame the bus showed, none for MISSING), for resynchronisation with write-back. -/
inductive ReplayFor where
  | own
  | answer (shown : Option (List Word))
  | resync
deriving DecidableEq, Repr

/-- A replay that Tangent has still to do: the context, the record, and its purpose. -/
structure Replay where
  ctx  : Nat
  rcd  : Rec
  why  : ReplayFor
deriving DecidableEq, Repr

/-- An epoch being received (R365): its number, the next chunk index and the bytes so far; `bad`: a chunk was lost. -/
structure RxEpoch where
  number : Nat
  next   : Nat
  bytes  : List Byte
  bad    : Bool
deriving DecidableEq, Repr

/-- A planned swap (R375): whether this unit is the active that started it, the instant, whether ACK came, whether the
instant is past, and the ring of DX_SWAP. -/
structure Swap where
  mine    : Bool
  instant : DWord
  acked   : Bool
  passed  : Bool
  ring    : Option Nat
deriving DecidableEq, Repr

/-- The duplex controller (R378): configuration, claim in force and highest known, state (R344), the unit strap, link
and lanes, the transmitter's packet in progress, waiting packets, sequence and counts, silence after NOTICE (R372),
the partner, whether it has been heard since the start timer ran, the timers that run (start timer, R345; bus timer
lost, R352), changes held for their instants, the CTL
counts, the record store, pending frames, divergent contexts and those awaiting their REC after a commit (R363), the
referee exchange (as the standby; `refFor`: the context of one that this unit answers as the active), the parity of the
three snapshot buffers (R377), epochs (last sent, the COMMITs that wait for their last chunk, R364, the receive buffer, the committed buffer, consecutive discards), whether the next
snapshot is full (R367), a swap, the rings whose DX_RESYNC waits, and the replays asked of Tangent. -/
structure Dx where
  pairEn     : Bool
  noteCls    : Nat
  hbMiss     : Nat
  lkMiss     : Nat
  supMask    : Nat
  epoch10us  : Nat
  appLen     : Nat
  cmpUs      : Nat
  refTmo     : Nat
  appLo      : Word
  appHi      : Word
  appSerial  : Bool
  sendBad    : Bool
  bufBad     : Bool
  commitBad  : Bool
  claim      : Nat
  highest    : Nat
  state      : Nat
  unit       : Nat
  linkUp     : Bool
  lane0      : Bool
  lane1      : Bool
  txNow      : Option Packet
  txWait     : List Packet
  txSeq      : Nat
  hbCount    : Nat
  silent     : Bool
  partner    : Option Partner
  startRun   : Bool
  heard      : Bool
  busLost    : Bool
  lastCause  : Nat
  takeovers  : Nat
  crcErr     : Nat
  downs      : Nat
  held       : List CtlChange
  ctlSent    : Nat
  ctlMissed  : Bool
  recs       : List (Nat × List Rec)
  pend       : List (Nat × List PendFrame)
  divergent  : List Nat
  awaitRec   : List Nat
  mismatches : Nat
  lastCtx    : Nat
  lastKind   : Nat
  ref        : Option RefEx
  refFor     : Option Nat
  epochNo    : Nat
  commits    : List Packet
  rxEpoch    : Option RxEpoch
  committed  : Nat
  commitBuf  : List Byte
  discards   : Nat
  discRun    : Nat
  fullReq    : Bool
  swap       : Option Swap
  resync     : List Nat
  replays    : List Replay
deriving DecidableEq, Repr

/-- Chapter 13's state at reset (R378), with an empty retention. -/
def Dx.reset : Dx :=
  { pairEn := false, noteCls := 3, hbMiss := 3, lkMiss := 4, supMask := 0, epoch10us := 0x64, appLen := 0,
    cmpUs := 0x3E8, refTmo := 0x28, appLo := 0, appHi := 0, appSerial := false, sendBad := false, bufBad := false,
    commitBad := false, claim := 0, highest := 0, state := 0, unit := 0,
    linkUp := false, lane0 := false, lane1 := false, txNow := none, txWait := [], txSeq := 0, hbCount := 0,
    silent := false, partner := none, startRun := false, heard := false, busLost := false, lastCause := 0, takeovers := 0,
    crcErr := 0, downs := 0, held := [], ctlSent := 0, ctlMissed := false, recs := [], pend := [],
    divergent := [], awaitRec := [], mismatches := 0, lastCtx := 0, lastKind := 0, ref := none, refFor := none, epochNo := 0,
    commits := [], rxEpoch := none, committed := 0, commitBuf := [], discards := 0, discRun := 0,
    fullReq := false, swap := none, resync := [], replays := [] }

/-! ## Check units (chapter 12) -/

/-- A FEED_QUEUE job (R333): its ring, its queues and options, the items still to be taken, the results so far, a
popped item held under back-pressure with its cells and class, and whether the engines disagreed over it. -/
structure CkJob where
  ring     : Nat
  inQ      : Nat
  outQ     : Nat
  dropFail : Bool
  noSeq    : Bool
  left     : Nat
  passed   : Nat
  failed   : Nat
  hand     : Option (List Nat × Nat)
  eng      : Bool
deriving DecidableEq, Repr

/-- A check unit (R339): CK_CFG, CK_CFG2, CK_RUN, CK_CNT, the last result with its reason, the first recorded mismatch,
an engine fault, the mismatch count, the last sequence of each stream with its valid bits, the PASS count and a job in progress. -/
structure Unit' where
  cfg      : Word
  cfg2     : Word
  run      : Word
  cnt      : Nat
  last     : Nat
  reason   : Nat
  channel  : Nat
  misSeen  : Bool
  engSeen  : Bool
  mism     : Nat
  calcd    : Word
  carried  : Word
  lastId   : Word
  seqs     : List (Nat × Nat)
  seqV     : Nat
  passes   : Nat
  job      : Option CkJob
deriving DecidableEq, Repr

/-- A check unit at reset (R339: CK_CFG 0x0000_0080). -/
def Unit'.reset : Unit' :=
  { cfg := 0x80#32, cfg2 := 0, run := 0, cnt := 0, last := 0, reason := 0, channel := 0, misSeen := false,
    engSeen := false, mism := 0, calcd := 0, carried := 0, lastId := 0, seqs := [], seqV := 0, passes := 0,
    job := none }

/-! ## Power (chapter 15) -/

/-- The power modes between which R415 moves; DOZE is RUN with doze_en = 1. `true`: HIBERNATE is the target. -/
inductive PwMode where
  | run
  | entering (hib : Bool)
  | sleep
  | waking
  | hibernate
deriving DecidableEq, Repr

/-- A ballot of this device (R429): its channels, the channels that only follow at the commit (R434), window and delay,
cause (0 HOST, 1 AWAKE_TIME), auto, the channels whose frame of the present phase has ended SENT, and the rings of
PW_SLEEP_PREPARE and PW_SLEEP_COMMIT. -/
structure Ballot where
  chans  : List Nat
  extra  : List Nat
  window : Nat
  delay  : Nat
  cause  : Nat
  auto   : Bool
  sent   : List Nat
  ring   : Option Nat
  ring2  : Option Nat
deriving DecidableEq, Repr

/-- A local wake asked for while a group is committed (R422, R431): the channel, its target state, the source, and the ring of a
CH_SET_STATE that waits. -/
structure LocalReq where
  ch     : Nat
  trx    : Nat
  source : Nat
  ring   : Option Nat
deriving DecidableEq, Repr

/-- The wake controller (R437): power mode, doze_en, the initiator's ballot (state 0 to 3, number), participant
commitment, configuration words (app_codes apart), PW_WAKE, the awake timer, per channel PW_CH_WAKE, PW_CH_CONF, the
count of the false-wake window, whether that window is open and the long filter in force (R426), a wake awaiting
confirmation and the channels woken with it (R425), the wake latch (bits 0 to 15 channels, 16 HOST_PIN, 17 TIMER, 18
LOCAL; R422), the channels whose latch bit came from a frame, reasons held (HOST and application codes by command,
HOST and TRAFFIC by channel under R424, WAKE_INPUT with its origin and the channels it has been sent on; R427),
local wake requests, the channel whose false wake would return the device to SLEEP (R425), the number of the last
ballot if it lapsed (0: it did not), and the pins PWR_HOLD and VAO. -/
structure Pw where
  mode      : PwMode
  doze      : Bool
  ballot    : Nat
  ballotNo  : Nat
  bal       : Option Ballot
  committed : Bool
  cfg       : Word
  ballotReg : Word
  ballot2   : Word
  timer     : Word
  wake      : Word
  remaining : Nat
  awakeCyc  : Nat
  chWake    : List (Nat × Word)
  chConf    : List (Nat × Word)
  winCount  : List (Nat × Nat)
  winOpen   : List Nat
  filtLong  : List Nat
  confirm   : List (Nat × List Nat)
  latch     : Nat
  byFrame   : List Nat
  hostHeld  : Bool
  appCodes  : List Nat
  hostWake  : List Nat
  traffic   : List Nat
  wakeInput : List (Nat × List Nat)
  locals    : List LocalReq
  reenter   : Option Nat
  lapsed    : Nat
  pwrHold   : Bool
  vao       : Bool
deriving DecidableEq, Repr

/-- Chapter 15's state after VAO power-up (R413, R437). -/
def Pw.reset : Pw :=
  { mode := .run, doze := false, ballot := 0, ballotNo := 0, bal := none, committed := false, cfg := 0x02580000#32,
    ballotReg := 0x00140000#32, ballot2 := 0x01F4000A#32, timer := 0, wake := 0, remaining := 0x258, awakeCyc := 0, chWake := [],
    chConf := [], winCount := [], winOpen := [], filtLong := [], confirm := [], latch := 0, byFrame := [],
    hostHeld := false, appCodes := [], hostWake := [], traffic := [], wakeInput := [], locals := [],
    reenter := none, lapsed := 0, pwrHold := true, vao := true }

/-- The sequencer, the host interfaces and the channels' engines run: RUN or DOZE (R412, R416). -/
def Pw.awake (p : Pw) : Bool := p.mode == .run

/-- The core is powered and clocked: in RUN, and through an entry to SLEEP or HIBERNATE until its step 5 (R416). -/
def Pw.clocked (p : Pw) : Bool := match p.mode with | .run => true | .entering _ => true | _ => false

/-! ## Margin planner (chapter 17) -/

/-- A histogram record (R462): edge count, earliest and latest phase in milli-bit-times, the eight bins. -/
structure Hist where
  count : Nat
  eMin  : Int
  eMax  : Int
  bins  : List Nat
deriving DecidableEq, Repr

/-- A record without edges. -/
def Hist.reset : Hist := { count := 0, eMin := 0, eMax := 0, bins := [0, 0, 0, 0, 0, 0, 0, 0] }

/-- A planned step (R467): channel, item (0 FD sample point, 1 XL sample point, 2 FD and 3 XL tdc_offset), new value. -/
structure MpStep where
  ch    : Nat
  item  : Nat
  value : Nat
deriving DecidableEq, Repr

/-- The planner (R473): MP_CFG, MP_GUARD, MP_ENV, MP_RO0 to 7 and the channel registers; the records of the open and of
the last completed cycle (record of channel c, slot j (256: own loop), phase p at (257 c + j) 3 + p), loop delays of the
cycle (channel: smallest, largest, sum, count), senders seen (channel, address), planned steps, plans to be
restored (REVERT), items whose refusal was told, alarms that hold (kind, channel), and whether the record of the last completed cycle
waits for the planner's turn to be written (R32). -/
structure Mp where
  cfg     : Word
  guard   : Word
  env     : Word
  ros     : List (Nat × Word)
  chCfg   : List (Nat × Word)
  chLim   : List (Nat × Word)
  chStat  : List (Nat × Word)
  chRec   : List (Nat × Word)
  chDly   : List (Nat × Word)
  chPlan  : List (Nat × Word)
  cur     : List (Nat × Hist)
  last    : List (Nat × Hist)
  delays  : List (Nat × (Nat × Nat × Nat × Nat))
  senders : List (Nat × Nat)
  steps   : List MpStep
  reverts : List Nat
  told    : List (Nat × Nat)
  alarms  : List (Nat × Nat)
  toStore : Bool := false
deriving DecidableEq, Repr

/-- Chapter 17's state at reset (R473). -/
def Mp.reset : Mp :=
  { cfg := 0x003C0001#32, guard := 0x00003201#32, env := 0, ros := [], chCfg := [], chLim := [], chStat := [],
    chRec := [], chDly := [], chPlan := [], cur := [], last := [], delays := [], senders := [], steps := [],
    reverts := [], told := [], alarms := [] }

/-! ## Always-on retention (R420) -/

/-- The retained values: time base, claim, device address (when valid), VX_LAST3 and its detail, last ballot number,
false-wake counts, scratch words. -/
structure Ret where
  time      : DWord
  claim     : Nat
  devAddr   : Option Nat
  last3     : Word
  last3Info : Word
  ballotNo  : Nat
  fwCount   : List (Nat × Nat)
  scratch   : List (Nat × Word)
deriving DecidableEq, Repr

/-- The retention after VAO power-up (R440): cleared. -/
def Ret.reset : Ret :=
  { time := 0, claim := 0, devAddr := none, last3 := 0, last3Info := 0, ballotNo := 0, fwCount := [], scratch := [] }

/-! ## Reset and bring-up (chapter 16) -/

/-- The phases of bring-up (R443). B1 is not a period of its own: it names the reduced service, which begins with
`b2`. -/
inductive Phase where
  | b0 | b2 | b3 | service | failed
deriving DecidableEq, Repr

/-- An image commit, or the commit of R565 (`empty`): it waits for its Lattice commit (R452), then for the frames on the
wire of the reduced service (R448). The ring of its command (none: the flash commit of B3), the image, and the channels
that have still to take its settings. -/
structure CommitJob where
  ring  : Option Nat
  empty : Bool
  image : List Byte
  start : List Nat
deriving DecidableEq, Repr

/-- Bring-up: the phase; whether the ROM check has passed and the PLL has locked; whether a reset holds the device
(RESET_N low, a core supply below its threshold or VAO lost: R440, R551); the straps as sampled, and the levels at their pins
(R442; those of GPIO0 and GPIO1 are in `Gl.gpioPins`); GL_BOOT's
cause, flash copy and first failure, GL_BOOT_T with the core cycles since B1 (R457); the flash copy being read; the loaded image (R455); the image
identity committed (R449), the patch RAM (R452), GL_PROFILE (R485), console requests not yet answered (channel, payload word,
well formed; R448), and a commit in progress. -/
structure Boot where
  phase   : Phase
  rom     : Bool
  locked  : Bool
  porHeld : Bool
  rstHeld : Bool
  ioLow   : Bool
  serLow  : Bool
  straps  : Straps
  pins    : Straps
  cause   : Nat
  copy    : Nat
  reading : Nat
  reason  : Nat
  failSec : Nat
  bootUs  : Nat
  cycles  : Nat
  image   : Option (List Byte)
  imageId : Word
  patchRam : List Host.Cell
  profile : Bool
  fromImg : Bool
  console : List (Nat × Word × Bool)
  commit  : Option CommitJob
deriving DecidableEq, Repr

/-- Bring-up right after core power-on reset (R440, R443, R457, R485), with the straps all low (log entry 4). -/
def Boot.reset : Boot :=
  { phase := .b0, rom := false, locked := false, porHeld := false, rstHeld := false, ioLow := false, serLow := false,
    straps := { bootSel := 0, unitId := 0, b1Rate := 0, testMode := false },
    pins := { bootSel := 0, unitId := 0, b1Rate := 0, testMode := false }, cause := 0, copy := 0, reading := 0,
    reason := 0, failSec := 0, bootUs := 0, cycles := 0, image := none, imageId := 0, patchRam := [], profile := false,
    fromImg := false, console := [], commit := none }

/-- A reset holds the device (R440, R551): core power-on reset, or RESET_N. -/
def Boot.inReset (b : Boot) : Bool := b.porHeld || b.rstHeld

/-! ## The JTAG port (R546) -/

/-- The states of the TAP controller (IEEE 1149.1). -/
inductive TapState where
  | reset | idle | selectDr | captureDr | shiftDr | exit1Dr | pauseDr | exit2Dr | updateDr
  | selectIr | captureIr | shiftIr | exit1Ir | pauseIr | exit2Ir | updateIr
deriving DecidableEq, Repr

/-- The instructions of the TAP (R546). -/
inductive TapInstr where
  | bypass | idcode | samplePreload | extest
deriving DecidableEq, Repr

/-- The JTAG port: whether TRST_N is driven high (its pull-down holds it low while nothing drives it), the controller's state,
the instruction in force, the shift stages of the instruction and of the selected data register (next bit out first), and
the update stage of the boundary register. -/
structure Tap where
  trstHigh : Bool
  ctl      : TapState
  instr    : TapInstr
  ir       : List Bool
  dr       : List Bool
  bsr      : List Bool
deriving DecidableEq, Repr

/-- The port with nothing connected (R546): TRST_N low, and the instruction of a TAP in reset (log entry 121). -/
def Tap.reset : Tap := { trstHigh := false, ctl := .reset, instr := .idcode, ir := [], dr := [], bsr := [] }

/-! ## Outputs -/

/-- What leaves the device: host memory writes and MSI-X messages over PCI Express, register values returned, serial
answers, frames and flags on a bus, packets of the Waltis Link, and an item of a HOST_DMA queue drained into host memory
(at an address the manual does not give). -/
inductive Output where
  | hostWrite (addr : Nat) (bytes : List Byte)
  | msix (vector : Nat) (addr : DWord) (data : Word)
  | regRead (i : Iface) (off : Nat) (v : Word)
  | serialWords (words : List Word) (crc : Nat)
  | serialStatus (v : Nat)
  | busFrame (ch : Nat) (f : Frame)
  | busFlag (ch : Nat)
  | busAbort (ch : Nat)
  | linkPacket (words : List Word)
  | hostItem (q : Nat) (words : List Word)
deriving DecidableEq, Repr

/-! ## The machine -/

/-- The KF1664: the host side, the GL block, Vertex, the cell pool and queues, Lattice, the channels, the time base, the
BDP, Chord, Tangent, the duplex controller, the check units, power, the margin planner, retention, bring-up, the JTAG port,
the wheel's round (R32), the check units that their slots have served since every pending one was (R34). `outs` is what has left the device, newest first, `freeCtr` counts the values used that the manual
leaves open, and `pending` is the queue of the commands that wait, first in, first out: these three are the model's
own. -/
structure State where
  sq     : Sq
  gl     : Gl
  vx     : Vx
  pool   : Pool
  lat    : Lat
  chans  : List (Nat × Chan)
  tm     : Tm
  bdp    : Bdp
  cd     : Cd
  tg     : Tg
  dx     : Dx
  units  : List (Nat × Unit')
  pw     : Pw
  mp     : Mp
  ret    : Ret
  boot   : Boot
  tap    : Tap
  round  : Nat
  ckRound : List Nat
  outs   : List Output
  freeCtr : Nat
  pending : List Instr
deriving DecidableEq, Repr

/-- The machine right after core power-on reset with an empty retention: bring-up stands at B0 (R440, R443), every
register holds its Reset value (R8), nothing has left the device and no command waits. -/
def State.reset : State :=
  { sq := Sq.reset, gl := Gl.reset, vx := Vx.reset, pool := Pool.reset, lat := Lat.reset, chans := [], tm := Tm.reset,
    bdp := Bdp.reset, cd := Cd.reset, tg := Tg.reset, dx := Dx.reset, units := [], pw := Pw.reset, mp := Mp.reset,
    ret := Ret.reset, boot := Boot.reset, tap := Tap.reset, round := 0, ckRound := [],
    outs := [], freeCtr := 0, pending := [] }

/-- Why a command stops the machine with a fault. -/
inductive Fault where
  /-- An access through BAR2 names a byte beyond the 4 MiB of the cell pool, an address that R5 and R197 do not give the
  device. Raised by POOL_WINDOW_WRITE. Safe: no claim about the device follows from it. -/
  | poolAddress
deriving DecidableEq, Repr

/-- Why a command is refused. -/
inductive Refusal where
  /-- The command has no meaning in this model. Raised by the dispatch alone. Safe: nothing is claimed of it. -/
  | notModelled (mnemonic : String)
  /-- An access to the TS block with TESTMODE high: the manual reserves the block for factory test and says nothing of
  what it does (R5, R542). Raised by REGISTER_WRITE, LOW_WORD_READ, SERIAL_WRITE and SERIAL_READ. Safe: nothing is claimed
  of it. -/
  | testBlock
deriving DecidableEq, Repr

end Sys2Proof.Machine
end

