-- ==== Sys2Proof/Machine/Ops.lean ====
section
/-!
DEFINITION. The shared operations over the state: the entries of its tables, host memory in both interfaces, events,
interrupts, completions, and the counters.
-/
namespace Sys2Proof.Machine

/-! ## Entries of the tables -/

/-- Channel n. -/
def State.chan (s : State) (n : Nat) : Chan := mget Chan.reset s.chans n
/-- Changes channel n. -/
def State.modChan (s : State) (n : Nat) (f : Chan → Chan) : State := { s with chans := mset s.chans n (f (s.chan n)) }
/-- Queue q. -/
def State.queue (s : State) (q : Nat) : Queue := mget Queue.reset s.pool.queues q
/-- Changes the pool's state. -/
def State.modPool (s : State) (f : Pool → Pool) : State := { s with pool := f s.pool }
/-- Changes queue q. -/
def State.modQueue (s : State) (q : Nat) (f : Queue → Queue) : State :=
  { s with pool := { s.pool with queues := mset s.pool.queues q (f (s.queue q)) } }
/-- Gate g. -/
def State.gate (s : State) (g : Nat) : Gate := mget Gate.reset s.lat.gates g
/-- Changes gate g. -/
def State.modGate (s : State) (g : Nat) (f : Gate → Gate) : State :=
  { s with lat := { s.lat with gates := mset s.lat.gates g (f (s.gate g)) } }
/-- Changes Lattice's state. -/
def State.modLat (s : State) (f : Lat → Lat) : State := { s with lat := f s.lat }
/-- Changes the GL block. -/
def State.modGl (s : State) (f : Gl → Gl) : State := { s with gl := f s.gl }
/-- Changes the host side. -/
def State.modSq (s : State) (f : Sq → Sq) : State := { s with sq := f s.sq }
/-- Changes Vertex. -/
def State.modVx (s : State) (f : Vx → Vx) : State := { s with vx := f s.vx }
/-- Command ring r. -/
def State.cr (s : State) (r : Nat) : CmdRing := mget CmdRing.reset s.sq.crs r
/-- Changes command ring r. -/
def State.modCr (s : State) (r : Nat) (f : CmdRing → CmdRing) : State :=
  { s with sq := { s.sq with crs := mset s.sq.crs r (f (s.cr r)) } }
/-- Completion ring k (0 to 3), or the event ring (4). -/
def State.cq (s : State) (k : Nat) : CqRing := mget CqRing.reset s.sq.cqs k
/-- Changes completion ring k, or the event ring. -/
def State.modCq (s : State) (k : Nat) (f : CqRing → CqRing) : State :=
  { s with sq := { s.sq with cqs := mset s.sq.cqs k (f (s.cq k)) } }

/-- What leaves the device, newest first. -/
def State.emit (s : State) (o : Output) : State := { s with outs := o :: s.outs }

/-- The next free value's number: every use of a value the manual leaves open takes a fresh one. -/
def State.freshTick (s : State) : State := { s with freeCtr := s.freeCtr + 1 }

/-- The device is in service: the image commit of B3 has been made (R443). -/
def inService (s : State) : Bool := s.boot.phase == .service

/-- The reduced service serves channel n (R445, R447): channels 0 to 3 from B1 until the commit. -/
def reduced (s : State) (n : Nat) : Bool :=
  decide (n < 4) && (s.boot.phase == .b2 || s.boot.phase == .b3 || s.boot.phase == .failed)

/-- The strap pins have the given levels; GPIO0 and GPIO1 are two of them (R442). -/
def atStraps (x : Straps) (s : State) : State :=
  { s with boot := { s.boot with pins := x }, gl := { s.gl with gpioPins := s.gl.gpioPins / 4 * 4 + x.b1Rate.val } }

/-- The levels at the strap pins now. -/
def strapLevels (s : State) : Straps := { s.boot.pins with b1Rate := ⟨s.gl.gpioPins % 4, Nat.mod_lt _ (by decide)⟩ }

/-! ## Host memory (R494) -/

/-- The pool address of staging byte b (R493). -/
def stgAddr (s : State) (b : Nat) : Nat := (65536 - s.sq.stgCells + b / 60) * 64 + b % 60

/-- Writes one staging byte; beyond the staging held the write is ignored (R492). -/
def stgPut (s : State) (b : Nat) (v : Byte) : State :=
  if b < s.sq.stgCells * 60 then s.modPool fun p => { p with mem := memSet p.mem (stgAddr s b) v } else s

/-- Writes staging bytes from offset b on. -/
def stgWrite (s : State) (b : Nat) : List Byte → State
  | [] => s
  | v :: t => stgWrite (stgPut s b v) (b + 1) t

/-- One staging byte; beyond the staging held it reads 0 (R492). -/
def stgGet (s : State) (b : Nat) : Byte := if b < s.sq.stgCells * 60 then memGet s.pool.mem (stgAddr s b) else 0

/-- Reads n staging bytes from offset b on. -/
def stgRead (s : State) (b n : Nat) : List Byte := (List.range n).map fun i => stgGet s (b + i)

/-- A serial address with its `n` bytes lies within staging (R494). -/
def stgOk (s : State) (lo hi : Word) (n : Nat) : Bool :=
  decide (hi = 0#32) && decide (lo.toNat + n ≤ s.sq.stgCells * 60) && decide (lo.toNat < s.sq.stgCells * 60)

/-- Writes bytes to host memory of the interface: staging cells, or a posted write over PCI Express. -/
def hostPut (serial : Bool) (addr : Nat) (bytes : List Byte) (s : State) : State :=
  if serial then stgWrite s addr bytes else s.emit (.hostWrite addr bytes)

/-! ## Interrupts (R511 to R513) -/

/-- Word k of MSI-X table entry v (R486): the vector control word is 1 at reset. -/
def msixWord (s : State) (v k : Nat) : Word := mget (if k = 3 then 1#32 else 0#32) s.sq.msix (4 * v + k)

/-- Sends the MSI-X message of vector v, or marks it pending while its vector control or the function mask holds it back (R511). -/
def msixSend (v : Nat) (s : State) : State :=
  if s.sq.ep.msixMask || bitOf (msixWord s v 3) 0 then s.modSq fun q => { q with msixPend := putBit64 q.msixPend v true }
  else s.emit (.msix v (join64 (msixWord s v 0) (msixWord s v 1)) (msixWord s v 2))

/-- Signals vector v on an interface (R511): an MSI-X message, or a bit of SQ_IRQ_PEND. -/
def signal (serial : Bool) (v : Nat) (s : State) : State :=
  if serial then s.modSq fun q => { q with irqPend := putBit64 q.irqPend v true } else msixSend v s

/-- HS_IRQ_N is driven low (R512). -/
def irqLow (s : State) : Bool := s.sq.irqPend &&& s.sq.irqMask != 0#64

/-! ## Completion rings and the event ring (R498, R502, R511) -/

/-- The ring has an entry free: running, and not full (R498). -/
def cqRoom (c : CqRing) : Bool := c.state == .running && (c.tail + 1) % 2 ^ c.log2 != c.head

/-- The base address of a ring. -/
def baseOf (lo hi : Word) : Nat := lo.toNat + (hi.toNat <<< 32)

/-- The next entry of completion ring k, or of the event ring, lies in host memory: over the serial port within the staging held
(R500). -/
def cqEntryOk (s : State) (k : Nat) : Bool :=
  let c := s.cq k
  !c.serial || decide (baseOf c.baseLo c.baseHi + 16 * c.tail + 16 ≤ s.sq.stgCells * 60)

/-- Signals the ring's vector and starts its count again (R511). -/
def cqSignal (k : Nat) (s : State) : State :=
  signal (s.cq k).serial (s.cq k).vector (s.modCq k fun c => { c with unsig := 0 })

/-- Writes one 16-byte entry at the tail; `ph` is the word that carries the phase in bit 31 (R504, R508). Signals at
once when the entries since the last signal reach coal_n or coal_us is 0 (R511). -/
def cqWrite (k ph : Nat) (ws : List Word) (s : State) : State :=
  let c := s.cq k
  let w : List Word := (List.range 4).map fun i =>
    if i = ph then putFld (wd ws i) 31 1 (b1 c.phase) else wd ws i
  let s := hostPut c.serial (baseOf c.baseLo c.baseHi + 16 * c.tail) (bytesOfWords w) s
  let wrap := c.tail + 1 == 2 ^ c.log2
  let s := s.modCq k fun c => { c with tail := (c.tail + 1) % 2 ^ c.log2,
                                       phase := if wrap then !c.phase else c.phase, unsig := c.unsig + 1 }
  if (Nat.max 1 c.coalN) ≤ c.unsig + 1 || c.coalUs == 0 then cqSignal k s else s

/-! ## Events (R508 to R510) -/

/-- The lowest free position of width w (a multiple of w) in a 64-bit detail whose used bits are `m` (R509). -/
def evSlot (m w : Nat) : Nat :=
  ((List.range (64 / w)).find? fun i => (m >>> (i * w)) % 2 ^ w == 0).getD 0 * w

/-- The detail of an event: each item (width, value) at the lowest free multiple of its width (R509). -/
def evDetail : Nat → Nat → List (Nat × Nat) → Nat
  | _, acc, [] => acc
  | m, acc, (w, v) :: t =>
    let p := evSlot m w
    evDetail (m ||| ((2 ^ w - 1) <<< p)) (acc ||| ((v % 2 ^ w) <<< p)) t

/-- The code is masked in SQ_EV_MASK (R510). -/
def evMasked (s : State) (code : Nat) : Bool := bitOf (mget 0#32 s.sq.evMask (code / 32)) (code % 32)

/-- Writes an event entry and lists it as unconsumed under its key. -/
def evWrite (code key : Nat) (items : List (Nat × Nat)) (s : State) : State :=
  let d := evDetail 0 0 items
  let s := cqWrite 4 0 [w32 code, w32 d, w32 (d >>> 32), lo32 s.tm.now] s
  s.modSq fun q => { q with evOut := q.evOut ++ [key] }

/-- An event is lost (R510). -/
def evLose (s : State) : State :=
  s.modSq fun q => { q with evLost := satInc 0xFFFF q.evLost, lostSince := q.lostSince + 1 }

/-- The event ring is HALTED since its next entry lies beyond staging (R500); its 0x01 SQ_RING_HALT finds a ring that is not
RUNNING (R510). -/
def evHalt (s : State) : State :=
  let s := s.modCq 4 fun c => { c with state := .halted }
  if evMasked s 1 then s else evLose s

/-- Handles a raised event (R510): masked, lost, or written. -/
def evRaise (code key : Nat) (items : List (Nat × Nat)) (s : State) : State :=
  if evMasked s code then s
  else if cqRoom (s.cq 4) then (if cqEntryOk s 4 then evWrite code key items s else evLose (evHalt s))
  else evLose s

/-- Raises event `code` about instance `inst`, unless the previous one of that code and instance is still unconsumed
(R79, R159, R203, R411, R522 and their counterparts). -/
def raise (code inst : Nat) (items : List (Nat × Nat)) (s : State) : State :=
  let key := code * 2 ^ 32 + inst
  if s.sq.evOut.contains key then s else evRaise code key items s

/-- When the event ring has room again, 0x02 SQ_EV_LOST reports the count lost since the previous one (R510). -/
def evLostFlush (s : State) : State :=
  if s.sq.lostSince = 0 then s
  else if evMasked s 2 then s.modSq fun q => { q with lostSince := 0 }
  else if cqRoom (s.cq 4) && !cqEntryOk s 4 then evHalt s
  else if cqRoom (s.cq 4) then
    let n := s.sq.lostSince
    evWrite 2 (2 * 2 ^ 32) [(16, n)] (s.modSq fun q => { q with lostSince := 0 })
  else s

/-! ## Commands in progress (R499 to R507) -/

/-- The packet word i of the command of ring r. -/
def pkt (s : State) (r i : Nat) : Word :=
  match (s.cr r).cmd with
  | some c => wd c.words i
  | none => 0#32

/-- Changes the command that ring r has in progress. -/
def State.modCmd (s : State) (r : Nat) (f : Cmd → Cmd) : State :=
  s.modCr r fun c => { c with cmd := c.cmd.map f }

/-- The command of ring r has begun and has not reached its completion point. -/
def inProgress (s : State) (r : Nat) : Bool :=
  match (s.cr r).cmd with
  | some c => c.begun && c.comp.isNone
  | none => false

/-- The completion point of ring r's command: status and result words are kept for the completion entry, and the
command counts as completed (R504, R516). -/
def complete (r st : Nat) (r0 r1 : Word) (s : State) : State :=
  if inProgress s r then
    (s.modCr r fun c => { c with done := wrapInc c.done }).modCmd r fun c =>
      { c with dma := false, sub := none, comp := some { status := st, r0 := r0, r1 := r1 }, arr := s.pool.nextSeq }
  else s

/-- The rings whose command in progress has opcode `op` and satisfies `p` of its packet words. -/
def waiting (s : State) (op : Nat) (p : List Word → Bool) : List Nat :=
  (List.range 4).filter fun r =>
    inProgress s r && (match (s.cr r).cmd with
      | some c => fld (wd c.words 0) 0 8 == op && p c.words
      | none => false)

/-- Completes the command of each ring in the list. -/
def completeAll (rs : List Nat) (st : Nat) (r0 r1 : Word) (s : State) : State :=
  rs.foldl (fun s r => complete r st r0 r1 s) s

/-! ## Counters of a channel (R520) -/

/-- Adds k to the channel counter at block offset `off`, saturating at 0xFFFF_FFFF (R520). -/
def bumpBy (n off k : Nat) (s : State) : State :=
  s.modChan n fun c => { c with cnt := mset c.cnt off (Nat.min 0xFFFFFFFF (mget 0 c.cnt off + k)) }

/-- Adds 1 to the channel counter at block offset `off`. -/
def bump (n off : Nat) (s : State) : State := bumpBy n off 1 s

/-- The block offset of the counter of the channel's event `code` (R520). -/
def evCounter (code : Nat) : Nat :=
  if code = 0x0C then 0x64 else if code = 0x0D then 0x68
  else if code < 0x40 then 0x6C + 4 * (code - 0x10) else 0x9C + 4 * (code - 0x40)

/-- Raises an event of channel n: its counter counts every occurrence, the event is not repeated before it is consumed
(R79). The channel is the first item (R509). -/
def chEvent (code n : Nat) (items : List (Nat × Nat)) (s : State) : State :=
  raise code n ((8, n) :: items) (bump n (evCounter code) s)

/-! ## Keep-awake reasons (R427) -/

/-- A Tangent context is ENABLED in AUTO. -/
def loopHeld (s : State) : Bool :=
  s.tg.ctxs.any fun e => e.2.state == .enabled && bitOf (mget 0#32 e.2.words 26) 4

/-- The unit is ACTIVE and its partner is in PAIRING or STANDBY_SYNC. -/
def resyncHeld (s : State) : Bool :=
  s.dx.state == 2 && (match s.dx.partner with | some p => p.state == 1 || p.state == 3 | none => false)

/-- The least element of a list of numbers. -/
def leastOf : List Nat → Option Nat
  | [] => none
  | a :: t => match leastOf t with | some b => some (Nat.min a b) | none => some a

/-- The channels on which a KEEP_AWAKE with WAKE_INPUT has still to end SENT, of those of ballot_mask with bdp_en = 1. -/
def wakePending (s : State) (sent : List Nat) : List Nat :=
  (List.range 16).filter fun n => bitOf s.pw.ballotReg n && bitOf (s.chan n).bdpCfg 0 && !sent.contains n

/-- The own reasons held, as (code, channel where it arose), in rising order of code up to the first APPLICATION code. -/
def reasonsHeld (s : State) : List (Nat × Nat) :=
  (match s.pw.wakeInput.find? fun e => !(wakePending s e.2).isEmpty with | some (n, _) => [(1, n)] | none => [])
  ++ (if s.pw.hostHeld then [(2, 0)] else match s.pw.hostWake with | n :: _ => [(2, n)] | [] => [])
  ++ (if loopHeld s then [(3, 0)] else [])
  ++ (match s.pw.traffic with | n :: _ => [(4, n)] | [] => [])
  ++ (if resyncHeld s then [(5, 0)] else [])
  ++ (match leastOf s.pw.appCodes with | some a => [(a, 0)] | none => [])

end Sys2Proof.Machine
end

