-- ==== Sys2Proof/Machine/Operands.lean ====
section
/-!
DEFINITION. The operand forms: descriptors of items (R163 to R166), formats and lengths (R43, R44), the fields of a
frame as descriptor words (R46), the picker's key (R210), cells of an item (R161, R162), addresses in command packets.
-/
namespace Sys2Proof.Machine

/-! ## Frames -/

/-- The format number of R164 that a frame's bits give: a trunk frame has its inner format (R65, R68). -/
def busFormat (f : Frame) : Nat :=
  match f.fmt with
  | .cc => 0
  | .fd => 1
  | .xl => 2
  | .trunk => f.tfmt.val

/-- The identifier as descriptor word 1 [28:0] holds it: base identifiers in [10:0] (R163). -/
def identOf (f : Frame) : Nat := if f.ide then f.ident.toNat else f.ident.toNat % 2048

/-- A frame carries a whole identifier-format match key: a Classical CAN remote frame has no payload (R43). -/
def remoteFrame (f : Frame) (fmt : Nat) (bdpFd : Bool) : Bool := f.rtr && (fmt == 0 || (fmt == 3 && !bdpFd))

/-- bdp_fd of a received frame of format 3 (R163): it came as CAN FD, or in a trunk frame with more bytes than a Classical CAN frame can
hold (DESIGN CHOICE, log entry 154). -/
def bdpFd (f : Frame) : Bool := f.fmt == .fd || (f.fmt == .trunk && decide (8 < f.data.length))

/-- The payload bytes a received frame delivers: at most 8 for Classical CAN, 64 for CAN FD, 2 048 otherwise (R43). -/
def rxData (f : Frame) (fmt : Nat) (bdpFd : Bool) : List Byte :=
  if remoteFrame f fmt bdpFd then []
  else if fmt == 0 || (fmt == 3 && !bdpFd) then f.data.take 8
  else if fmt == 1 || fmt == 3 then f.data.take 64
  else f.data.take 2048

/-- The payload-length field of a received descriptor (R43). -/
def rxLength (f : Frame) (fmt : Nat) (bdpFd : Bool) : Nat :=
  if remoteFrame f fmt bdpFd then f.dlc % 16 else (rxData f fmt bdpFd).length

/-- Descriptor words 1 to 3 of a received frame (R46, R48, R68): fields that the format lacks are 0. -/
def rxWord1 (f : Frame) : Word := packW [(0, 29, identOf f), (30, 1, b1 f.rtr), (31, 1, b1 f.ide)]
/-- See `rxWord1`. -/
def rxWord2 (f : Frame) (fmt : Nat) (bdpFd : Bool) : Word :=
  packW [(0, 8, if fmt = 2 then f.sdt.toNat else 0), (8, 8, if fmt = 2 then f.vcid.toNat else 0),
    (16, 1, if fmt = 2 then b1 f.sec else 0), (17, 1, if fmt = 1 ∨ (fmt = 3 ∧ f.fmt = .fd) then b1 f.brs else 0),
    (18, 1, if fmt = 1 ∨ (fmt = 3 ∧ f.fmt = .fd) then b1 f.esi else 0), (19, 1, if fmt = 3 then b1 bdpFd else 0)]
/-- See `rxWord1`. -/
def rxWord3 (f : Frame) (fmt : Nat) : Word := if fmt = 2 then f.af else 0#32

/-! ## Lengths -/

/-- The lengths that have a CAN FD data length code (R44). -/
def fdLengths : List Nat := [0, 1, 2, 3, 4, 5, 6, 7, 8, 12, 16, 20, 24, 32, 48, 64]

/-- The length a CAN FD frame is sent with: the next larger one that has a code (R44). -/
def fdPadded (n : Nat) : Nat := (fdLengths.find? (fun l => n ≤ l)).getD 64

/-- The cells of an item of n payload bytes (R162). -/
def cellsFor (n : Nat) : Nat := if n ≤ 28 then 1 else 1 + (n - 28 + 59) / 60

/-! ## Descriptors of items -/

/-- Format field of descriptor word 0 (R163). -/
def dFormat (w0 : Word) : Nat := fld w0 28 3
/-- Class field of descriptor word 0. -/
def dClass (w0 : Word) : Nat := fld w0 20 4
/-- Length field of descriptor word 0. -/
def dLength (w0 : Word) : Nat := fld w0 0 16

/-- An item is a Classical CAN remote frame: format CC, or BDP sent as Classical CAN, with RTR (R43, R44). -/
def dRemote (w0 w1 w2 : Word) : Bool :=
  bitOf w1 30 && (dFormat w0 == 0 || (dFormat w0 == 3 && !bitOf w2 19))

/-- The length that R44 refuses for the item's format; an item of format 3 is judged as word 2 [19] selects. -/
def lengthBad (w0 w1 w2 : Word) : Bool :=
  let n := dLength w0
  if dRemote w0 w1 w2 then decide (15 < n)
  else if dFormat w0 == 0 || (dFormat w0 == 3 && !bitOf w2 19) then decide (8 < n)
  else if dFormat w0 == 1 || dFormat w0 == 3 then decide (64 < n)
  else decide (n = 0) || decide (2048 < n)

/-- The payload bytes that the item carries: none for a remote frame (R43). -/
def dBytes (w0 w1 w2 : Word) : Nat := if dRemote w0 w1 w2 then 0 else dLength w0

/-- The picker's key of a candidate (R210), from descriptor words 0 and 1; a CAN XL item is always base format (R46). -/
def pickKey (w0 w1 : Word) : Nat :=
  let rtr := if dFormat w0 == 0 || dFormat w0 == 3 then fld w1 30 1 else 0
  if bitOf w1 31 && dFormat w0 != 2 then
    (fld w1 18 11) <<< 21 ||| 1 <<< 20 ||| 1 <<< 19 ||| (fld w1 0 18) <<< 1 ||| rtr
  else (fld w1 0 11) <<< 21 ||| rtr <<< 20

/-- single_shot of word 6 (R205). -/
def itSingle (i : TxItem) : Bool := bitOf (wd i.words 6) 0
/-- stamp_claim of word 6 (R205). -/
def itStamp (i : TxItem) : Bool := bitOf (wd i.words 6) 1
/-- report of word 6 (R205). -/
def itReport (i : TxItem) : Bool := bitOf (wd i.words 6) 2
/-- tag of word 6 (R205). -/
def itTag (i : TxItem) : Nat := fld (wd i.words 6) 16 16
/-- Identifier with IDE, as events carry it (R509): [28:0] identifier, [31] IDE. -/
def itIdent (i : TxItem) : Nat :=
  fld (wd i.words 1) 0 29 + (if bitOf (wd i.words 1) 31 then 2 ^ 31 else 0)

/-- The bytes of cell k of an item with the given descriptor words and payload (R161): 60 data bytes, zeros past the
last payload byte. -/
def cellBytes (words : List Word) (data : List Byte) (k : Nat) : List Byte :=
  if k = 0 then bytesOfWords ((List.range 8).map (wd words)) ++ (List.range 28).map (byteAt data)
  else (List.range 60).map fun i => byteAt data (28 + 60 * (k - 1) + i)

/-! ## Command packets (R503) -/

/-- Opcode of a packet. -/
def pOpcode (ws : List Word) : Nat := fld (wd ws 0) 0 8
/-- Flags [10:8] of a packet. -/
def pFlags (ws : List Word) : Nat := fld (wd ws 0) 8 3
/-- Fence of a packet. -/
def pFence (ws : List Word) : Bool := bitOf (wd ws 0) 15
/-- Tag of a packet. -/
def pTag (ws : List Word) : Nat := fld (wd ws 0) 16 16

end Sys2Proof.Machine
end

