-- ==== Sys2Proof/Machine/Cells.lean ====
section
/-!
DEFINITION. The cell pool and the queues (chapter 6): free cells, budgets and back-pressure, items and class order,
commits, pops, flush boundaries, link words.
-/
namespace Sys2Proof.Machine

/-! ## Slots (R24, R25, R35) -/

/-- The owners of slots (R25). -/
inductive SlotOwner where
  | channel (n : Nat)
  | chord
  | tangent
  | hostDma
  | check
  | duplex
  | housekeeping
deriving DecidableEq, Repr

/-- The owner of slot k (R25). -/
def slotOwner (k : Nat) : SlotOwner :=
  if k = 47 then .housekeeping
  else if k = 23 then .duplex
  else if k % 3 ≠ 2 then .channel (2 * (k % 24 / 3) + k % 3)
  else if k % 12 = 2 then .chord
  else if k % 12 = 5 then .tangent
  else if k % 12 = 8 then .hostDma
  else .check

/-- A channel's slots (R25): the receive slot, and the transmit slot 24 later. -/
def chanSlot (n : Nat) (second : Bool) : Nat := 3 * (n / 2) + n % 2 + (if second then 24 else 0)

/-- The disturbed transfer that one of these slots carries next, if there is one: slot and lane. -/
def slotBadAt (s : State) (p : Nat → Bool) : Option (Nat × Bool) := s.gl.slotBad.find? fun e => p e.1

/-- The disturbed transfer that a slot of this owner carries next, if there is one: slot and lane. -/
def slotBad (s : State) (o : SlotOwner) : Option (Nat × Bool) := slotBadAt s fun k => decide (slotOwner k = o)

/-- The list without its first entry for one of these slots. -/
def dropSlot (p : Nat → Bool) : List (Nat × Bool) → List (Nat × Bool)
  | [] => []
  | e :: t => if p e.1 then t else e :: dropSlot p t

/-! ## Cells -/

/-- Cells on the free list (R172, R199): neither charged to a queue nor taken for staging (R493). -/
def freeCount (s : State) : Nat := 65536 - s.sq.stgCells - s.pool.owner.length

/-- Cells charged to queue q (R171). -/
def occupancy (s : State) (q : Nat) : Nat := (s.pool.owner.filter fun e => e.2 == q).length

/-- The reserve (R172): the sum over the existing queues of max(0, min - occupancy). -/
def reserve (s : State) : Nat :=
  s.pool.queues.foldl (fun a e => a + (if e.2.state == .none then 0 else e.2.min - occupancy s e.1)) 0

/-- The k-th free cell at or after `base`, given the charged cells in rising order. -/
def nthFree : List (Nat × Nat) → Nat → Nat → Nat
  | [], base, k => base + k
  | (c, _) :: t, base, k => if k < c - base then base + k else nthFree t (c + 1) (k - (c - base))

/-- The cell that an allocation takes: which free cell it is, the manual does not say, so the command that allocates
names it by its place among the free cells (log entry 10). -/
def freeCell (s : State) (pick : Nat) : Nat := nthFree s.pool.owner 0 (pick % Nat.max 1 (freeCount s))

/-- The test of R172: the first cell of an item is admitted below max; then the queue's own reserve, then the shared
cells. `back` cells of queue `from'` count as returned first (a recharge, R179). -/
def allocOk (s : State) (q : Nat) (first : Bool) : Bool :=
  let qu := s.queue q
  let occ := occupancy s q
  if first && decide (qu.max ≤ occ) then false
  else if occ < qu.min then true
  else decide (reserve s < freeCount s)

/-- The refusal comes from max (R172, R203). -/
def refusedByMax (s : State) (q : Nat) (first : Bool) : Bool := first && decide ((s.queue q).max ≤ occupancy s q)

/-- Occupancy below max ends the run of refusals that 0x31 Q_FULL reports (R203). -/
def fullRearm (q : Nat) (s : State) : State :=
  if occupancy s q < (s.queue q).max then s.modQueue q fun u => { u with fullTold := false } else s

/-- 0x32 Q_POOL_LOW when free - reserve falls below low_water; raised again only after it has risen (R203). -/
def poolLow (s : State) : State :=
  if freeCount s - reserve s < s.pool.lowWater then
    if s.pool.lowTold then s
    else raise 0x32 0xFF [(8, 0xFF)] (s.modPool fun p => { p with lowTold := true })
  else s.modPool fun p => { p with lowTold := false }

/-- A refused allocation is back-pressure (R176, R198, R203). -/
def refuse (q : Nat) (byMax : Bool) (s : State) : State :=
  let told := (s.queue q).fullTold
  let s := s.modQueue q fun u => { u with full := true, bpSeen := true, bpCount := Nat.min 0xFFFFFFFF (u.bpCount + 1),
                                          fullTold := u.fullTold || byMax }
  if byMax && !told then raise 0x31 q [(8, q)] s else s

/-- The link entry of cell c is written: a parity error in it, found or not, is gone (R167). -/
def relink (c : Nat) (s : State) : State :=
  s.modPool fun p => { p with linkBad := p.linkBad.filter (· != c), linkMark := p.linkMark.filter (· != c) }

/-- The link entry of the last of these cells is written: a further cell or a further item follows it (R167). -/
def relinkLast (cs : List Nat) (s : State) : State :=
  match cs.getLast? with
  | some c => relink c s
  | none => s

/-- Charges cell c to queue q, whose link entry is written (R167); the test of 0x32 Q_POOL_LOW is left to the caller. -/
def chargeOne (c q : Nat) (s : State) : State :=
  let s := relink c (s.modPool fun p => { p with owner := mset p.owner c q })
  s.modQueue q fun u => { u with full := false, hwm := Nat.max u.hwm (occupancy s q) }

/-- Charges cell c to queue q; the write of its link entry clears a parity mark (R167). -/
def charge (c q : Nat) (s : State) : State := poolLow (chargeOne c q s)

/-- A BDP item of this device in these cells has ended. -/
def ownEnded (cs : List Nat) (s : State) : State :=
  { s with bdp := { s.bdp with own := s.bdp.own.filter (fun o => !cs.contains o.cell) } }

/-- Returns cells to the free list (R167, R171, R203); a BDP item of this device whose cells return has ended. -/
def freeCells (cs : List Nat) (s : State) : State :=
  let qs := cs.map fun c => mget 0 s.pool.owner c
  let s := s.modPool fun p => { p with owner := p.owner.filter (fun e => !cs.contains e.1),
                                       linkBad := p.linkBad.filter (!cs.contains ·),
                                       linkMark := p.linkMark.filter (!cs.contains ·) }
  let s := ownEnded cs s
  poolLow (qs.foldl (fun s q => fullRearm q s) s)

/-- Word k of cell c, words 0 to 14 (R161, R197). -/
def poolWord (s : State) (c k : Nat) : Word := wordAt (memRead s.pool.mem (64 * c + 4 * k) 4) 0

/-- Writes words 0 to 14 of cell c (60 bytes). -/
def writeCell (c : Nat) (bytes : List Byte) (s : State) : State :=
  s.modPool fun p => { p with mem := memWrite p.mem (64 * c) (bytes.take 60) }

/-- The descriptor and the payload that the pool holds in an item's cells (R161, R196): the length is the one the
descriptor says now. -/
def readItem (s : State) (cells : List Nat) : TxItem :=
  let c0 := cells.headD 0
  let words := (List.range 8).map (poolWord s c0)
  let raw := memRead s.pool.mem (64 * c0 + 32) 28 ++ (cells.drop 1).flatMap fun c => memRead s.pool.mem (64 * c) 60
  let n := dBytes (wd words 0) (wd words 1) (wd words 2)
  { words := words, data := (List.range (Nat.min n 2048)).map (byteAt raw) }

/-! ## Lists and class order (R170) -/

/-- The head among items in commit order: the oldest of the lowest class (R170). -/
def headOf : List Item → Option Item
  | [] => none
  | i :: t =>
    match headOf t with
    | none => some i
    | some j => if j.cls < i.cls then some j else some i

/-- Cell 0 of an item names it. -/
def itemId (i : Item) : Nat := i.cells.headD 0

/-- The item of queue q whose cell 0 is c. -/
def findItem (s : State) (q c : Nat) : Option Item := (s.queue q).items.find? fun i => itemId i == c

/-- Queue q exists. -/
def queueExists (s : State) (q : Nat) : Bool := (s.queue q).state != .none

/-- The head that queue q shows: the locked item while a window lock is held (R182), else R170's. A BROKEN queue lists
no items (R195). -/
def headItem (s : State) (q : Nat) : Option Item :=
  match (s.queue q).lock with
  | some c => findItem s q c
  | none => headOf (s.queue q).items

/-- Takes the item with cell 0 `c` out of the lists of queue q. -/
def unlink (q c : Nat) (s : State) : State :=
  s.modQueue q fun u => { u with items := u.items.filter fun i => itemId i != c }

/-- An engine-class pop (R178): the head leaves the lists; its cells stay charged (R179). -/
def popItem (q : Nat) (i : Item) (s : State) : State :=
  (unlink q (itemId i) s).modQueue q fun u => { u with itemsOut := wrapInc u.itemsOut }

/-- Links an item behind its class list (R170); a BROKEN queue discards it (R195). Depth rising from 0 raises 0x30
Q_NONEMPTY on a queue with notify = 1 (R203). -/
def linkItem (q : Nat) (i : Item) (s : State) : State :=
  let u := s.queue q
  if u.state == .broken then
    freeCells i.cells (s.modQueue q fun u => { u with itemsDisc := wrapInc u.itemsDisc })
  else
    let s := relinkLast ((u.items.filter fun j => j.cls == i.cls).flatMap (·.cells)) s
    let s := s.modQueue q fun u => { u with items := u.items ++ [i], itemsIn := wrapInc u.itemsIn }
    if u.items.isEmpty && u.notify then raise 0x30 q [(8, q)] s else s

/-! ## Flush boundaries (R187, R190) -/

/-- A chain of a received frame that a flush of queue q has marked. -/
def chainMarked (q : Nat) (f : RxFrame) : Bool := f.chains.any fun c => c.marked && c.queue == q

/-- Some item of queue q that a flush has marked has not reached its boundary yet. -/
def markedLeft (s : State) (q : Nat) : Bool :=
  (s.chans.any fun e => (e.2.rx.toList ++ e.2.staged ++ e.2.commits).any (chainMarked q))
  || (s.sq.crs.any fun e => match e.2.cmd with
      | some c => (match c.sub with | some b => b.marked && b.queue == q | none => false)
      | none => false)

/-- A flush whose last marked item has reached its boundary completes (R190). -/
def flushCheck (q : Nat) (s : State) : State :=
  match (s.queue q).flush with
  | some f =>
    if !f.repair && !markedLeft s q then
      complete f.ring 0x00 (w32 f.items) (w32 f.cells)
        (s.modQueue q fun u => { u with state := .opened, flush := none })
    else s
  | none => s

/-- Counts an item and its cells in the flush of queue q that is in progress (R190), and in QM_Q_DISC. -/
def flushCount (q n : Nat) (s : State) : State :=
  s.modQueue q fun u => { u with
    itemsDisc := wrapInc u.itemsDisc
    flush := u.flush.map fun f => { f with items := f.items + 1, cells := f.cells + n } }

/-- A marked item reaches its boundary: it is discarded instead of being linked (R187). The caller has taken it out
of its producer. -/
def discardMarked (q : Nat) (cells : List Nat) (s : State) : State :=
  flushCheck q (freeCells cells (flushCount q cells.length s))

/-! ## Link words (R167) -/

/-- The cell runs of items that are in no list: frames being written, items that consumers hold (R179), host
submissions. -/
def looseRuns (s : State) : List (List Nat) :=
  s.chans.flatMap (fun e =>
    (e.2.rx.toList ++ e.2.staged ++ e.2.commits).flatMap (fun f => f.chains.map (·.cells))
    ++ e.2.taken.map (fun t => t.2.cells) ++ e.2.rets.map (fun c => [c]))
  ++ s.sq.crs.filterMap (fun e => match e.2.cmd with
      | some c => c.sub.map (·.cells)
      | none => none)
  ++ s.cd.holds.map (fun h => h.2.cells) ++ s.cd.rets.map (fun r => r.2) ++ s.tg.spCells.toList
  ++ s.units.filterMap (fun u => match u.2.job with
      | some j => j.hand.map (·.1)
      | none => none)

/-- The cell after c in a run, if c is in it and not last. -/
def nextIn (c : Nat) : List Nat → Option Nat
  | a :: b :: t => if a = c then some b else nextIn c (b :: t)
  | _ => none

/-- Cell 0 of the item that follows item `c0` among items of its class, or 0. -/
def nextItem (c0 : Nat) : List Item → Nat
  | a :: t => if itemId a = c0 then (match t with | b :: _ => itemId b | [] => 0) else nextItem c0 t
  | [] => 0

/-- The link word of cell c (R167), derived from the lists: the link array holds exactly what the lists say. A staging cell is
neither free nor charged, and the manual gives its entry no value: it reads 0 (DESIGN CHOICE, log entry 130). -/
def linkWord (s : State) (c : Nat) : Word :=
  if (s.pool.owner.any fun e => e.1 == c) then
    let q := mget 0 s.pool.owner c
    match (s.queue q).items.find? (fun i => i.cells.contains c) with
    | some i =>
      match nextIn c i.cells with
      | some n => packW [(0, 16, n), (16, 8, q)]
      | none => packW [(0, 16, nextItem (itemId i) ((s.queue q).items.filter fun j => j.cls == i.cls)),
                       (16, 8, q), (31, 1, 1)]
    | none =>
      match (looseRuns s).find? (fun l => l.contains c) with
      | some l =>
        match nextIn c l with
        | some n => packW [(0, 16, n), (16, 8, q)]
        | none => packW [(16, 8, q), (31, 1, 1)]
      | none => packW [(16, 8, q), (31, 1, 1)]
  else if 65536 - s.sq.stgCells ≤ c then 0#32
  else packW [(24, 1, 1)]

/-- Word k of cell c as BAR2 and the read windows show it: word 15 is the link word (R185, R197). -/
def cellWord (s : State) (c k : Nat) : Word := if k = 15 then linkWord s c else poolWord s c k

end Sys2Proof.Machine
end

