-- ==== Sys2Proof/Machine/TxCore.lean ====
section
/-!
DEFINITION. The transmit path's shared operations (chapter 7): candidates of a channel's 19 sources, the picker, how
an item ends, and how a frame on the wire is cut.
-/
namespace Sys2Proof.Machine

/-! ## What later chapters share with it -/

/-- The active half of channel n (R117). -/
def activeHalf (s : State) (n : Nat) : Bool := mget false s.lat.active n

/-- The old half of region n drains (R138). -/
def draining (s : State) (n : Nat) : Bool := mget false s.lat.drain n

/-- A frame of channel n that latched half `h` at its SOF still awaits its walk (R138); the reduced service walks no
list (R447). -/
def awaitsWalk (s : State) (n : Nat) (h : Bool) : Bool :=
  match (s.chan n).rx with
  | some f => f.frame.isNone && f.half == h && !reduced s n
  | none => false

/-- The old half of region n has drained when no frame that latched it awaits a walk (R138); the commit that swapped it, the
latest that names it, says whether it is copied (R139). -/
def drainCheck (n : Nat) (s : State) : State :=
  if draining s n && !awaitsWalk s n (!activeHalf s n) then
    let copy := match (s.lat.commits.filter fun c => c.mask.testBit n).getLast? with | some c => c.copy | none => false
    s.modLat fun l => { l with drain := mset l.drain n false,
                               copying := if copy then mset l.copying n (some 0) else l.copying }
  else s

/-- Changes Chord's state. -/
def State.modCd (s : State) (f : Cd → Cd) : State := { s with cd := f s.cd }
/-- Route r. -/
def State.route (s : State) (r : Nat) : Route := mget Route.reset s.cd.routes r
/-- Changes route r. -/
def State.modRoute (s : State) (r : Nat) (f : Route → Route) : State :=
  s.modCd fun c => { c with routes := mset c.routes r (f (mget Route.reset c.routes r)) }

/-- Adds 1 to a counter of a route (R250): saturating at 0xFFFF. -/
def rtCount (r k : Nat) (s : State) : State :=
  s.modRoute r fun e => { e with cnt := mset e.cnt k (satInc 0xFFFF (mget 0 e.cnt k)) }

/-- A chain is a cut-through copy. -/
def isCut (c : Chain) : Bool :=
  match c.dest with
  | .cut _ => true
  | _ => false

/-- The cut-through chain of a frame. -/
def ctChain (f : RxFrame) : Option Chain := f.chains.find? isCut

/-- The route of a chain. -/
def chainRoute (c : Chain) : Nat :=
  match c.dest with
  | .route r => r
  | .cut r => r
  | _ => 0

/-- Check unit u. -/
def State.unit (s : State) (u : Nat) : Unit' := mget Unit'.reset s.units u
/-- Changes check unit u. -/
def State.modUnit (s : State) (u : Nat) (f : Unit' → Unit') : State := { s with units := mset s.units u (f (s.unit u)) }

/-- A bound frame has finished: the CK_CONFIGs that wait for it go on (R342). -/
def ckFinished (key : Nat) (s : State) : State :=
  (waiting s 0x60 fun _ => true).foldl (fun s r =>
    let s := s.modCmd r fun c => { c with aux := c.aux.filter (· != key) }
    match (s.cr r).cmd with
    | some c => if c.aux.isEmpty then complete r 0x00 (s.unit (fld (wd c.words 1) 0 5)).cfg 0 s else s
    | none => s) s

/-- The duplex role counts as STANDBY (R344). -/
def isStandby (s : State) : Bool := s.dx.state == 1 || s.dx.state == 3 || s.dx.state == 4 || s.dx.state == 5

/-- The TRANSMIT queue attached to channel n at position p (R169). -/
def attached (s : State) (n p : Nat) : Option Nat :=
  (s.pool.queues.find? fun e => e.2.state != .none && e.2.consumer == 5 && e.2.txCh == n && e.2.txPos == p).map (·.1)

/-- A prime buffer of channel n. -/
def primeOf (s : State) (n b : Nat) : Prime := mget Prime.reset (s.chan n).primes b

/-- Changes prime buffer b of channel n. -/
def modPrime (n b : Nat) (f : Prime → Prime) (s : State) : State :=
  s.modChan n fun c => { c with primes := mset c.primes b (f (primeOf s n b)) }

/-- The frame that a prime buffer holds, as an item: word 6 is CH_TXP_CTL (R206). -/
def primeItem (p : Prime) : TxItem :=
  let words := (List.range 4).map (mget 0#32 p.desc) ++ [0#32, 0#32, p.ctl, 0#32]
  let data := bytesOfWords ((List.range 16).map (mget 0#32 p.data))
  { words := words, data := data.take (dBytes (wd words 0) (wd words 1) (wd words 2)) }

/-- The candidate of source `src` of channel n (R204): an armed prime buffer, an item taken from the position's queue
(R212), or that queue's head. -/
def candOf (s : State) (n src : Nat) : Option TxItem :=
  if src < 3 then (if (primeOf s n src).armed then some (primeItem (primeOf s n src)) else none)
  else match (s.chan n).taken.find? (fun e => e.1 == src - 3) with
    | some e => some (readItem s e.2.cells)
    | none =>
      match attached s n (src - 3) with
      | some q => (headItem s q).map fun i => readItem s i.cells
      | none => none

/-- Bit b of CH_MODE of channel n. -/
def modeBit (s : State) (n b : Nat) : Bool := bitOf (s.chan n).mode b
/-- op_mode of channel n (R69). -/
def opMode (s : State) (n : Nat) : Nat := fld (s.chan n).mode 0 3
/-- The mode under which channel n receives: that of LISTEN_ONLY while its transceiver is in LISTEN (R108, R478, R479). -/
def rxMode (s : State) (n : Nat) : Nat := if (s.chan n).trx = 1 then 2 else opMode s n
/-- trunk_en of channel n. -/
def trunkEn (s : State) (n : Nat) : Bool := modeBit s n 3

/-- Channel n sends frames of this format, with FDF of a BDP frame as given (R40, R41); the reduced service sends Classical CAN
frames only (R447). -/
def fmtEnabled (s : State) (n fmt : Nat) (fdf : Bool) : Bool :=
  let cc := fmt == 0 || (fmt == 3 && !fdf)
  if reduced s n then cc
  else trunkEn s n || (if cc then modeBit s n 4 else if fmt = 2 then modeBit s n 6 else modeBit s n 5)

/-- Why the picker removes a candidate as it becomes one: `some 6` REFUSED under R45 or R219, `some 7` DEMOTED under
R220. -/
def judge (s : State) (n : Nat) (i : TxItem) : Option Nat :=
  let w0 := wd i.words 0
  let w1 := wd i.words 1
  let w2 := wd i.words 2
  let fmt := dFormat w0
  if 3 < fmt || lengthBad w0 w1 w2 || !fmtEnabled s n fmt (bitOf w2 19) then some 6
  else if itStamp i && fmt != 2 then some 6
  else if itStamp i && isStandby s then some 7
  else none

/-- The channel counter of an outcome (R224). -/
def outcomeCounter (o : Nat) : Nat :=
  if o = 1 then 0x3C else if o = 2 then 0x44 else if o = 3 then 0x48 else if o = 4 ∨ o = 5 then 0x4C else 0x50

/-- The events of an item's end (R223): 0x40 TX_DONE with report = 1, 0x41 TX_FAILED for FAILED and LOST, 0x42
TX_ABORTED. -/
def endEvents (n src o : Nat) (i : TxItem) (s : State) : State :=
  let s := if itReport i then chEvent 0x40 n [(8, src), (16, itTag i), (8, o)] s else s
  if o = 4 ∨ o = 5 then chEvent 0x41 n [(8, src), (16, itTag i)] s
  else if o = 3 then chEvent 0x42 n [] s else s

/-- The cells of an item or a frame of channel n that has ended go back: at once, or behind the commit records that the channel's
slots still have to carry (R30, R212), or behind a transfer with a parity mismatch, which those slots carry first (R35). -/
def returnCells (n : Nat) (cells : List Nat) (s : State) : State :=
  if (s.chan n).commits.isEmpty && (slotBad s (.channel n)).isNone then freeCells cells s
  else (ownEnded cells s).modChan n fun c => { c with rets := c.rets ++ cells }

/-- Removes what a source holds: the buffer is disarmed with its outcome (R207); a taken item's cells return to the
free list (R212), counted for a flush that has ended it (R188); a head is popped and its cells return. -/
def dropSource (n src o : Nat) (i : TxItem) (s : State) : State :=
  if src < 3 then modPrime n src (fun p => { p with armed := false, outcome := o, done := true, lastTag := itTag i }) s
  else match (s.chan n).taken.find? (fun e => e.1 == src - 3) with
    | some e =>
      let t := e.2
      let s := s.modChan n fun c => { c with taken := mdel c.taken (src - 3) }
      let s := if t.flushed && o != 1 then flushCount t.queue t.cells.length s else s
      returnCells n t.cells s
    | none =>
      match attached s n (src - 3) with
      | some q =>
        match headItem s q with
        | some h => returnCells n h.cells (popItem q h s)
        | none => s
      | none => s

/-- The item of source `src` ends with outcome `o` (R214). -/
def endItem (n src o : Nat) (i : TxItem) (s : State) : State :=
  let s := dropSource n src o i s
  let s := s.modChan n fun c => { c with loaded := if c.loaded = some src then none else c.loaded }
  let s := bump n (outcomeCounter o) s
  let s := if o = 6 then chEvent 0x19 n [(8, src)] s else s
  endEvents n src o i s

/-- Removes the candidates of one source that cannot be sent, as each becomes the candidate (R45, R219, R220); answers
how many were removed as DEMOTED. -/
def purgeSource (n src : Nat) : Nat → State × Nat → State × Nat
  | 0, sn => sn
  | fuel + 1, sn =>
    match candOf sn.1 n src with
    | none => sn
    | some i =>
      match (sn.1.chan n).latch with
      | some l => if l.source = src then sn else
        match judge sn.1 n i with
        | some o => purgeSource n src fuel (endItem n src o i sn.1, sn.2 + b1 (o == 7))
        | none => sn
      | none =>
        match judge sn.1 n i with
        | some o => purgeSource n src fuel (endItem n src o i sn.1, sn.2 + b1 (o == 7))
        | none => sn

/-- The number of candidates a source can bring one after the other. -/
def sourceDepth (s : State) (n src : Nat) : Nat :=
  match attached s n (src - 3) with
  | some q => (s.queue q).items.length + 2
  | none => 2

/-- The candidates of all 19 sources of channel n are judged: the state, and how many were removed as DEMOTED. -/
def purgeAll (n : Nat) (s : State) : State × Nat :=
  (List.range 19).foldl (fun sn src => purgeSource n src (sourceDepth sn.1 n src) sn) (s, 0)

/-- Judges the candidates of all 19 sources of channel n (R45, R219, R220). -/
def purge (n : Nat) (s : State) : State := (purgeAll n s).1

/-- The duplex role has changed to STANDBY (R220): the candidates of channel n that it forbids are removed, and 0x43
TX_DEMOTED reports their count, once for this change. -/
def purgeDemoted (n : Nat) (s : State) : State :=
  let r := purgeAll n s
  if r.2 = 0 then r.1 else chEvent 0x43 n [(16, r.2)] r.1

/-- The channel may send: ACTIVE, not RESTRICTED or LISTEN_ONLY, transceiver NORMAL (R213). -/
def maySend (s : State) (n : Nat) : Bool :=
  let c := s.chan n
  c.state == .active && opMode s n != 1 && opMode s n != 2 && c.trx == 0 && !c.settling

/-- The frame whose cut-through copy has cell 0 `c0` is still being received (R241, R242). -/
def cutOpen (s : State) (c0 : Nat) : Bool :=
  s.chans.any fun e => e.2.rx.toList.any fun x => x.chains.any fun c => isCut c && c.cells.headD 65536 == c0

/-- A cut-through copy that has met an underrun waits until its inbound frame is valid (R242). -/
def withheld (s : State) (n src : Nat) : Bool :=
  (s.chan n).taken.any fun e => e.1 + 3 == src && e.2.underrun && cutOpen s (e.2.cells.headD 65537)

/-- The candidates that take part in the picker's choice, with their keys (R209, R210, R213, R242). -/
def contenders (s : State) (n : Nat) : List (Nat × Nat) :=
  (List.range 19).filterMap fun src =>
    if bitOf (s.chan n).dupStat src || withheld s n src then none
    else (candOf s n src).map fun i =>
      (if bitOf (s.chan n).txCfg 0 then 0 else pickKey (wd i.words 0) (wd i.words 1), src)

/-- The lowest key wins, then the lowest source number (R209). The list is in source order. -/
def best : List (Nat × Nat) → Option (Nat × Nat)
  | [] => none
  | e :: t =>
    match best t with
    | none => some e
    | some f => if f.1 < e.1 then some f else some e

/-- The picker's winner (R209). -/
def winner (s : State) (n : Nat) : Option Nat := (best (contenders s n)).map (·.2)

/-- Cell 0 of the candidate of source `src`; 65536 stands for a prime buffer. -/
def candCell (s : State) (n src : Nat) : Nat :=
  if src < 3 then 65536
  else match (s.chan n).taken.find? (fun e => e.1 == src - 3) with
    | some e => e.2.cells.headD 65537
    | none =>
      match attached s n (src - 3) with
      | some q => (match headItem s q with | some i => itemId i | none => 65537)
      | none => 65537

/-- The header of source `w`'s candidate is the one the engine has loaded, and may be sent (R37, R211, R242). -/
def isLoaded (s : State) (n w : Nat) : Bool :=
  (s.chan n).loaded == some w && (s.chan n).loadedCell == candCell s n w && !withheld s n w

/-- The frame that was loaded is its source's candidate no longer, and is not loaded any more (R211). -/
def unloadGone (n : Nat) (s : State) : State :=
  match (s.chan n).loaded with
  | some w => if isLoaded s n w then s else s.modChan n fun c => { c with loaded := none }
  | none => s

/-- The winner of channel n is loaded. -/
def loadWinner (n w : Nat) (s : State) : State :=
  s.modChan n fun c => { c with loaded := some w, loadedCell := candCell s n w }

/-- The picker decides again (R211): candidates that cannot be sent are removed; a winning prime buffer is loaded at
once (R37), a winning head when its cell 0 has been fetched (TX_HEAD_FETCH); a loaded frame that has gone is no longer
loaded. What is loaded after the latch waits for the next arbitration. -/
def recheck (n : Nat) (s : State) : State :=
  let s := unloadGone n (purge n s)
  match winner s n with
  | none => s.modChan n fun c => { c with loaded := none }
  | some w => if w < 3 && maySend s n then loadWinner n w s else s

/-- The winning head of channel n has still to have its cell 0 fetched, which the channel's slots do first (R30, R37): its
source. -/
def headAwaits (s : State) (n : Nat) : Option Nat :=
  if maySend s n then
    match winner s n with
    | some w => if w < 3 || isLoaded s n w then none else some w
    | none => none
  else none

/-- The next place in the order of commit records. -/
def nextSeq (s : State) : State := s.modPool fun p => { p with nextSeq := p.nextSeq + 1 }

/-- An item is committed to queue q at its place in the order of commit records: it is linked, and a TRANSMIT queue's
picker decides again (R211). -/
def commitAt (q : Nat) (i : Item) (s : State) : State :=
  let u := s.queue q
  let s := linkItem q i s
  if u.consumer == 5 then recheck u.txCh s else s

/-- An item of one producer is committed to queue q. -/
def commitItem (q cls : Nat) (cells : List Nat) (s : State) : State :=
  commitAt q { cls := cls, cells := cells, seq := s.pool.nextSeq } (nextSeq s)

/-- Result words of CH_STOP (R102): items waiting and sources not empty, with the frame on the wire `k`. -/
def stopResult (s : State) (n k : Nat) : Word × Word :=
  let srcs := (List.range 19).filter fun src => (candOf s n src).isSome
  let items := srcs.foldl (fun a src =>
    a + (if src < 3 then 1 else
      (if ((s.chan n).taken.any fun e => e.1 == src - 3) then 1 else 0) +
      (match attached s n (src - 3) with | some q => (s.queue q).items.length | none => 0))) 0
  (packW [(0, 16, items), (16, 2, k)], w32 (srcs.foldl (fun a src => a + 2 ^ src) 0))

/-- The CH_STOP commands that wait for channel n complete (R102). -/
def finishStop (n k : Nat) (s : State) : State :=
  let r := stopResult s n k
  completeAll (waiting s 0x12 fun ws => fld (wd ws 1) 0 4 == n) 0 r.1 r.2 s

/-- The cells of a received frame's chains go back to the free list; a marked chain reaches its boundary (R187). -/
def dropChains (n : Nat) : List Chain → State → State
  | [], s => s
  | c :: t, s =>
    dropChains n t (if c.marked then discardMarked c.queue c.cells s else returnCells n c.cells s)

/-- A committed cut-through item with cell 0 `c0` in queue q ends FAILED with its inbound frame (R241); an attempt of it
that is latched is aborted, and no other follows. -/
def cutRemove (q c0 : Nat) (s : State) : State :=
  let m := (s.queue q).txCh
  let src := (s.queue q).txPos + 3
  let latched := match (s.chan m).latch with | some l => l.source == src | none => false
  match (s.chan m).taken.find? fun e => e.2.cells.headD 65536 == c0 with
  | some e =>
    if latched then s.modChan m fun c => { c with latch := c.latch.map fun (l : Latched) => { l with ctGone := true } }
    else recheck m (endItem m src 4 (readItem s e.2.cells) s)
  | none =>
    match findItem s q c0 with
    | some i =>
      let it := readItem s i.cells
      let s := returnCells m i.cells (unlink q c0 s)
      recheck m (endEvents m src 4 it (bump m (outcomeCounter 4) s))
    | none => s

/-- A cut-through copy that is not committed yet fails with its inbound frame (R241): it ends FAILED all the same, under
the source it was meant for. -/
def cutUnborn (n : Nat) (x : RxFrame) (c : Chain) (s : State) : State :=
  let m := (s.queue c.queue).txCh
  let src := (s.queue c.queue).txPos + 3
  let s := if c.marked then discardMarked c.queue c.cells s else returnCells n c.cells s
  endEvents m src 4 { words := x.ctHead, data := [] } (bump m (outcomeCounter 4) s)

/-- The committed cut-through copy of chain c is still listed or taken. -/
def cutLive (s : State) (c : Chain) : Bool :=
  let c0 := c.cells.headD 65536
  (findItem s c.queue c0).isSome
  || (s.chan (s.queue c.queue).txCh).taken.any fun e => e.2.cells.headD 65537 == c0

/-- The cut-through copy of frame x of channel n fails with its inbound frame (R241, R249, R250); one that has ended by other means
is past failing. -/
def inboundFail (n : Nat) (x : RxFrame) (s : State) : State :=
  match ctChain x with
  | none => s
  | some c =>
    let r := chainRoute c
    let told := fun s => raise 0x49 r [(16, r), (8, 0)] (rtCount r 3 s)
    match x.ctSeq with
    | none => cutUnborn n x c (told s)
    | some _ => if cutLive s c then cutRemove c.queue (c.cells.headD 65536) (told s) else s

/-- No destination sees frame x of channel n. -/
def dropFrame (n : Nat) (x : RxFrame) (s : State) : State :=
  dropChains n (x.chains.filter fun c => !isCut c) (inboundFail n x s)

/-- The commit record of frame x of channel n is lost (R35): no destination that it names sees the frame. A cut-through copy has
its own commit, and its inbound frame has not failed before frame valid (R240, R241). -/
def dropRecord (n : Nat) (x : RxFrame) (s : State) : State :=
  dropChains n (x.chains.filter fun c => !(isCut c && x.ctSeq.isSome)) s

/-- The frame in the receive path is abandoned: no destination sees it, its half of the list awaits no walk of it (R138),
and its check unit has finished with it (R342). -/
def abandonRx (n : Nat) (s : State) : State :=
  match (s.chan n).rx with
  | some f => ckFinished n (drainCheck n (dropFrame n f (s.modChan n fun c => { c with rx := none, dataPh := false })))
  | none => s

/-- The cancel commands that wait for the latched attempt complete (R217). -/
def finishCancel (l : Latched) (o : Nat) (s : State) : State :=
  completeAll l.rings (if l.cancel == .late then 0x05 else 0x00)
    (packW [(0, 3, o), (16, 16, itTag l.item)]) 1#32 s

/-- The latched attempt ends without success and without having been sent: the item stays its source's candidate, or
ends with outcome `o` where it may make no further attempt (single shot, cancelled, demoted or flushed; R188, R215,
R217, R220). A flushed item ends FAILED, a single-shot one that loses arbitration too (R188, before R215: log entry 140). An item that
a demotion keeps from a further attempt ends FAILED though it has but lost arbitration (DESIGN CHOICE, log entry 153). -/
def attemptFailed (n o : Nat) (s : State) : State :=
  match (s.chan n).latch with
  | none => s
  | some l =>
    let flushed := (s.chan n).taken.any fun e => e.1 == l.source - 3 && decide (3 ≤ l.source) && e.2.flushed
    let s := s.modChan n fun c => { c with latch := none, dataPh := false }
    if l.cancel == .early then finishCancel l 2 (endItem n l.source 2 l.item s)
    else if l.cancel == .late then finishCancel l 4 (endItem n l.source 4 l.item s)
    else if flushed then endItem n l.source 4 l.item s
    else if itSingle l.item then endItem n l.source o l.item s
    else if !l.retry then endItem n l.source 4 l.item s
    else s

/-- A frame on the wire is cut (R74, R107, R108): its receivers see an error; a frame in the receive path is lost; a
single-shot item ends FAILED (R215); an attempt that ends so returns R95's count to 0. -/
def cutWire (n : Nat) (s : State) : State :=
  let s := abandonRx n (s.modChan n fun c => { c with dataPh := false })
  if (s.chan n).latch.isSome then
    ckFinished (16 + n) (attemptFailed n 4 (s.modChan n fun c => { c with dupCnt := 0 }))
  else s

/-- The requests for channel n's transceiver that wait in the wake controller are abandoned (R107, R424): a CH_SET_STATE among
them completes with `st`. -/
def dropRequests (n st : Nat) (s : State) : State :=
  let s := s.pw.locals.foldl (fun s l => match l.ring with
    | some r => if l.ch = n then complete r st 0 0 s else s
    | none => s) s
  { s with pw := { s.pw with locals := s.pw.locals.filter fun (l : LocalReq) => l.ch != n } }

/-- A channel is forced SAFE (R74, R107): the frame on the wire is cut, the transceiver goes to LISTEN with its mode pins
driven per enc_listen (R112), settling and pending requests are abandoned, and waiting commands complete (`st` for
CH_SET_STATE: E_STATE, or E_FAULT in a class-3 safe state). How a CH_STOP ends that waits in STOPPING, the manual does
not say: it completes 0x00 OK, and the frame counts as ended in error (DESIGN CHOICE, log entry 125). -/
def chanSafe (n st : Nat) (s : State) : State :=
  if (s.chan n).state == .safe then s
  else
    let ring := (s.chan n).trxRing
    let s := cutWire n s
    let s := s.modChan n fun c => { c with state := .safe, boff := .none, seqCnt := 0, trx := 1, trxTgt := 1,
                                           settling := false, forced := true, pinsDrv := true, trxRing := none }
    let s := match ring with | some r => complete r st 0 0 s | none => s
    recheck n (finishStop n 3 (dropRequests n st s))

/-- A channel leaves SAFE for STOPPED, its counters kept; LISTEN is no longer forced (R74, R107). -/
def chanFree (n : Nat) (s : State) : State :=
  if (s.chan n).state == .safe then
    recheck n (s.modChan n fun c => { c with state := .stopped, forced := false })
  else s

end Sys2Proof.Machine
end

