-- ==== Sys2Proof/Machine/Flags.lean ====
section
/-!
DEFINITION. Vertex (chapter 14): fault classes, status bits, the first-fault latch, consequential tagging, the class-2
and class-3 reactions, the lines to the supervisor; and with it the host-link fault record (R514) and the link
transmitter's queue, which a fault's NOTICE uses (R372).
-/
namespace Sys2Proof.Machine

/-! ## Classes and targets -/

/-- The class map's entry of a source (R382, R409). -/
def classMapOf (m : List (Nat × Word)) (src : Nat) : Nat := fld (mget 0#32 m (src / 16)) (2 * (src % 16)) 2

/-- The class-2 target that an assertion names (R384), or none (R385: a gate word of source 16, 0xFF of source 23). -/
def targetOf (src : Nat) (detail : Word) : Option Target :=
  let d := fld detail 0 16
  if src < 16 then some (.chan src)
  else if src = 16 then (if bitOf detail 15 then none else some (.chan (fld detail 9 4)))
  else if src = 18 then some .chord
  else if src = 19 ∨ src = 20 then some .tangent
  else if src = 21 then some .check
  else if src = 23 then (if d = 0xFF then none else some (.queue (d % 256)))
  else if src = 24 ∨ src = 41 ∨ src = 43 then some (.chan (d % 16))
  else if src = 42 then some (.chan (fld detail 8 4))
  else if src = 29 ∨ src = 31 ∨ src = 32 ∨ src = 33 then some .duplex
  else none

/-- The sources that 0x73 VX_CLASSES may give class 2 (R384, R385). -/
def mayContain (src : Nat) : Bool :=
  decide (src ≤ 16) || decide (18 ≤ src ∧ src ≤ 21) || [23, 24, 29, 31, 32, 33, 41, 42, 43].contains src

/-- The sources whose class is fixed (R384). -/
def classFixed (src : Nat) : Bool := [22, 25, 34, 62, 63].contains src || decide (44 ≤ src ∧ src ≤ 61)

/-- The class an assertion is judged at (R385): class 2 without a target is class 1. -/
def classOf (s : State) (src : Nat) (detail : Word) : Nat :=
  let c := classMapOf s.vx.classes src
  if c = 2 ∧ (targetOf src detail).isNone then 1 else c

/-- Sources wired to a reset target (R396); `units` are the check units bound to the channel at its reset. -/
def tagCovers (s : State) (t : Target) (units : List Nat) (src : Nat) (detail : Word) : Bool :=
  match t with
  | .device => true
  | .chan n => src == n || (src == 21 && units.contains (fld detail 0 16)) ||
      ([16, 24, 41, 42, 43].contains src && decide (targetOf src detail = some (.chan n)))
  | .chord => src == 18 || (src == 23 && fld detail 0 16 != 0xFF && (s.queue (fld detail 0 16)).consumer == 2
      && (s.queue (fld detail 0 16)).state != .none)
  | .tangent => src == 19 || src == 20 || src == 32
  | .check => src == 21
  | .queue q => src == 23 && fld detail 0 16 == q
  | .duplex => src == 31 || src == 32 || src == 33

/-- The class of the reaction that opened a window (R397). -/
def windowClass : Target → Nat
  | .device => 3
  | _ => 2

/-- The assertion is consequential (R396, R397): a window covers it and its class is not above the reaction's. -/
def tagged (s : State) (src cls : Nat) (detail : Word) : Bool :=
  s.vx.windows.any fun w => decide (cls ≤ windowClass w.1) && tagCovers s w.1 w.2 src detail

/-- A class-2 reaction holds the target now (R392). -/
def heldBy (s : State) (t : Target) : Bool := s.vx.held.any fun h => decide (h.2 = t)

/-- The target is forced safe: by a class-2 reaction or by the device safe state (R392, R393). -/
def forcedSafe (s : State) (t : Target) : Bool := heldBy s t || s.vx.safe

/-- VX_STATE worst (R389): the highest class among the set bits not marked injected. -/
def worst (s : State) : Nat :=
  (List.range 64).foldl (fun a i =>
    if bitOf64 s.vx.stat i && !bitOf64 s.vx.inj i then Nat.max a (classMapOf s.vx.classes i) else a) 0

/-- FAULT_N is driven low (R398), and by the device safe state (R393). -/
def faultNLow (s : State) : Bool :=
  s.vx.safe || (List.range 64).any fun i =>
    bitOf64 s.vx.stat i && !bitOf64 s.vx.inj i && decide (fld s.vx.cfg 0 2 ≤ classMapOf s.vx.classes i)

/-- ALIVE toggles (R400): from the image commit, outside the safe state, and outside a class-2 reaction while
alive_c2 = 1. -/
def aliveRuns (s : State) : Bool :=
  s.vx.aliveRun && !s.vx.safe && !(bitOf s.vx.cfg 2 && !s.vx.held.isEmpty)

/-! ## The link transmitter (R350, R372) -/

/-- Precedence of a packet type (R350): NOTICE first. -/
def packetRank (k : Nat) : Nat := if k = 2 then 0 else if k = 1 then 1 else k

/-- The waiting packet sent next (R350): the highest type, and among equal types the one that waited longest. -/
def nextPacket : List Packet → Option Packet
  | [] => none
  | p :: t =>
    match nextPacket t with
    | none => some p
    | some q => if packetRank q.kind < packetRank p.kind then some q else some p

/-- A list without the first packet equal to p. -/
def dropPacket (p : Packet) : List Packet → List Packet
  | [] => []
  | q :: t => if q = p then t else q :: dropPacket p t

/-- A packet's words on the link (R349): header (type, payload length, packet sequence), payload, and the CRC-32C over
both. -/
def packetWords (seq : Nat) (p : Packet) : List Word :=
  let l := packW [(0, 8, p.kind), (8, 12, p.words.length), (20, 12, seq)] :: p.words
  l ++ [w32 (crc32c (bytesOfWords l))]

/-- Starts the next waiting packet when the transmitter is free: a paired device, not silent (R348, R372); while the
duplex controller is forced safe by a class-2 reaction only idles are sent (R392); in the safe state only NOTICE
(R372). -/
def linkKick (s : State) : State :=
  if s.dx.txNow.isSome || !s.dx.pairEn || s.dx.silent || (heldBy s .duplex && !s.vx.safe) then s
  else match nextPacket (if s.vx.safe then s.dx.txWait.filter (·.kind == 2) else s.dx.txWait) with
    | some p =>
      { s with dx := { s.dx with txNow := some p, txWait := dropPacket p s.dx.txWait,
                                 txSeq := (s.dx.txSeq + 1) % 4096 } }.emit (.linkPacket (packetWords s.dx.txSeq p))
    | none => s

/-- Queues a packet for the partner: heartbeats while the device is paired, any other packet only while the link is UP
(R348, R351); in the safe state only NOTICE, and none to a silent transmitter (R372). While the duplex controller is forced safe
only idles are sent (R392), and no heartbeat falls due (log entry 156). -/
def linkSend (p : Packet) (s : State) : State :=
  if s.dx.pairEn && s.pw.awake && (s.dx.linkUp || p.kind == 1) && !s.dx.silent && (!s.vx.safe || p.kind == 2)
      && !(p.kind == 1 && heldBy s .duplex) then
    linkKick { s with dx := { s.dx with txWait := s.dx.txWait ++ [p] } }
  else s

/-- An active that latches a fault of class 2 or 3 sends NOTICE (R350, R372). -/
def sendNotice (src cls : Nat) (s : State) : State :=
  if s.dx.state = 2 ∧ 2 ≤ cls then linkSend { kind := 2, words := [packW [(0, 2, cls), (2, 6, src)]] } s else s

/-! ## Reactions -/

/-- A host submission in progress is abandoned: its cells go back (R177, R190). -/
def dropSub (r : Nat) (s : State) : State :=
  match (s.cr r).cmd with
  | some c =>
    match c.sub with
    | some b =>
      let s := s.modCmd r fun c => { c with sub := none }
      if b.marked then discardMarked b.queue b.cells s else freeCells b.cells s
    | none => s
  | none => s

/-- VX_FIRST (R409). -/
def vxFirst (v : Vx) : Word :=
  packW [(0, 6, v.fSource), (6, 2, v.fClass), (8, 1, b1 v.fValid), (9, 1, b1 v.fInjected), (10, 1, b1 v.fOverflow)]

/-- GL_PROFILE. -/
def glProfile (b : Boot) : Word := packW [(0, 1, b1 b.profile), (1, 1, b1 b.fromImg)]

/-- The elements that the LT_WRITE of ring r has written by now (R158). -/
def writtenElems (r : Nat) (s : State) : Word :=
  match s.lat.writes.find? fun w => w.ring == r with
  | some w => if w.elems.isEmpty then 0#32 else w32 (w.total - w.elems.length)
  | none => 0#32

/-- The result words of a command that its body does not complete, because a shared check refuses it or the device ends it: those
that its table gives for every status (R158, R410, R484), 0 for the others (DEDUCED, log entry 169). -/
def endedResults (r : Nat) (s : State) : Word × Word :=
  let op := fld (pkt s r 0) 0 8
  if op = 0x20 then (writtenElems r s, 0#32)
  else if op = 0x05 then (glProfile s.boot, 0#32)
  else if op = 0x71 then
    let left := join64 (pkt s r 2) (pkt s r 3) &&& s.vx.stat
    (lo32 left, hi32 left)
  else if op = 0x72 then (0#32, vxFirst s.vx)
  else if op = 0x73 then (mget 0 s.vx.classes 1, mget 0 s.vx.classes 2)
  else (0#32, 0#32)

/-- Ring r's command, when it is in progress, completes with a status that the device gives it. -/
def endCommand (st : Nat) (s : State) (r : Nat) : State :=
  if inProgress s r then complete r st (endedResults r s).1 (endedResults r s).2 (dropSub r s) else s

/-- Every command in progress completes with a status (R416, R507). -/
def endCommands (st : Nat) (s : State) : State :=
  (List.range 4).foldl (endCommand st) s

/-- A proof test that waits ends undetected (R405, R411: 0x73 VX_PROOF_DONE). -/
def proofAbandon (s : State) : State :=
  match s.vx.proof with
  | some p => raise 0x73 p.source [(8, p.source), (16, 0)] { s with vx := { s.vx with proof := none } }
  | none => s

/-- What the reaction latch does at once (R393, R394): ALIVE stops, GL_KEY locks (R531), the tag window of the device opens
(R396), an entry to SLEEP or HIBERNATE is abandoned (R415). -/
def safeLatch (s : State) : State :=
  { s with
    vx := { s.vx with safe := true, safeDone := false, aliveRun := false, alivePin := false
                      windows := s.vx.windows ++ [(.device, [])] }
    gl := { s.gl with unlocked := false, armed := false }
    pw := match s.pw.mode with
      | .entering _ => { s.pw with mode := .run, remaining := fld s.pw.cfg 16 16, awakeCyc := 0 }
      | _ => s.pw }

/-- The link transmitter in the safe state: with no NOTICE to send it falls silent (R372). -/
def safeLink (s : State) : State :=
  if (s.dx.txWait ++ s.dx.txNow.toList).any (·.kind == 2) then linkKick s
  else { s with dx := { s.dx with silent := true, txWait := [], commits := [] } }

/-- The device safe state (R393, R394): the reaction latch is set, the commands in progress end with E_FAULT (R507), every
channel is SAFE. -/
def enterSafe (s : State) : State :=
  if s.vx.safe then s
  else safeLink ((List.range 16).foldl (fun s n => chanSafe n 0x0B s) (endCommands 0x0B (safeLatch (proofAbandon s))))

/-- The check units bound to channel n (R396): in RX mode the unit of the frame in the channel's receive path, in TX
mode those whose tx_queue is attached to the channel. -/
def boundUnits (s : State) (n : Nat) : List Nat :=
  ((s.chan n).rx.toList ++ (s.chan n).staged).filterMap (fun f => f.check.map (·.1))
  ++ (s.units.filter fun u => fld u.2.cfg 0 2 == 2 &&
       (s.queue (fld u.2.cfg 8 8)).consumer == 5 && (s.queue (fld u.2.cfg 8 8)).txCh == n).map (·.1)

/-- A class-2 reaction forces a target safe, and the tag window of its reset opens (R392, R396). Chord, Tangent, the
check units, the duplex controller and a BROKEN queue read `heldBy`. -/
def forceTarget (t : Target) (s : State) : State :=
  let units := match t with | .chan n => boundUnits s n | _ => []
  let s := s.modVx fun v => { v with windows := v.windows ++ [(t, units)] }
  match t with
  | .chan n => chanSafe n 0x03 s
  | _ => s

/-- The target is named by a set class-2 bit: it is forced unless it is held safe already, by another such bit or by the device
safe state (R392). -/
def holdTarget (src : Nat) (t : Target) (s : State) : State :=
  let was := forcedSafe s t
  let s := s.modVx fun v => { v with held := if v.held.contains (src, t) then v.held else v.held ++ [(src, t)] }
  if was then s else forceTarget t s

/-! ## Recording (R386 to R390, R404, R406) -/

/-- The first-fault latch takes a record (R388). -/
def latchFirst (src cls : Nat) (injected : Bool) (detail : Word) (s : State) : State :=
  s.modVx fun v => { v with fSource := src, fClass := cls, fValid := true, fInjected := injected, fInfo := detail,
                            fTime := s.tm.now }

/-- A genuine assertion of the core cycle of the record that the latch holds, and graver, or as grave with a lower source number
(R387). Assertions at one value of the time base are taken as those of one core cycle while it counts (DESIGN CHOICE, log entry
141). -/
def outranks (s : State) (src cls : Nat) : Bool :=
  s.boot.phase != .b0 && s.boot.phase != .b2 && s.vx.fTime == s.tm.now && (decide (s.vx.fClass < cls) || (s.vx.fClass == cls && decide (src < s.vx.fSource)))

/-- R387 and R406: an empty latch takes any record; a genuine fault displaces an injected one; a genuine assertion that
finds a genuine record sets overflow (0x71 VX_OVERFLOW), and takes the latch where it outranks the record. -/
def recordFirst (src cls : Nat) (injected : Bool) (detail : Word) (s : State) : State :=
  if !s.vx.fValid || (s.vx.fInjected && !injected) then latchFirst src cls injected detail s
  else if injected || s.vx.fInjected then s
  else
    let was := s.vx.fOverflow
    let s := if outranks s src cls then latchFirst src cls injected detail s else s
    let s := s.modVx fun v => { v with fOverflow := true }
    if was then s else raise 0x71 0 [] s

/-- 0x70 VX_FAULT (R411, R509). -/
def vxFaultEvent (src cls : Nat) (injected : Bool) (detail : Word) (s : State) : State :=
  raise 0x70 src [(8, src), (8, cls), (32, detail.toNat), (8, b1 injected)] s

/-- A proof test has detected its source after `lat` core cycles (R405): the command of ring r completes, with
0x73 VX_PROOF_DONE. -/
def proofDone (src r lat : Nat) (s : State) : State :=
  let s := raise 0x73 src [(8, src), (16, 1)] (s.modVx fun v => { v with proof := none })
  complete r 0x00 (packW [(0, 1, 1), (8, 8, Nat.min 255 lat)]) (vxFirst s.vx) s

/-- The source of a proof test that waits asserts (R405). -/
def proofSeen (src : Nat) (s : State) : State :=
  match s.vx.proof with
  | some p => if p.source = src then proofDone src p.ring ((s.tm.now.toNat - p.start.toNat) * 12 / 25) s else s
  | none => s

/-- R390: the first genuine class-3 assertion of this power cycle goes into the retention. -/
def recordLast3 (src cls : Nat) (detail : Word) (s : State) : State :=
  if cls = 3 ∧ !s.vx.last3Done then
    { s with vx := { s.vx with last3Done := true }
             ret := { s.ret with last3 := packW [(0, 6, src), (6, 1, 1)], last3Info := detail } }
  else s

/-- The interrupt of SQ_IRQ_CFG [6] for a fault of at least the class of [9:8] (R513). -/
def faultInterrupt (cls : Nat) (s : State) : State :=
  if bitOf s.sq.irqCfg 6 && decide (fld s.sq.irqCfg 8 2 ≤ cls) then
    signal true (fld s.sq.irqCfg 0 6) (signal false (fld s.sq.irqCfg 0 6) s)
  else s

/-- A genuine assertion is recorded (R387, R390, R411), and told to the partner unless its bit was set (R372). -/
def recordGenuine (src cls : Nat) (wasSet : Bool) (detail : Word) (s : State) : State :=
  let s := recordLast3 src cls detail (vxFaultEvent src cls false detail (recordFirst src cls false detail s))
  faultInterrupt cls (if wasSet then s else sendNotice src cls s)

/-- A consequential assertion is counted (R397). -/
def recordConseq (src : Nat) (s : State) : State :=
  raise 0x72 src [(8, src)] (s.modVx fun v => { v with conseq := satInc 0xFFFF v.conseq, conseqLast := src })

/-- The reaction of the class (R392, R393), and a proof test that waits for the source (R405). A source of class 2 whose bit was
set already causes no new one (R404). -/
def reaction (src cls : Nat) (wasSet : Bool) (detail : Word) (s : State) : State :=
  if cls = 3 then enterSafe s
  else if cls = 2 ∧ !wasSet then
    match targetOf src detail with
    | some t => holdTarget src t (proofSeen src s)
    | none => proofSeen src s
  else proofSeen src s

/-- An assertion of a source with its detail word (R386 to R390, R392 to R397, R404, R406, R513). -/
def vxAssert (src : Nat) (detail : Word) (s : State) : State :=
  if 44 ≤ src ∧ src ≤ 61 then s
  else
    let cls := classOf s src detail
    let wasSet := bitOf64 s.vx.stat src && !bitOf64 s.vx.inj src
    let conseq := tagged s src cls detail
    let s := s.modVx fun v => { v with stat := putBit64 v.stat src true, inj := putBit64 v.inj src false,
                                       genuine3 := if cls = 3 then putBit64 v.genuine3 src true else v.genuine3 }
    reaction src cls wasSet detail (if conseq then recordConseq src s else recordGenuine src cls wasSet detail s)

/-- A level source's line goes active: it asserts (R381). -/
def vxLevelOn (src : Nat) (detail : Word) (s : State) : State :=
  if bitOf64 s.vx.level src then s
  else vxAssert src detail (s.modVx fun v => { v with level := putBit64 v.level src true })

/-- A level source's line goes inactive (R381, R403). -/
def vxLevelOff (src : Nat) (s : State) : State := s.modVx fun v => { v with level := putBit64 v.level src false }

/-- An injected assertion (R405, R406): the bit is set with its mark unless it was set, the latch takes the record
only when it is empty, and no reaction follows. -/
def vxInject (src : Nat) (detail : Word) (s : State) : State :=
  let was := bitOf64 s.vx.stat src
  let cls := classOf s src detail
  let s := if was then s else
    s.modVx fun v => { v with stat := putBit64 v.stat src true, inj := putBit64 v.inj src true }
  vxFaultEvent src cls true detail (recordFirst src cls true detail s)

/-- The value of a host-link kind (R514). -/
def hlCode : HlKind → Nat
  | .linkDown => 0
  | .ecrc => 1
  | .poisoned => 2
  | .cplTimeout => 3
  | .cplAbort => 4
  | .serialCrc => 5
  | .serialFrame => 6

/-- A host-link fault (R514): SQ_HERR records the first kind and counts, 0x03 HL_ERROR carries the kind, source 37
asserts with it. -/
def hostFault (k : HlKind) (s : State) : State :=
  let c := hlCode k
  let s := s.modSq fun q => { q with herrKind := if q.herrSeen then q.herrKind else c, herrSeen := true,
                                     herrCount := satInc 0xFFFF q.herrCount }
  vxAssert 37 (w32 c) (raise 0x03 c [(8, c)] s)

end Sys2Proof.Machine
end

