-- ==== Sys2Proof/Machine/Begin.lean ====
section
/-!
DEFINITION. How a fetched command begins (R499, R503, R506): the fence, the checks that every opcode shares, in their
order, and the addresses of host memory that commands name (R494).
-/
namespace Sys2Proof.Machine

/-! ## Statuses (R505) -/

/-- 0x00 OK. -/
def stOk : Nat := 0x00
/-- 0x01 E_BUSY. -/
def eBusy : Nat := 0x01
/-- 0x02 E_PARAM. -/
def eParam : Nat := 0x02
/-- 0x03 E_STATE. -/
def eState : Nat := 0x03
/-- 0x04 E_CAP. -/
def eCap : Nat := 0x04
/-- 0x05 E_TOO_LATE. -/
def eTooLate : Nat := 0x05
/-- 0x06 E_PROFILE. -/
def eProfile : Nat := 0x06
/-- 0x07 E_LOCKED. -/
def eLocked : Nat := 0x07
/-- 0x08 E_CHECK. -/
def eCheck : Nat := 0x08
/-- 0x09 E_NOTFOUND. -/
def eNotFound : Nat := 0x09
/-- 0x0A E_TIMEOUT. -/
def eTimeout : Nat := 0x0A
/-- 0x0B E_FAULT. -/
def eFault : Nat := 0x0B
/-- 0x0C E_UNSUPPORTED. -/
def eUnsupported : Nat := 0x0C

/-! ## The opcode index (R521) -/

/-- Whether an opcode is accepted before the commit of B3: `some true` always, `some false` only while BOOT_SEL selects
NONE, `none` never. -/
def beforeService (op : Nat) : Option Bool :=
  if [0x00, 0x01, 0x02, 0x03, 0x04, 0x70].contains op then some true
  else if [0x05, 0x10, 0x15, 0x20, 0x22, 0x30, 0x32, 0x33, 0x48, 0x49, 0x4A, 0x51, 0x58, 0x5D, 0x60, 0x68, 0x6A, 0x71,
           0x73, 0x7A, 0x7C].contains op then some false
  else none

/-- The opcodes that run in the class-3 safe state (R395). -/
def runsInSafe (op : Nat) : Bool := [0x00, 0x01, 0x04, 0x15, 0x70].contains op

/-- Every opcode that the index lists. -/
def definedOpcode (op : Nat) : Bool :=
  decide (op ≤ 0x05) || decide (0x10 ≤ op ∧ op ≤ 0x15) || decide (0x20 ≤ op ∧ op ≤ 0x23)
  || decide (0x30 ≤ op ∧ op ≤ 0x33) || decide (0x40 ≤ op ∧ op ≤ 0x42) || decide (0x48 ≤ op ∧ op ≤ 0x4A)
  || decide (0x50 ≤ op ∧ op ≤ 0x51) || decide (0x58 ≤ op ∧ op ≤ 0x5D) || decide (0x60 ≤ op ∧ op ≤ 0x61)
  || decide (0x68 ≤ op ∧ op ≤ 0x6B) || decide (0x70 ≤ op ∧ op ≤ 0x73) || decide (0x78 ≤ op ∧ op ≤ 0x7D)

/-- The flags [10:8] that an opcode defines, as a mask (the Flags column of the command tables). -/
def definedFlags (op : Nat) : Nat :=
  if [0x02, 0x03, 0x30, 0x31, 0x48, 0x4A, 0x5A, 0x60, 0x68, 0x72, 0x78, 0x7A, 0x7C].contains op then 1
  else if op = 0x49 then 3
  else if op = 0x61 ∨ op = 0x71 then 7 else 0

/-! ## The LEGACY profile (R480) -/

/-- The opcodes whose target (word 1 [3:0]) is a channel (R480, limit CHANNEL). -/
def chanTarget (ws : List Word) : Option Nat :=
  let op := pOpcode ws
  if decide (0x10 ≤ op ∧ op ≤ 0x15) || op == 0x41 || op == 0x42 || op == 0x7C || op == 0x7D then
    some (fld (wd ws 1) 0 4)
  else if op = 0x20 ∨ op = 0x22 then some (fld (wd ws 1) 9 4)
  else none

/-- A mask names one of channels 8 to 15. -/
def highMask (w : Word) : Bool := fld w 8 8 != 0

/-- The limit that a command breaks under LEGACY (R480, R521), judged on its packet and the channel's settings, or 0.
The limits that need the item in host memory (0x0B at 0x40 and 0x42, read later) and ELEMENT at 0x21 (R140) are judged where
their own rules place them. -/
def legacyLimit (s : State) (ws : List Word) : Nat :=
  let op := pOpcode ws
  let highCh := match chanTarget ws with | some n => decide (8 ≤ n) | none => false
  let q := fld (wd ws 1) 0 8
  if highCh then 0x01
  else if op = 0x11 then
    let m := (s.chan (fld (wd ws 1) 0 4)).mode
    if bitOf m 6 || bitOf m 9 then 0x02 else if bitOf m 3 then 0x03 else if fld m 0 3 = 1 then 0x04 else 0
  else if op = 0x21 then (if highMask (wd ws 1) then 0x01 else 0)
  else if op = 0x23 then 0x06
  else if op = 0x30 then
    (if pFlags ws % 2 = 0 ∧ fld (wd ws 3) 0 3 = 5 ∧ 8 ≤ fld (wd ws 3) 4 4 then 0x01
     else if 64 ≤ q then 0x05
     else if pFlags ws % 2 = 0 ∧ fld (wd ws 3) 0 3 = 5 ∧ 8 ≤ fld (wd ws 3) 8 4 then 0x0B else 0)
  else if op = 0x31 ∨ op = 0x32 ∨ op = 0x33 ∨ op = 0x40 then (if 64 ≤ q then 0x05 else 0)
  else if op = 0x42 then (if bitOf (wd ws 4) 1 then 0x0B else 0)
  else if op = 0x48 then
    (if 256 ≤ fld (wd ws 1) 0 10 ∨ (pFlags ws % 2 = 0 ∧ (bitOf (wd ws 2) 4 ∨ fld (wd ws 2) 2 2 = 3)) then 0x07 else 0)
  else if 0x58 ≤ op ∧ op ≤ 0x5D then 0x08
  else if op = 0x60 ∨ op = 0x61 then (if 8 ≤ fld (wd ws 1) 0 5 then 0x0A else 0)
  else if op = 0x68 then (if bitOf (wd ws 2) 0 then 0x09 else 0)
  else if op = 0x69 ∨ op = 0x6B then 0x09
  else if op = 0x78 then (if highMask (wd ws 1) then 0x01 else 0)
  else if op = 0x7A then (if fld (wd ws 1) 0 5 < 16 ∧ 8 ≤ fld (wd ws 1) 0 4 then 0x01 else 0)
  else 0

/-! ## The beginning of a command -/

/-- The first of the checks 4 to 6 of R506 that fails, as status and result word 1. -/
def laterCheck (s : State) (ws : List Word) : Option (Nat × Word) :=
  let op := pOpcode ws
  if !inService s && (match beforeService op with
      | some true => false
      | some false => s.boot.straps.bootSel != 3
      | none => true) then some (eState, 0)
  else if fld (wd ws 0) 11 4 ≠ 0 ∨ (pFlags ws &&& (7 - definedFlags op)) ≠ 0 then some (eParam, 0)
  else if op = 0x73 ∧ !s.gl.unlocked then some (eLocked, 0)
  else none

/-- LEGACY's limit on 0x40 TX_SUBMIT lies in the item itself, which has to be read before any later check (R480, R506). -/
def limitInItem (s : State) (ws : List Word) : Bool := s.boot.profile && pOpcode ws == 0x40

/-- The first of the shared checks that fails (R506, 2 to 6), as status and result word 1. -/
def sharedCheck (s : State) (ws : List Word) : Option (Nat × Word) :=
  let op := pOpcode ws
  let lim := if s.boot.profile then legacyLimit s ws else 0
  if s.vx.safe && !runsInSafe op then some (eFault, 0)
  else if lim ≠ 0 then some (eProfile, w32 lim)
  else if limitInItem s ws then none
  else laterCheck s ws

/-- Every command fetched earlier, from any ring, has completed (R503). -/
def fenceOpen (s : State) (seq : Nat) : Bool :=
  s.sq.crs.all fun e => match e.2.cmd with
    | some c => decide (seq ≤ c.seq)
    | none => true

/-- No command fetched earlier still waits to begin: commands of different rings start in fetch order (R499). -/
def inFetchOrder (s : State) (seq : Nat) : Bool :=
  s.sq.crs.all fun e => match e.2.cmd with
    | some c => c.begun || decide (seq ≤ c.seq)
    | none => true

/-- The command that ring r has fetched and not begun, when nothing holds it back: its packet. -/
def ready (s : State) (r : Nat) : Option (List Word) :=
  match (s.cr r).cmd with
  | some c =>
    if !c.begun && inFetchOrder s c.seq && (!pFence c.words || fenceOpen s c.seq) then some c.words else none
  | none => none

/-- Begins the command of ring r when it is one that `p` accepts: the shared checks, then `body`, which is given the
packet (R499, R506). A ring with no such command is left as it is. -/
def beginWhen (r : Nat) (p : List Word → Bool) (body : List Word → State → State) (s : State) : State :=
  match ready s r with
  | some ws =>
    if p ws then
      let s := s.modCmd r fun c => { c with begun := true }
      match sharedCheck s ws with
      | some e => complete r e.1 (endedResults r s).1 (if e.1 = eProfile then e.2 else (endedResults r s).2) s
      | none => body ws s
    else s
  | none => s

/-- Begins an opcode that has one form. -/
def beginOp (r op : Nat) (body : List Word → State → State) (s : State) : State :=
  beginWhen r (fun ws => pOpcode ws == op) body s

/-- The interface of ring r (R494). -/
def ringSerial (s : State) (r : Nat) : Bool := (s.cr r).serial

/-- A host address in a command is acceptable: over the serial port, `n` bytes within staging (R494). -/
def addrOk (s : State) (r : Nat) (lo hi : Word) (n : Nat) : Bool := !ringSerial s r || stgOk s lo hi n

/-- Writes a command's data to host memory (R494, R495). -/
def dataOut (r : Nat) (lo hi : Word) (ws : List Word) (s : State) : State :=
  hostPut (ringSerial s r) (baseOf lo hi) (bytesOfWords ws) s

/-- A command asks for the host's data: over PCI Express it waits for the read (R496); over the serial port the bytes
lie in staging and `k` takes them at once. -/
def dataIn (r : Nat) (lo : Word) (n : Nat) (k : List Byte → State → State) (s : State) : State :=
  if ringSerial s r then k (stgRead s lo.toNat n) s else s.modCmd r fun c => { c with dma := true }

/-- The command rings are usable: from B3 on, and not while the device is held in reset or asleep (R443, R445). -/
def ringsUsable (s : State) : Bool :=
  !s.boot.inReset && (s.boot.phase == .b3 || s.boot.phase == .service || s.boot.phase == .failed) && s.pw.awake

/-! ## Register access (R445, R492) -/

/-- An interface as GL_KEY records it. -/
def isSerial : Iface → Bool
  | .pcie => false
  | .serial => true

/-- Register access at BAR0 offset `off` works (R445, R492): over both interfaces from the end of B2, over the serial
port to the GL block from B1; not in reset, and not while the device sleeps. D3hot disables memory decoding (R487). -/
def regReach (i : Iface) (off : Nat) (s : State) : Bool :=
  !s.boot.inReset && s.pw.clocked && (isSerial i || !s.sq.ep.d3hot) &&
  (s.boot.phase == .b3 || s.boot.phase == .service || s.boot.phase == .failed
   || (isSerial i && decide (off < 0x100) && s.boot.phase == .b2))

/-- The core is powered, and neither held in reset nor past the end of an entry to SLEEP or HIBERNATE (R416). -/
def coreLive (s : State) : Bool := !s.boot.inReset && s.pw.clocked

/-- An access takes effect where registers can be reached. -/
def regAccess (i : Iface) (off : Nat) (f : State → State) (s : State) : State := if regReach i off s then f s else s

end Sys2Proof.Machine
end

