-- ==== Sys2Proof/Machine/Wheel.lean ====
section
/-!
DEFINITION. The slot wheel (R24 to R35, R38): transfers with a parity mismatch, the returns on a channel's commit lane, and turns of the housekeeping slot.
-/
namespace Sys2Proof.Machine

/-- A transfer-parity mismatch in a slot (R35, R38); `commit`: on the commit lane. -/
def wheelFault (slot : Nat) (commit : Bool) (s : State) : State :=
  let s := s.modGl fun g => if g.perrSeen then g else { g with perrSlot := slot, perrLane := commit, perrSeen := true }
  vxAssert 22 (packW [(0, 6, slot), (6, 1, b1 commit)]) s

/-- What a command does in one of these slots: `f`, or, when the transfer it makes has a parity mismatch, source 22 with
nothing transferred (R35): the destination has discarded it, and what stood at its source stands there still (log entry
127). -/
def inSlotAt (p : Nat → Bool) (f : State → State) (s : State) : State :=
  match slotBadAt s p with
  | some e => wheelFault e.1 e.2 (s.modGl fun g => { g with slotBad := dropSlot p g.slotBad })
  | none => f s

/-- What a command does in some slot of this owner. -/
def inSlot (o : SlotOwner) (f : State → State) (s : State) : State := inSlotAt (fun k => decide (slotOwner k = o)) f s

/-- The cells whose return waited behind the channel's commit records, or was discarded in its slot, go back once no record is left
(R30, R35). -/
def returnsDue (n : Nat) (s : State) : State :=
  if (s.chan n).commits.isEmpty && !(s.chan n).rets.isEmpty then
    inSlot (.channel n) (fun s => freeCells (s.chan n).rets (s.modChan n fun c => { c with rets := [] })) s
  else s

/-- The user of the housekeeping slot is served in its turn, and the round ends (R32). -/
def inTurn (f : State → State) (s : State) : State :=
  let s := inSlot .housekeeping f s
  { s with round := s.round + 1 }

/-- The housekeeping slot of this round is Lattice's, and the wheel turns (R32). -/
def latticeTurn (s : State) : Bool := ringsUsable s && s.round % 2 == 0

end Sys2Proof.Machine
end

