-- ==== Sys2Proof/Machine/Trx.lean ====
section
/-!
DEFINITION. Transceiver states (R104 to R111): the one operation that changes a channel's transceiver, for commands,
for the wake controller and for bring-up.
-/
namespace Sys2Proof.Machine

/-- NORMAL (R104). -/
def trxNormal : Nat := 0
/-- LISTEN (R104). -/
def trxListen : Nat := 1
/-- STANDBY (R104). -/
def trxStandby : Nat := 2
/-- SLEEP (R104). -/
def trxSleep : Nat := 3

/-- STANDBY or SLEEP: the low-power states. -/
def lowTrx (t : Nat) : Bool := decide (2 ≤ t)

/-- The channel is asleep (R104): its transceiver is in STANDBY or SLEEP. -/
def asleep (s : State) (n : Nat) : Bool := lowTrx (s.chan n).trx

/-- A frame is being sent or received by channel n (R77). -/
def frameOnWire (s : State) (n : Nat) : Bool := (s.chan n).rx.isSome || (s.chan n).latch.isSome

/-- The pin code that CH_TRX_ENC gives pin `p` (0 STB_N, 1 EN, 2 WAKE_N) in transceiver state `t` (R105, R106). -/
def pinCode (enc : Word) (t p : Nat) : Nat := fld enc (8 * t + 2 * p) 2

/-- A state whose encoding holds the refused code 0b11 for some pin (R105). -/
def encBad (enc : Word) (t : Nat) : Bool := (List.range 3).any fun p => pinCode enc t p == 3

/-! ### Pins (R105, R112, R114) -/

/-- The level of a pin that the device drives, or high-impedance. -/
inductive PinLevel where
  | low | high | highZ
deriving DecidableEq, Repr

/-- What CHn_TXD shows: high-impedance, driven recessive, or the protocol's bits. -/
inductive TxdLevel where
  | highZ | recessive | protocol
deriving DecidableEq, Repr

/-- VDD_IO is present: VAO is up, the device is not in HIBERNATE (R414, R418), and VDD_IO is above its threshold (R551). -/
def ioPowered (s : State) : Bool := s.pw.vao && s.pw.mode != .hibernate && !s.boot.ioLow

/-- The level that a code of CH_TRX_ENC gives a mode pin: 0b10, and 0b11 in a state that no command set, is
high-impedance (R105). -/
def codeLevel (code : Nat) : PinLevel := if code = 0 then .low else if code = 1 then .high else .highZ

/-- The level of mode pin `p` (0 STB_N, 1 EN, 2 WAKE_N) of channel n (R107, R112, R114). On a channel that is forced SAFE in B0 the
pins follow enc_listen and not B0's high impedance (DESIGN CHOICE, log entry 167). -/
def modePin (s : State) (n p : Nat) : PinLevel :=
  if !ioPowered s || s.boot.inReset || (s.boot.phase == .b0 && !(s.chan n).forced) || !(s.chan n).pinsDrv then .highZ
  else codeLevel (pinCode (s.chan n).trxEnc (s.chan n).trx p)

/-- CHn_TXD (R69, R71, R74, R85, R108, R112): the protocol's bits from a channel that takes part, with its transceiver in
NORMAL and a mode that drives the bus; recessive otherwise. -/
def txdLevel (s : State) (n : Nat) : TxdLevel :=
  let c := s.chan n
  let on := c.state == .integrating || c.state == .active || c.state == .stopping
  if !ioPowered s then .highZ
  else if s.boot.inReset || s.boot.phase == .b0 || !s.pw.awake || !c.pinsDrv || !on || c.trx != 0
      || opMode s n == 2 || opMode s n == 3 then .recessive
  else .protocol

/-- CH_TRX (R111). -/
def chTrxWord (c : Chan) : Word :=
  packW [(0, 2, c.trx), (2, 2, c.trxTgt), (4, 1, b1 c.settling), (5, 1, b1 c.pinsDrv), (6, 1, b1 c.forced)]

/-- 0x13 CH_SET_STATE completes with CH_TRX (R519). -/
def trxDone (n r : Nat) (s : State) : State := complete r stOk (chTrxWord (s.chan n)) 0 s

/-- The channel reaches STOPPED out of STOPPING (R74). -/
def stoppingEnds (n k : Nat) (s : State) : State :=
  if (s.chan n).state == .stopping then
    finishStop n k (s.modChan n fun c => { c with state := .stopped, seqCnt := 0 })
  else s

/-- Settling of channel n has ended (R109): the command that waits completes, the channel's transceiver serves. -/
def trxSettled (n : Nat) (s : State) : State :=
  if (s.chan n).settling && (s.chan n).trx == (s.chan n).trxTgt then
    let ring := (s.chan n).trxRing
    let s := s.modChan n fun c => { c with settling := false, trxRing := none }
    let s := match ring with | some r => trxDone n r s | none => s
    recheck n s
  else s

/-- The transceiver of channel n is set at once to state `t`, for the command of ring `ring` or for the wake
controller. A change that involves STANDBY or SLEEP cuts a frame on the wire and settles for settle_us; an ACTIVE
channel integrates again (R107, R108, R109); settling that runs goes on (R423). A command whose change this replaces ends with E_STATE (log entry 13). -/
def trxSet (n t : Nat) (ring : Option Nat) (s : State) : State :=
  let old := (s.chan n).trx
  let s := match (s.chan n).trxRing with | some r => complete r eState 0 0 s | none => s
  let settle := lowTrx t || lowTrx old || ((s.chan n).settling && old == (s.chan n).trxTgt)
  let s := if lowTrx t then stoppingEnds n 3 (cutWire n s) else s
  let s := s.modChan n fun c => { c with
    trx := t, trxTgt := t, settling := settle, pinsDrv := true, trxRing := if settle then ring else none,
    state := if lowTrx t && c.state == .active then .integrating else c.state }
  if settle then (if fld (s.chan n).trxTim 0 16 = 0 then trxSettled n s else recheck n s)
  else
    let s := match ring with | some r => trxDone n r s | none => s
    recheck n s

/-- The transceiver of channel n goes to `t`: between NORMAL and LISTEN at the end of the frame on the wire (R107),
otherwise at once. -/
def trxRequest (n t : Nat) (ring : Option Nat) (s : State) : State :=
  if !lowTrx t && !lowTrx (s.chan n).trx && frameOnWire s n then
    s.modChan n fun c => { c with trxTgt := t, settling := true, pinsDrv := true, trxRing := ring }
  else trxSet n t ring s

/-- A change between NORMAL and LISTEN that waited for the end of the frame on the wire is applied (R107). -/
def trxApply (n : Nat) (s : State) : State :=
  let c := s.chan n
  if c.settling && c.trx != c.trxTgt && !frameOnWire s n then
    let ring := c.trxRing
    trxSet n c.trxTgt ring (s.modChan n fun c => { c with trxRing := none })
  else s

end Sys2Proof.Machine
end

