-- ==== Sys2Proof/Machine/Time.lean ====
section
/-!
DEFINITION. The time base (chapter 9): the counter, the stamps, the servo, the PPS pins, the roles and their commands.
-/
namespace Sys2Proof.Machine

/-- Changes the time base. -/
def State.modTm (s : State) (f : Tm → Tm) : State := { s with tm := f s.tm }

/-! ## The counter (R251, R252) -/

/-- round(a × 8.947 8) of R251. -/
def rateSteps (a : Int) : Int :=
  let p := a * 89478
  let q := p / 10000
  let r := p % 10000
  if r < 5000 then q else if 5000 < r then q + 1 else if Config.rateTieUp a then q + 1 else q

/-- The fraction of a nanosecond added per core cycle (R251). -/
def rateFraction (t : Tm) : Nat := (0x15555555 + rateSteps t.adj).toNat

/-- The counter runs from the end of B2, in every power mode in which the core clock runs (R252). -/
def timeRuns (s : State) : Bool :=
  !s.boot.inReset && (s.boot.phase == .b3 || s.boot.phase == .service || s.boot.phase == .failed)
  && (match s.pw.mode with | .run => true | .entering _ => true | .waking => true | _ => false)

/-- The whole second that TIME_PPS_OUT counts: the counter reduced by pps_out_adj (R258). -/
def ppsSecond (t : Tm) : Int := ((t.now.toNat : Int) - signed (fld t.ppsAdj 16 16) 16) / 1000000000

/-- Core cycles since B1 entry, until SERVICE (R457). -/
def bootCycles (n : Nat) (s : State) : State :=
  if s.boot.phase == .b3 || s.boot.phase == .failed then { s with boot := { s.boot with cycles := s.boot.cycles + n } }
  else s

/-- The awake timer counts while no own reason holds (R433). -/
def awakeCycles (n : Nat) (s : State) : State :=
  { s with pw := { s.pw with awakeCyc := if (reasonsHeld s).isEmpty then s.pw.awakeCyc + n else 0 } }

/-- Second `sec` has given a pulse. -/
def ppsHad (t : Tm) (sec : Int) : Bool := t.ppsDone.any fun e => decide (e.1 ≤ sec ∧ sec ≤ e.2)

/-- Second `sec` gives its pulse. -/
def ppsGive (sec : Int) (t : Tm) : Tm :=
  let done := match t.ppsDone with
    | (a, b) :: l => if sec = b + 1 then (a, sec) :: l else (sec, sec) :: (a, b) :: l
    | [] => [(sec, sec)]
  { t with ppsDone := done, ppsDue := true }

/-- The counter after `n` core cycles (R251): the fraction carries into it; a whole second passed through normal advance is
due for its pulse where it has given none yet, out_en is set and so is the counter (R258). A new core cycle has begun
(R263). -/
def tmAdvance (n : Nat) (t0 : Tm) : Tm :=
  let sum := t0.frac + n * rateFraction t0
  let t := { t0 with now := t0.now + BitVec.ofNat 64 (2 * n + sum / 2 ^ 32), frac := sum % 2 ^ 32
                     preStep := if n = 0 then t0.preStep else none }
  let sec := ppsSecond t
  if ppsSecond t0 < sec && !ppsHad t sec && bitOf t.ppsCfg 0 && t.set then ppsGive sec t else t

/-- `n` core cycles pass (R251). -/
def passCycles (n : Nat) (s : State) : State :=
  if timeRuns s then
    let s := awakeCycles n (bootCycles n s)
    { s with tm := tmAdvance n s.tm }
  else s

/-! ## Stamps (R254, R255) -/

/-- The SOF stamp of channel n now: the counter less rx_adj; without subtraction in LOOP_INTERNAL;
before a step in the same core cycle (R263). -/
def sofStamp (s : State) (n : Nat) : DWord :=
  let now := s.tm.preStep.getD s.tm.now
  if rxMode s n == 3 then now
  else BitVec.ofInt 64 ((now.toNat : Int) - signed (fld (mget 0#32 s.tm.chAdj n) 16 16) 16)

/-- The stamp of a SENT item is written to TM_TXS (R256). -/
def txStamp (n : Nat) (stamp : DWord) (tag : Nat) (s : State) : State :=
  s.modTm fun t => { t with txs := mset t.txs n stamp,
                            txsTag := mset t.txsTag n (packW [(0, 16, tag), (16, 1, 1)]) }

/-! ## Steps and the servo (R261 to R264) -/

/-- The counter jumps to `v` (a step or a set): no pulse comes of it (R258), TM_STAT set and steps follow, the last
PPS edge keeps its distance (R257), as a SYNC that waits for its FOLLOW_UP does (R261), and 0x52 TM_STEPPED carries the change, saturated to 32 bits (R268). -/
def jumpTo (v : DWord) (delta : Int) (s : State) : State :=
  let s := s.modTm fun t =>
    { t with now := v, set := true, steps := (t.steps + 1) % 65536, preStep := some (t.preStep.getD t.now)
             lastEdge := t.lastEdge.map (· + delta), sync := mmap (fun e => (e.1, e.2.1, e.2.2 + delta)) t.sync }
  raise 0x52 0 [(32, unsign (clampI (-2147483648) 2147483647 delta) 32)] s

/-- The counter steps by `d` ns (R262). -/
def stepBy (d : Int) (s : State) : State :=
  jumpTo (BitVec.ofInt 64 ((s.tm.now.toNat : Int) + d)) d s

/-- The servo's state changes, with 0x50 TM_LOCKED on entry to LOCKED and 0x51 TM_UNLOCKED on the way from LOCKED to
ACQUIRING (R264). -/
def servoTo (st : Nat) (s : State) : State :=
  let was := s.tm.state
  let s := s.modTm fun t => { t with state := st, goodRun := 0, badRun := 0, told38 := false }
  if st = 2 ∧ was ≠ 2 then raise 0x50 0 [] s
  else if st = 1 ∧ was = 2 then raise 0x51 0 [] s else s

/-- R262 without the state change: a step beyond step_ns, otherwise the integral and proportional correction. -/
def servoDrive (o t : Int) (s : State) : State :=
  if (fld s.tm.servo 16 16 : Int) < o.natAbs then stepBy (-o) s
  else
    let e := Int.tdiv (o * 1000000000) t
    let i := s.tm.integ - e / 2 ^ (fld s.tm.servo 4 4)
    let adj := clampI (-500000) 500000 (i - e / 2 ^ (fld s.tm.servo 0 4))
    s.modTm fun m => { m with integ := i, adj := adj }

/-- A valid measurement drives the servo (R262, R264). -/
def measured (o t : Int) (s : State) : State :=
  let s := s.modTm fun m => { m with offset := ws (clampI (-2147483648) 2147483647 o), holdPast := false }
  let lock : Bool := decide (o.natAbs ≤ fld s.tm.servo 8 8)
  let big : Bool := decide (fld s.tm.servo 16 16 < o.natAbs)
  match s.tm.state with
  | 0 => servoTo 1 (stepBy (-o) s)
  | 1 =>
    let s := servoDrive o t s
    if big || !lock then s.modTm fun m => { m with goodRun := 0 }
    else if 8 ≤ s.tm.goodRun + 1 then servoTo 2 s
    else s.modTm fun m => { m with goodRun := m.goodRun + 1 }
  | 2 =>
    let s := servoDrive o t s
    if big then servoTo 1 s
    else if lock then s.modTm fun m => { m with badRun := 0 }
    else if 4 ≤ s.tm.badRun + 1 then servoTo 1 s
    else s.modTm fun m => { m with badRun := m.badRun + 1 }
  | 3 => servoTo (if lock then 2 else 1) (servoDrive o t s)
  | _ => s

/-- sync_ms in force: values outside 10 to 1 000 act as 125 (R266). -/
def syncMs (s : State) : Nat := if 10 ≤ s.tm.syncMs ∧ s.tm.syncMs ≤ 1000 then s.tm.syncMs else 125

/-- The role of R259. -/
def tmRole (s : State) : Nat := fld s.tm.role 0 3

/-- A measurement is discarded with its reason (R261): 0 LATE, 1 FOREIGN, 2 INTERVAL. -/
def discard (reason : Nat) (s : State) : State :=
  raise 0x54 0 [(8, reason)] (s.modTm fun t => { t with discards := satInc 0xFFFF t.discards })

/-- A SYNC at frame valid on slave_ch of a SLAVE (R261): the measurement of its sender that still awaits its FOLLOW_UP is
discarded; those of other senders wait on (log entry 15). -/
def syncSeen (seq sender : Nat) (stamp : DWord) (s : State) : State :=
  let late := s.tm.sync.any fun e => e.1 == sender
  let s := s.modTm fun t => { t with sync := mset t.sync sender (seq, stamp, 0) }
  if late then discard 0 s else s

/-- The measurement of `sender` (R261): the slave's stamp, the master's stamp; `moved`: by how much steps have moved the counter
since the slave's. -/
def syncMeasured (n sender : Nat) (mine master : DWord) (moved : Int) (s : State) : State :=
  if (syncMs s * 1000000 : Int) < (s.tm.now.toNat : Int) - mine.toNat - moved then discard 0 s
  else if s.tm.followed ∧ !s.tm.holdPast ∧ s.tm.sender ≠ sender then discard 1 s
  else
    let path := fld (mget 0#32 s.tm.chAdj n) 0 16
    let o : Int := (mine.toNat : Int) - ((master.toNat : Int) + path)
    let t : Int := match s.tm.prev with
      | some p => (master.toNat : Int) - p.toNat
      | none => syncMs s * 1000000
    let s := s.modTm fun m => { m with prev := some master }
    if 2 * t < (syncMs s * 1000000 : Int) ∨ (2 * syncMs s * 1000000 : Int) < t then discard 2 s
    else measured o t (s.modTm fun m => { m with sender := sender, followed := true })

/-- A FOLLOW_UP at frame valid on slave_ch of a SLAVE (R261). -/
def followUpSeen (n seq sender : Nat) (master : DWord) (s : State) : State :=
  match s.tm.sync.find? fun e => e.1 == sender && e.2.1 == seq with
  | some (_, _, mine, moved) => syncMeasured n sender mine master moved (s.modTm fun t => { t with sync := mdel t.sync sender })
  | none => s

/-! ## PPS (R257, R258) -/

/-- PPS_IN_EDGE (R257): `waited` core cycles after the previous command, a rising edge on TIME_PPS_IN. -/
def execPpsInEdge (waited : Nat) (s : State) : Host.Outcome State Fault Refusal :=
  let s := passCycles waited s
  let close := match s.tm.lastEdge with
    | some e => decide ((s.tm.now.toNat : Int) - e < 500000000)
    | none => false
  .next (
    if !bitOf s.tm.ppsCfg 1 || close || !timeRuns s then s
    else
      let cap : Int := (s.tm.now.toNat : Int) - signed (fld s.tm.ppsAdj 0 16) 16
      let s := s.modTm fun t => { t with lastEdge := some (t.now.toNat : Int), ppsIn := BitVec.ofInt 64 cap }
      if tmRole s = 1 ∧ bitOf s.tm.role 3 then
        let o := cap - (cap + 500000000) / 1000000000 * 1000000000
        measured o 1000000000 s
      else s)

/-- PPS_OUT_RISE (R258): `waited` core cycles after the previous command. -/
def execPpsOutRise (waited : Nat) (s : State) : Host.Outcome State Fault Refusal :=
  let s := passCycles waited s
  .next (
    if s.tm.ppsDue then
      s.modTm fun t => { t with ppsDue := false, ppsOut := t.ppsOut || (bitOf t.ppsCfg 0 && t.set) }
    else s)

/-- PPS_OUT_FALL (R258): width_ms after its rise. -/
def execPpsOutFall (s : State) : Host.Outcome State Fault Refusal :=
  .next (s.modTm fun t => { t with ppsOut := false })

/-! ## Holdover (R264) -/

/-- SERVO_HOLD_TIMEOUT (R264): hold_ms without a valid measurement. -/
def execServoHoldTimeout (s : State) : Host.Outcome State Fault Refusal :=
  .next (
    let s := s.modTm fun t => { t with holdPast := true }
    if s.tm.state = 1 ∨ s.tm.state = 2 then raise 0x53 0 [] (servoTo 3 s) else s)

/-- HOLDOVER_LIMIT (R264): HOLDOVER has lasted hold_max_s, which 0 makes never. -/
def execHoldoverLimit (s : State) : Host.Outcome State Fault Refusal :=
  .next (
    if s.tm.state = 3 ∧ !s.tm.told38 ∧ fld s.tm.hold 16 16 ≠ 0 then
      vxAssert 38 0 (s.modTm fun t => { t with told38 := true })
    else s)

/-! ## Commands (R267) -/

/-- The ops of 0x50 TM_SET are refused while a servo runs (R267). -/
def servoRuns (s : State) : Bool := tmRole s == 2 || (tmRole s == 1 && bitOf s.tm.role 3)

/-- The completion of an applied TM_SET: the counter in the cycle of application. -/
def tmDone (r : Nat) (s : State) : State := complete r stOk (lo32 s.tm.now) (hi32 s.tm.now) s

/-- TM_SET op SET, and the reserved op 3, which is refused (R267). -/
def tmSetBody (r : Nat) (ws : List Word) (s : State) : State :=
  if fld (wd ws 1) 0 2 = 3 then complete r eParam 0 0 s
  else if servoRuns s then complete r eState 0 0 s
  else
    let v := join64 (wd ws 2) (wd ws 3)
    let d : Int := (v.toNat : Int) - s.tm.now.toNat
    tmDone r (jumpTo v d (s.modTm fun t => { t with frac := 0 }))

/-- TM_SET op STEP (R267). -/
def tmStepBody (r : Nat) (ws : List Word) (s : State) : State :=
  if servoRuns s then complete r eState 0 0 s
  else tmDone r (stepBy (signed (join64 (wd ws 2) (wd ws 3)).toNat 64) s)

/-- TM_SET op RATE (R267). -/
def tmRateBody (r : Nat) (ws : List Word) (s : State) : State :=
  let a := sw (wd ws 2)
  if a < -500000 ∨ 500000 < a then complete r eParam 0 0 s
  else if servoRuns s then complete r eState 0 0 s
  else tmDone r (s.modTm fun t => { t with adj := a, integ := a })

/-- The opcode and the op of a TM_SET packet. -/
def isTmSet (f : Nat → Bool) (ws : List Word) : Bool := pOpcode ws == 0x50 && f (fld (wd ws 1) 0 2)

/-- TM_SET. -/
def execTmSet (r : Fin 4) (s : State) : Host.Outcome State Fault Refusal :=
  .next (beginWhen r.val (isTmSet fun op => op == 0 || op == 3) (tmSetBody r.val) s)
/-- TM_STEP. -/
def execTmStep (r : Fin 4) (s : State) : Host.Outcome State Fault Refusal :=
  .next (beginWhen r.val (isTmSet fun op => op == 1) (tmStepBody r.val) s)
/-- TM_RATE. -/
def execTmRate (r : Fin 4) (s : State) : Host.Outcome State Fault Refusal :=
  .next (beginWhen r.val (isTmSet fun op => op == 2) (tmRateBody r.val) s)

/-- The refusal of a role (R259, R267). -/
def roleBad (s : State) (w1 w2 : Word) : Bool :=
  decide (2 < fld w1 0 3) || (fld w1 0 3 == 2 && bitOf w2 (fld w1 4 4)) || (bitOf w1 3 && !bitOf s.tm.ppsCfg 1)

/-- A role is set (R259, R264): a servo starts in UNLOCKED, its integral part kept, with no measurement pending and no
sender followed. -/
def setRole (w1 w2 : Word) (s : State) : State :=
  let role := packW [(0, 3, fld w1 0 3), (3, 1, fld w1 3 1), (4, 4, fld w1 4 4), (16, 16, fld w2 0 16)]
  let s := s.modTm fun t => { t with role := role, sync := [], prev := none, followed := false, sender := 0,
                                     holdPast := false }
  servoTo (if servoRuns s then 0 else 4) s

end Sys2Proof.Machine
end

