-- ==== Sys2Proof/Machine/Bdp.lean ====
section
/-!
DEFINITION. The Benzon Domain Protocol (chapter 10): identifiers and payloads, which frames are well formed, how the
device's own frames become due and are committed, and the time base's SYNC and FOLLOW_UP frames.
-/
namespace Sys2Proof.Machine

/-- Changes the BDP's state. -/
def State.modBdp (s : State) (f : Bdp → Bdp) : State := { s with bdp := f s.bdp }

/-! ## Types and payloads (R270 to R274) -/

/-- CLAIM. -/
def kClaim : Nat := 0
/-- HEARTBEAT. -/
def kHeartbeat : Nat := 1
/-- SYNC. -/
def kSync : Nat := 2
/-- FOLLOW_UP. -/
def kFollowUp : Nat := 3
/-- SLEEP_PREPARE. -/
def kPrepare : Nat := 4
/-- SLEEP_COMMIT. -/
def kCommit : Nat := 5
/-- KEEP_AWAKE. -/
def kKeepAwake : Nat := 6
/-- IDENTIFY_REQ. -/
def kIdReq : Nat := 7
/-- IDENTIFY_ANS. -/
def kIdAns : Nat := 8
/-- MARGIN_PROBE. -/
def kProbe : Nat := 9
/-- MARGIN_ECHO. -/
def kEcho : Nat := 10

/-- The fixed length of each type (R272). -/
def bdpLength (k : Nat) : Nat := if k = 2 then 0 else if k = 3 ∨ k = 8 ∨ k = 10 then 8 else 4

/-- The device address in force (R286). -/
def devAddr (s : State) : Nat := fld s.bdp.cfg 16 12
/-- The identifier block's base (R286). -/
def bdpBase (s : State) : Nat := fld s.bdp.cfg 0 9

/-- A BDP identifier (R270). -/
def bdpIdent (base kind aux addr : Nat) : Nat := base * 2 ^ 20 + kind * 2 ^ 16 + aux * 2 ^ 12 + addr

/-- Type, aux and sender of a BDP identifier (R270). -/
def bdpKind (ident : Nat) : Nat := ident / 2 ^ 16 % 16
/-- See `bdpKind`. -/
def bdpAux (ident : Nat) : Nat := ident / 2 ^ 12 % 16
/-- See `bdpKind`. -/
def bdpSender (ident : Nat) : Nat := ident % 2 ^ 12

/-- A frame of the identifier block (R269): extended, a data frame, Classical CAN, CAN FD or trunk TFMT 3. -/
def isBdp (base : Nat) (f : Frame) : Bool :=
  f.ide && f.ident.toNat / 2 ^ 20 == base &&
  (match f.fmt with
   | .cc => !f.rtr
   | .fd => true
   | .xl => false
   | .trunk => f.tfmt.val == 3 && !f.rtr)

/-- The claim tests of R274 for CLAIM and HEARTBEAT: bit 0 of a claim other than 0 equals bit 0 of the sender. -/
def claimOwnerOk (claim sender : Nat) : Bool := claim == 0 || claim % 2 == sender % 2

/-- The payload of type `k` from `sender` is well formed (R274). -/
def payloadOk (k sender : Nat) (w0 w1 : Word) : Bool :=
  let claim := fld w0 0 16
  if k = 0 then fld w0 20 12 == 0 && decide (fld w0 16 4 ≤ 3) && claim != 0 && claimOwnerOk claim sender
  else if k = 1 then
    fld w0 26 6 == 0 && ((fld w0 24 2 == 0 && claim == 0) || (fld w0 24 2 == 1 && claim != 0))
    && claimOwnerOk claim sender
  else if k = 4 then fld w0 16 16 != 0
  else if k = 6 then fld w0 12 4 == 0 && ((decide (1 ≤ fld w0 0 8 ∧ fld w0 0 8 ≤ 5)) || decide (0x80 ≤ fld w0 0 8))
  else if k = 7 then fld w0 13 19 == 0
  else if k = 8 then
    decide (1 ≤ fld w0 0 4 ∧ fld w0 0 4 ≤ 4) && fld w0 4 2 != 3 && fld w1 16 2 != 3 && fld w1 18 14 == 0
  else if k = 9 then
    fld w0 12 4 == 0 && fld w0 21 11 == 0 && decide (1 ≤ fld w0 16 5 ∧ fld w0 16 5 ≤ 16)
  else if k = 10 then w0 == 0x55555555#32 && w1 == 0x55555555#32
  else true

/-- A BDP frame with this identifier and payload is well formed (R274). -/
def bdpWellFormed (ident : Nat) (data : List Byte) : Bool :=
  let k := bdpKind ident
  decide (k ≤ 10) && data.length == bdpLength k && (bdpAux ident == 0 || k == 2 || k == 3)
  && payloadOk k (bdpSender ident) (wordAt data 0) (wordAt data 4)

/-! ## Sending (R276 to R279) -/

/-- bdp_en of channel n. -/
def bdpEn (s : State) (n : Nat) : Bool := bitOf (s.chan n).bdpCfg 0

/-- The device may send its own BDP frames on channel n (R276, R278): after the image commit, not as STANDBY, not in
the device safe state, not on a SAFE channel. -/
def bdpSends (s : State) (n : Nat) : Bool :=
  inService s && bdpEn s n && !isStandby s && !s.vx.safe && (s.chan n).state != .safe && s.pw.awake

/-- The device has a waiting item of this type for channel n. -/
def bdpWaits (s : State) (n k : Nat) : Bool := s.bdp.due.any fun d => d.ch == n && d.kind == k

/-- A BDP frame of type `k` falls due on channel n: it waits for its commit, and replaces one of its type that still
waits (R279: bdp_tx_replaced at 0x60, 0x0D BDP_TX_REPLACED). -/
def bdpDue (n k : Nat) (words : List Word) (s : State) : State :=
  if bdpSends s n then
    let was := bdpWaits s n k
    let s := s.modBdp fun b => { b with
      due := b.due.filter (fun d => !(d.ch == n && d.kind == k)) ++ [{ ch := n, kind := k, aux := 0, words := words }] }
    if was then chEvent 0x0D n [(8, k)] (bump n 0x60 s) else s
  else s

/-- A FOLLOW_UP falls due for the SYNC of sequence `aux` (R280). -/
def followUpDue (n aux : Nat) (stamp : DWord) (s : State) : State :=
  let s := bdpDue n kFollowUp [lo32 stamp, hi32 stamp] s
  s.modBdp fun b => { b with
    due := b.due.map fun d => if d.ch = n ∧ d.kind = kFollowUp then { d with aux := aux } else d }

/-- The sequence that the next SYNC of channel n carries in aux; other types carry their own (R270, R280). -/
def dueAux (s : State) (d : DueItem) : Nat := if d.kind = kSync then mget 0 s.bdp.syncSeq d.ch else d.aux

/-- The descriptor of a BDP item (R276): format 3, bdp_fd and bdp_brs of CH_BDP, tag 0. -/
def bdpDescriptor (s : State) (d : DueItem) : List Word :=
  let c := (s.chan d.ch).bdpCfg
  [packW [(0, 16, bdpLength d.kind), (20, 4, fld c 16 4), (28, 3, 3), (31, 1, 1)],
   packW [(0, 29, bdpIdent (bdpBase s) d.kind (dueAux s d) (devAddr s)), (31, 1, 1)],
   packW [(17, 1, if bitOf c 1 then fld c 2 1 else 0), (19, 1, fld c 1 1)], 0#32, 0#32, 0#32, 0#32, 0#32]

/-- The bdp_queue of channel n, when it is a TRANSMIT queue attached to n (R276, R277). -/
def bdpQueue (s : State) (n : Nat) : Option Nat :=
  let q := fld (s.chan n).bdpCfg 8 8
  let u := s.queue q
  if u.state != .none && u.consumer == 5 && u.txCh == n then some q else none

/-- Waiting item `d` is committed into its queue as a one-cell item (R276), in cell `pick` of the free cells; a refusal
is back-pressure and leaves it waiting (R279). -/
def bdpCommit (d : DueItem) (pick : Nat) (s : State) : State :=
  match bdpQueue s d.ch with
  | none => s
  | some q =>
    if allocOk s q true then
      let c := freeCell s pick
      let desc := bdpDescriptor s d
      let aux := dueAux s d
      let s := writeCell c (cellBytes desc (bytesOfWords d.words) 0) (charge c q s)
      let s := s.modBdp fun b => { b with
        due := b.due.filter (fun e => !(e.ch == d.ch && e.kind == d.kind))
        own := b.own ++ [{ ch := d.ch, cell := c, kind := d.kind, aux := aux, word := wd d.words 0 }]
        syncSeq := if d.kind = kSync then mset b.syncSeq d.ch ((aux + 1) % 16) else b.syncSeq }
      commitItem q (dClass (wd desc 0)) [c] s
    else refuse q (refusedByMax s q true) s

/-- The waiting item of channel n and type k. -/
def dueOf (s : State) (n k : Nat) : Option DueItem := s.bdp.due.find? fun d => d.ch == n && d.kind == k

/-- SYNC and FOLLOW_UP go out on channel n: as MASTER or SLAVE, on the channels of master_mask (R259, R260). -/
def syncSends (s : State) (n : Nat) : Bool := (tmRole s == 1 || tmRole s == 2) && bitOf s.tm.role (16 + n)

/-- The waiting item of channel n and type k is committed in the duplex controller's slot, while the device may still send it
(R35, R259, R278). -/
def bdpTry (n k pick : Nat) (s : State) : State :=
  match dueOf s n k with
  | some d => if bdpSends s n && (syncSends s n || (k != kSync && k != kFollowUp)) && (bdpQueue s n).isSome then inSlot .duplex (bdpCommit d pick) s else s
  | none => s

/-- BDP_ITEM_COMMIT (R276): in the duplex controller's slot, the waiting item of channel `ch` and type `kind`. -/
def execBdpItemCommit (ch kind : Fin 16) (pick : Fin 65536) (s : State) : Host.Outcome State Fault Refusal :=
  .next (bdpTry ch.val kind.val pick.val s)

/-- The source of channel n that holds cell c as its candidate: a taken item, or the head of an attached queue. -/
def ownTaken (s : State) (n c : Nat) : Option Nat :=
  ((s.chan n).taken.find? fun e => e.2.cells.headD 0 == c).map fun e => e.1 + 3

/-- A committed BDP item is withdrawn (R260, R429): out of its queue with its cells returned, or, once taken, as a
candidate that is removed; on the wire it finishes, marked so that nothing follows from it (log entry 16). -/
def withdrawOwn (o : OwnItem) (s : State) : State :=
  let mark := s.modBdp fun b => { b with own := b.own.map fun e => if e = o then { e with aux := e.aux % 16 + 16 } else e }
  match ownTaken s o.ch o.cell with
  | some src =>
    let latched := match (s.chan o.ch).latch with | some l => l.source == src | none => false
    if latched then mark
    else match candOf s o.ch src with
      | some i => recheck o.ch (endItem o.ch src 2 i s)
      | none => s
  | none =>
    match bdpQueue s o.ch with
    | some q => recheck o.ch (bump o.ch 0x44 (freeCells [o.cell] (unlink q o.cell s)))
    | none => s

/-- Waiting and committed items of type k on channel n are withdrawn. -/
def withdrawKind (n k : Nat) (s : State) : State :=
  let s := s.modBdp fun b => { b with due := b.due.filter fun d => !(d.ch == n && d.kind == k) }
  (s.bdp.own.filter fun o => o.ch == n && o.kind == k && decide (o.aux < 16)).foldl (fun s o => withdrawOwn o s) s

/-! ## Time (R259, R260, R280) -/

/-- TM_ROLE takes effect (R259): what waits or is committed of SYNC and FOLLOW_UP on a channel that carries none any more is
withdrawn. -/
def roleChange (w1 w2 : Word) (s : State) : State :=
  (List.range 16).foldl (fun s n => if syncSends s n then s else withdrawKind n kFollowUp (withdrawKind n kSync s)) (setRole w1 w2 s)

/-- 0x51 TM_ROLE (R267). -/
def execTmRole (r : Fin 4) (s : State) : Host.Outcome State Fault Refusal :=
  .next (beginOp r.val 0x51 (fun ws s =>
    if roleBad s (wd ws 1) (wd ws 2) then complete r.val eParam 0 0 s
    else
      let s := roleChange (wd ws 1) (wd ws 2) s
      complete r.val stOk s.tm.role 0 s) s)

/-- The SYNC of channel n falls due: one that is committed and has not been sent is withdrawn, and so is one that waits where
none is sent now. -/
def syncDue (n : Nat) (s : State) : State :=
  if syncSends s n && bdpSends s n then
    let s := (s.bdp.own.filter fun o => o.ch == n && o.kind == kSync && decide (o.aux < 16)).foldl
      (fun s o => withdrawOwn o s) s
    bdpDue n kSync [] s
  else withdrawKind n kSync s

/-- SYNC_INTERVAL (R260): a MASTER or SLAVE that is not STANDBY sends a SYNC on each channel of master_mask; one that
has not been sent is withdrawn. -/
def execSyncInterval (s : State) : Host.Outcome State Fault Refusal :=
  .next (
    if (tmRole s = 1 ∨ tmRole s = 2) ∧ !isStandby s then (List.range 16).foldl (fun s n => syncDue n s) s
    else s)

/-! ## Answers (R281, R282) -/

/-- The phase field of IDENTIFY_ANS (R273, R443): B3_FAILED is reported as B3. -/
def ansPhase (p : Phase) : Nat :=
  match p with
  | .b0 => 1
  | .b2 => 2
  | .b3 => 3
  | .failed => 3
  | .service => 4

/-- The role field of IDENTIFY_ANS (R272). -/
def ansRole (s : State) : Nat := if s.dx.state = 2 then 1 else if isStandby s then 2 else 0

/-- The channels that are not STOPPED. -/
def notStopped (s : State) : Nat :=
  (List.range 16).foldl (fun a n => a + (if (s.chan n).state == .stopped then 0 else 2 ^ n)) 0

/-- The payload of IDENTIFY_ANS (R272). -/
def ansWords (s : State) : List Word :=
  [packW [(0, 4, ansPhase s.boot.phase), (4, 2, ansRole s), (6, 1, b1 s.dx.linkUp), (7, 1, b1 s.boot.profile),
          (8, 8, 1), (16, 16, if inService s then fld s.boot.imageId 0 16 else 0)],
   packW [(0, 16, notStopped s), (16, 2, Nat.min 2 (worst s))]]

/-- The MARGIN_ECHO payload (R272). -/
def echoWords : List Word := [0x55555555#32, 0x55555555#32]

/-- MARGIN_ECHO_COMMIT (R282): the next echo of channel ch, once the one before it has been valid. -/
def execMarginEchoCommit (ch : Fin 16) (pick : Fin 65536) (s : State) : Host.Outcome State Fault Refusal :=
  let n := ch.val
  .next (
    if mget 0 s.bdp.echoes n = 0 ∨ (s.bdp.own.any fun o => o.ch == n && o.kind == kEcho) ∨ !bdpSends s n then s
    else
      let s := if bdpWaits s n kEcho then s else bdpDue n kEcho echoWords s
      let s := bdpTry n kEcho pick.val s
      if bdpWaits s n kEcho then s
      else s.modBdp fun b => { b with echoes := mset b.echoes n (mget 0 b.echoes n - 1) })

end Sys2Proof.Machine
end

