-- ==== Sys2Proof/Machine/Host.lean ====
section
/-!
DEFINITION. The host interface (chapter 19) without register access: doorbells, rings, fetches, completions,
interrupts, the serial port's status, PCI Express events, staging, and GL_KEY (chapter 20).
-/
namespace Sys2Proof.Machine

/-! ## Ring states (R500) -/

/-- The number a ring's state reads as (R500). -/
def ringCode : RingState → Nat
  | .disabled => 0
  | .running => 1
  | .disabling => 2
  | .halted => 3

/-- 0x04 SQ_DB_ERR carries the ring: 0 to 3 command, 4 to 7 completion, 8 event (R522). -/
def dbErrEvent (ring : Nat) (s : State) : State := raise 0x04 ring [(16, ring)] s

/-- 0x01 SQ_RING_HALT (R500, R522). -/
def haltRing (r kind : Nat) (s : State) : State :=
  raise 0x01 r [(16, r), (8, kind)] (s.modCr r fun c => { c with state := .halted, haltKind := kind })

/-- A write of SQ_CR_TAIL (R498). -/
def crTailWrite (r : Nat) (v : Word) (s : State) : State :=
  let t := fld v 0 12
  if t < 2 ^ (s.cr r).log2 then s.modCr r fun c => { c with tail := t }
  else dbErrEvent r (s.modCr r fun c => { c with dbErr := true })

/-- A write of SQ_CQ_HEAD of completion ring k, or of the event ring (4) (R498, R510): the entries passed are free, and
events among them are consumed. -/
def cqHeadWrite (k : Nat) (v : Word) (s : State) : State :=
  let c := s.cq k
  let size := 2 ^ c.log2
  let h := fld v 0 12
  let moved := (h + size - c.head) % size
  if h < size ∧ moved ≤ (c.tail + size - c.head) % size then
    let s := s.modCq k fun c => { c with head := h }
    if k = 4 then evLostFlush (s.modSq fun q => { q with evOut := q.evOut.drop moved }) else s
  else dbErrEvent (k + 4) (s.modCq k fun c => { c with dbErr := true })

/-- CMD_DOORBELL (R498). -/
def execCmdDoorbell (i : Iface) (r : Fin 4) (v : Word) (s : State) : Host.Outcome State Fault Refusal :=
  .next (regAccess i 0x110C (crTailWrite r.val v) s)

/-- CQ_DOORBELL (R498). -/
def execCqDoorbell (i : Iface) (k : Fin 5) (v : Word) (s : State) : Host.Outcome State Fault Refusal :=
  .next (regAccess i 0x120C (cqHeadWrite k.val v) s)

/-- The conditions on a ring's base and size to start it (R500): base aligned to 64 bytes, size in range, a serial
ring of `n`-byte entries within staging. -/
def ringConfigOk (s : State) (lo hi : Word) (serial : Bool) (log2 n : Nat) : Bool :=
  fld lo 0 6 == 0 && decide (2 ≤ log2 ∧ log2 ≤ 12) && (!serial || stgOk s lo hi (n * 2 ^ log2))

/-- A write of SQ_CR_CFG (R500, R516): iface is written in every state, base and size in DISABLED alone. -/
def crCfgWrite (r : Nat) (v : Word) (s : State) : State :=
  let s := s.modCr r fun c => { c with dbErr := c.dbErr && !bitOf v 11, serial := bitOf v 1 }
  let c := s.cr r
  if bitOf v 0 then
    if c.state == .disabled then
      let log2 := fld v 2 4
      if ringConfigOk s c.baseLo c.baseHi c.serial log2 32 && (s.cq r).state == .running then
        s.modCr r fun c => { c with en := true, log2 := log2, state := .running, head := 0, tail := 0, haltKind := 0 }
      else s.modCr r fun c => { c with en := false, log2 := log2, haltKind := 1 }
    else s
  else match c.state with
    | .disabled => s.modCr r fun c => { c with en := false, log2 := fld v 2 4 }
    | .running =>
      s.modCr r fun c => { c with en := false, state := if c.cmd.isSome then .disabling else .disabled }
    | .halted => s.modCr r fun c => { c with en := false, state := .disabled }
    | .disabling => s

/-- A write of en = 0 leaves completion ring k, or the event ring (4), as it is (R500): a completion ring whose command ring is not
DISABLED, and a RUNNING event ring while a command ring is not, since every command ring is the event ring's (DEDUCED, log entry
151). -/
def cqKept (s : State) (k : Nat) : Bool :=
  if k = 4 then (s.cq 4).state == .running && (List.range 4).any fun r => (s.cr r).state != .disabled
  else (s.cq k).state != .disabled && (s.cr k).state != .disabled

/-- A write of SQ_CQ_CFG of completion ring k or of the event ring (4) (R500, R517); iface is written in every state. An enable of the event ring forgets the events that the host had not consumed
before, so that none of them keeps a new one away (R79 is silent; DESIGN CHOICE, log entry 139). -/
def cqCfgWrite (k : Nat) (v : Word) (s : State) : State :=
  let c := s.cq k
  if !bitOf v 0 && cqKept s k then s
  else
    let s := s.modCq k fun c => { c with dbErr := c.dbErr && !bitOf v 6, vector := fld v 8 6, coalN := fld v 16 8,
                                         coalUs := fld v 24 8, serial := bitOf v 1 }
    if c.state == .disabled then
      let log2 := fld v 2 4
      let s := s.modCq k fun c => { c with log2 := log2 }
      if bitOf v 0 && ringConfigOk s c.baseLo c.baseHi (bitOf v 1) log2 16 then
        let s := s.modCq k fun c => { c with en := true, state := .running, head := 0, tail := 0, phase := true,
                                             unsig := 0 }
        if k = 4 then evLostFlush (s.modSq fun q => { q with evOut := [] }) else s
      else s.modCq k fun c => { c with en := false }
    else if bitOf v 0 then s
    else s.modCq k fun c => { c with en := false, state := .disabled }

/-- A write of the configuration register of ring `ring`: 0 to 3 command, 4 to 7 completion, 8 event. -/
def ringCfgWrite (ring : Nat) (v : Word) (s : State) : State :=
  if ring < 4 then crCfgWrite ring v s else cqCfgWrite (ring - 4) v s

/-- RING_ENABLE (R500): the write has en = 1. -/
def execRingEnable (i : Iface) (ring : Fin 9) (v : Word) (s : State) : Host.Outcome State Fault Refusal :=
  .next (regAccess i 0x1108 (ringCfgWrite ring.val (putFld v 0 1 1)) s)

/-- RING_DISABLE (R500): the write has en = 0. -/
def execRingDisable (i : Iface) (ring : Fin 9) (v : Word) (s : State) : Host.Outcome State Fault Refusal :=
  .next (regAccess i 0x1108 (ringCfgWrite ring.val (putFld v 0 1 0)) s)

/-! ## The order of the host DMA slots (R33) -/

/-- The head that the host DMA engine would drain from queue q. -/
def drainHead (s : State) (q : Nat) : Option Item :=
  if queueExists s q && (s.queue q).consumer == 1 then headItem s q else none

/-- The order in which requests for the host DMA slots arose (R33): an item of a HOST_DMA queue with its commit record. -/
def drainKey (q : Nat) (i : Item) : Nat × Nat := (2 * i.seq + 1, q)

/-- The order in which requests for the host DMA slots arose (R33): a submission after the commit records before it,
submissions in the order in which their commands were fetched. -/
def subKey (c : Cmd) (b : Submission) : Nat × Nat := (2 * b.arr, c.seq)

/-- Request `a` arose before request `b`. -/
def keyBefore (a b : Nat × Nat) : Bool := decide (a.1 < b.1 ∨ (a.1 = b.1 ∧ a.2 < b.2))

/-- The order in which requests for the host DMA slots arose (R33): a completion with its completion point. -/
def compKey (c : Cmd) : Nat × Nat := (2 * c.arr, c.seq)

/-- The entry of ring r's completion waits to be written: its completion ring has room, and R488 does not discard it. -/
def compDue (s : State) (r : Nat) : Option (Nat × Nat) :=
  match (s.cr r).cmd with
  | some c => if c.comp.isSome && !c.discard && cqRoom (s.cq r) then some (compKey c) else none
  | none => none

/-- The ring and DMA transfers that wait for the host DMA slots (R33), with the submissions that back-pressure has refused or without
them. Window and BAR2 accesses are served before them, in the command that makes them, so that none ever waits (log entry 131). -/
def hostRequests (s : State) (refused : Bool) : List (Nat × Nat) :=
  s.sq.crs.filterMap (fun e => match e.2.cmd with
    | some c => if c.comp.isSome then none else
        match c.sub with
        | some b => if b.waited && !refused then none else some (subKey c b)
        | none => none
    | none => none)
  ++ (List.range 4).filterMap (compDue s)
  ++ (List.range 256).filterMap (fun q => (drainHead s q).map (drainKey q))

/-- No transfer of the host DMA engine that arose earlier waits (R33). -/
def hostFirst (s : State) (k : Nat × Nat) : Bool := (hostRequests s true).all fun e => !keyBefore e k

/-- A transfer that arises now is served now: nothing waits but submissions that back-pressure has refused, whose next attempts come
after it (R31, R33, log entry 155). -/
def hostIdle (s : State) : Bool := (hostRequests s false).isEmpty

/-! ## Fetch and completion -/

/-- Ring r has an entry to fetch and nothing in progress (R499). -/
def fetchable (s : State) (r : Nat) : Bool :=
  let c := s.cr r
  c.state == .running && c.head != c.tail && c.cmd.isNone

/-- The ring fetched next: round-robin in ring-number order (R499). -/
def nextRing (s : State) : Option Nat :=
  ((List.range 4).map fun i => (s.sq.lastRing + 1 + i) % 4).find? (fetchable s)

/-- Ring r takes a packet: its head moves on, and the command waits to begin. -/
def takePacket (r : Nat) (ws : List Word) (s : State) : State :=
  let s := s.modCr r fun c => { c with
    head := (c.head + 1) % 2 ^ c.log2
    cmd := some { words := (List.range 8).map (wd ws), seq := s.sq.fetched, begun := false, dma := false,
                  discard := false, sub := none, aux := [], comp := none } }
  s.modSq fun q => { q with fetched := q.fetched + 1, lastRing := r }

/-- The sequencer fetches the next entry (R499, R500): over PCI Express the entry or the failure of its read is the
command's operand; over the serial port the entry lies in staging. -/
def fetchNext (entry : Dma) (s : State) : State :=
  match nextRing s with
  | none => s
  | some r =>
    let c := s.cr r
    if c.serial then
      let off := baseOf c.baseLo c.baseHi + 32 * c.head
      if off + 32 ≤ s.sq.stgCells * 60 then takePacket r (wordsOf (stgRead s off 32) 8) s
      else haltRing r 8 (s.modSq fun q => { q with lastRing := r })
    else match entry with
      | .good ws => takePacket r ws s
      | .bad k _ => haltRing r (hlCode k + 1) (hostFault k (s.modSq fun q => { q with lastRing := r }))

/-- COMMAND_FETCH (R33, R499, R500), in a host DMA slot. -/
def execCommandFetch (entry : Dma) (s : State) : Host.Outcome State Fault Refusal :=
  .next (if ringsUsable s && (nextRing s).isSome && hostIdle s then inSlot .hostDma (fetchNext entry) s else s)

/-- Ring r's command leaves it; a DISABLING ring is then DISABLED (R500). -/
def retire (r : Nat) (s : State) : State :=
  s.modCr r fun c => { c with cmd := none, state := if c.state == .disabling then .disabled else c.state }

/-- COMPLETION_WRITE (R502, R504): the entry is written once its completion ring has room; a completion that R488
discards is written nowhere. An entry beyond staging halts the completion ring (R500, read as holding for every ring: DEDUCED,
log entry 144). -/
def writeCompletion (r : Nat) (s : State) : State :=
  match (s.cr r).cmd with
  | some c =>
    match c.comp with
    | some e =>
      if c.discard then retire r s
      else if cqRoom (s.cq r) && !cqEntryOk s r then
        raise 0x01 (r + 4) [(16, r + 4), (8, 8)] (s.modCq r fun c => { c with state := .halted })
      else if cqRoom (s.cq r) then
        retire r (cqWrite r 1 [packW [(0, 16, pTag c.words), (16, 8, pOpcode c.words)],
          packW [(0, 8, e.status), (8, 2, r)], e.r0, e.r1] s)
      else s
    | none => s
  | none => s

/-- COMPLETION_WRITE, in a host DMA slot when it is the entry's turn (R33): while the core is powered, and not past the end of an entry
to SLEEP or HIBERNATE (R489). -/
def execCompletionWrite (r : Fin 4) (s : State) : Host.Outcome State Fault Refusal :=
  .next (
    if coreLive s then
      match compDue s r.val with
      | some k => if hostFirst s k then inSlot .hostDma (writeCompletion r.val) s else s
      | none => writeCompletion r.val s
    else s)

/-- COALESCE_TIMEOUT (R511): coal_us after the first unsignalled entry the ring signals its vector. -/
def execCoalesceTimeout (k : Fin 5) (s : State) : Host.Outcome State Fault Refusal :=
  .next (if (s.cq k.val).unsig = 0 then s else cqSignal k.val s)

/-- The command of ring r waits for a DMA read. -/
def dmaWaits (s : State) (r : Nat) : Bool :=
  match (s.cr r).cmd with
  | some c => c.begun && c.dma && c.comp.isNone
  | none => false

/-! ## Serial host port and PCI Express -/

/-- The value of GL_BOOT phase (R457): B3_FAILED reads 5. -/
def phaseCode : Phase → Nat
  | .b0 => 0
  | .b2 => 2
  | .b3 => 3
  | .service => 4
  | .failed => 5

/-- SERIAL_STATUS (R490): [0] the last WRITE was discarded, [1] HS_IRQ_N asserted, [4:2] GL_BOOT phase. Other than 10 clocks are a
framing error (R514). -/
def execSerialStatus (s : State) (clocks : Nat := 10) : Host.Outcome State Fault Refusal :=
  .next (
    if !coreLive s then s
    else
      let t := s.emit (.serialStatus (b1 s.sq.serialBad + 2 * b1 (irqLow s) + 4 * phaseCode s.boot.phase))
      if clocks = 10 then t else hostFault .serialFrame t)

/-- SERIAL_UNKNOWN_INSTRUCTION (R491). -/
def execSerialUnknownInstruction (s : State) : Host.Outcome State Fault Refusal :=
  .next (if coreLive s then hostFault .serialFrame s else s)

/-- PCIE_LINK_DOWN (R489, R514): outside SLEEP or HIBERNATE entry the loss of L0 is a host-link fault. -/
def execPcieLinkDown (s : State) : Host.Outcome State Fault Refusal :=
  let t := s.modSq fun q => { q with linkUp := false, linkWidth := 0, linkSpeed := false }
  .next (if s.pw.awake && s.sq.linkUp then hostFault .linkDown t else t)

/-- PCIE_LINK_UP (R486, R489): width in lanes, `fast` at 5 GT/s. -/
def execPcieLinkUp (two fast : Bool) (s : State) : Host.Outcome State Fault Refusal :=
  .next (if coreLive s then s.modSq fun q => { q with linkUp := true, linkWidth := if two then 2 else 1, linkSpeed := fast } else s)

/-- PCIE_BAD_TLP (R514): the TLP is discarded; a poisoned one, or one with a failed ECRC. -/
def execPcieBadTlp (poisoned : Bool) (s : State) : Host.Outcome State Fault Refusal :=
  .next (if coreLive s then hostFault (if poisoned then .poisoned else .ecrc) s else s)

/-- A command whose ring has been reset runs on, begun or not, and its completion is discarded (R488). -/
def orphan (c : Option Cmd) : Option Cmd := c.map fun d => { d with discard := true }

/-- PE_PERST_N (R440, R488): only the endpoint is reset; the rings of PCI Express go to DISABLED, a command of theirs
in progress runs on and its completion is discarded. The MSI-X table and pending bits are the endpoint's own state
(log entry 12). -/
def execPePerstN (s : State) : Host.Outcome State Fault Refusal :=
  let s := (List.range 4).foldl (fun s r =>
    if (s.cr r).serial then s else
      s.modCr r fun c => { c with en := false, state := .disabled, cmd := orphan c.cmd }) s
  let s := (List.range 5).foldl (fun s k =>
    if (s.cq k).serial then s else s.modCq k fun c => { c with en := false, state := .disabled }) s
  .next (s.modSq fun q => { q with linkUp := false, linkWidth := 0, linkSpeed := false, msix := [], msixPend := 0, ep := Endpoint.reset })

/-! ## Staging (R493) -/

/-- The sum of min over the existing queues (R173). -/
def minSum (s : State) : Nat :=
  s.pool.queues.foldl (fun a e => a + (if e.2.state == .none then 0 else e.2.min)) 0

/-- A write of SQ_STG (R493, R515): the value that stands changes nothing (log entry 150), another
non-zero value is refused. -/
def stgCfgWrite (v : Word) (s : State) : State :=
  let n := fld v 0 15
  let s := s.modSq fun q => { q with stgErr := q.stgErr && !bitOf v 15 }
  if n = 0 then poolLow (s.modSq fun q => { q with stgCells := 0 })
  else if n = s.sq.stgCells then s
  else if s.sq.stgCells = 0 ∧ n ≤ 18432 ∧ minSum s ≤ 65536 - n
      ∧ (s.pool.owner.all fun e => decide (e.1 < 65536 - n)) then
    poolLow (s.modSq fun q => { q with stgCells := n })
  else s.modSq fun q => { q with stgErr := true }

/-- STAGING_SET (R493): a non-zero write of stg_cells. -/
def execStagingSet (i : Iface) (v : Word) (s : State) : Host.Outcome State Fault Refusal :=
  .next (regAccess i 0x1008 (stgCfgWrite v) s)

/-- STAGING_RELEASE (R493): a write of 0 to stg_cells. -/
def execStagingRelease (i : Iface) (v : Word) (s : State) : Host.Outcome State Fault Refusal :=
  .next (regAccess i 0x1008 (stgCfgWrite (putFld v 0 15 0)) s)

/-! ## GL_KEY (R530, R531) -/

/-- A write of GL_KEY (R531): in a class-3 safe state every write is ignored. Another code than those of the table
takes the first code back; it leaves an unlocked key unlocked. -/
def keyWrite (i : Iface) (v : Word) (s : State) : State :=
  let k := fld v 0 16
  if s.vx.safe then s
  else if k = 0x5A5A ∧ (s.gl.unlocked ∨ !s.gl.armed) then
    s.modGl fun g => { g with armed := true, armSerial := isSerial i }
  else if k = 0xA5A5 ∧ s.gl.armed ∧ s.gl.armSerial = isSerial i then
    s.modGl fun g => { g with armed := false, unlocked := true, bySerial := isSerial i }
  else if k = 0 then s.modGl fun g => { g with armed := false, unlocked := false }
  else s.modGl fun g => { g with armed := false }

/-- GL_KEY_ARM (R531). -/
def execGlKeyArm (i : Iface) (s : State) : Host.Outcome State Fault Refusal :=
  .next (regAccess i 0x10 (keyWrite i 0x5A5A#32) s)
/-- GL_KEY_UNLOCK (R531). -/
def execGlKeyUnlock (i : Iface) (s : State) : Host.Outcome State Fault Refusal :=
  .next (regAccess i 0x10 (keyWrite i 0xA5A5#32) s)
/-- GL_KEY_LOCK (R531). -/
def execGlKeyLock (i : Iface) (s : State) : Host.Outcome State Fault Refusal :=
  .next (regAccess i 0x10 (keyWrite i 0#32) s)
/-- GL_KEY_OTHER_CODE (R531). -/
def execGlKeyOtherCode (i : Iface) (v : Word) (s : State) : Host.Outcome State Fault Refusal :=
  .next (regAccess i 0x10 (keyWrite i v) s)
/-- KEY_ARM_TIMEOUT (R531): 100 us after the first code. -/
def execKeyArmTimeout (s : State) : Host.Outcome State Fault Refusal :=
  .next (s.modGl fun g => { g with armed := false })
/-- KEY_RELOCK_TIMEOUT (R531): relock_us after an unlock; the key is LOCKED, a first code written since gone with it; with relock_us 0 there is none (R530). -/
def execKeyRelockTimeout (s : State) : Host.Outcome State Fault Refusal :=
  .next (if s.gl.relockUs = 0 then s else s.modGl fun g => { g with unlocked := false, armed := false })

end Sys2Proof.Machine
end

