-- ==== Sys2Proof/Machine/Elements.lean ====
section
/-!
DEFINITION. Lattice's elements (chapter 5): their fields, how they match, the walk, the resolution of a verdict, and the
check that a commit makes of a region.
-/
namespace Sys2Proof.Machine

/-! ## Fields (R119 to R122) -/

/-- Element type (R120). -/
def eType (a : DWord) : Nat := fld64 a 61 3
/-- cont. -/
def eCont (a : DWord) : Bool := bitOf64 a 60
/-- fmask. -/
def eFmask (a : DWord) : Nat := fld64 a 57 3
/-- ext. -/
def eExt (a : DWord) : Bool := bitOf64 a 56
/-- Action (R121). -/
def eAct (a : DWord) : Nat := fld64 a 53 3
/-- Target. -/
def eTarget (a : DWord) : Nat := fld64 a 43 10
/-- Class. -/
def eClass (a : DWord) : Nat := fld64 a 39 4
/-- cfd. -/
def eCfd (a : DWord) : Bool := bitOf64 a 38
/-- Double-width: ext = 1, or XL_TAG (R119). -/
def eDouble (a : DWord) : Bool := eType a != 0 && (eExt a || eType a == 4)

/-- The identifiers a and b of RANGE, DUAL, MASK and OWNED (R122). -/
def eIdA (a : DWord) : Nat := if eExt a then fld64 a 0 29 else fld64 a 0 11
/-- See `eIdA`. -/
def eIdB (a b : DWord) : Nat := if eExt a then fld64 b 0 29 else fld64 a 16 11

/-- `x` equals `v` in every bit where `m` is 1 (R123). -/
def maskEq (x v m : Nat) : Bool := x &&& m == v &&& m

/-- The element with words `a`, `b` matches an identifier (R123). -/
def eMatches (a b : DWord) (ide : Bool) (ident : Nat) (rtr : Bool) : Bool :=
  let t := eType a
  (ide == eExt a) &&
  (if t = 1 ∨ t = 6 then decide (eIdA a ≤ ident ∧ ident ≤ eIdB a b)
   else if t = 2 then ident == eIdA a || ident == eIdB a b
   else if t = 3 then maskEq ident (eIdA a) (eIdB a b)
   else if t = 4 then maskEq ident (fld64 a 0 11) (fld64 a 16 11)
   else if t = 5 then maskEq ident (fld64 a 0 11) (fld64 a 11 11)
   else false) &&
  (t == 4 || t == 5 || !bitOf64 a 31 || bitOf64 a 30 == rtr)

/-- fmask holds for a format (R124); format 3 matches CC or FD. -/
def fmaskHolds (a : DWord) (fmt : Nat) : Bool :=
  if fmt = 0 then bitOf64 a 57 else if fmt = 1 then bitOf64 a 58 else if fmt = 2 then bitOf64 a 59
  else bitOf64 a 57 || bitOf64 a 58

/-- The SDT, SEC and VCID conditions of an XL_TAG element (R123). -/
def tagHolds (b : DWord) (f : Frame) : Bool :=
  maskEq f.sdt.toNat (fld64 b 0 8) (fld64 b 8 8) && maskEq f.vcid.toNat (fld64 b 16 8) (fld64 b 24 8)
  && (!bitOf64 b 32 || bitOf64 b 33 == f.sec)

/-- A candidate ends the walk when it is unconditional with cont = 0 (R125). -/
def eFinal (a : DWord) : Bool := eFmask a == 7 && (eType a == 1 || eType a == 2 || eType a == 3) && !eCont a

/-! ## The table -/

/-- The element index (half [13], channel [12:9], position [8:0]). -/
def elemIdx (half : Bool) (n p : Nat) : Nat := (if half then 8192 else 0) + 512 * n + p

/-- The element at an index. -/
def elemAt (s : State) (i : Nat) : DWord := mget 0#64 s.lat.elems i

/-- Writes an element with fresh check bits. -/
def setElem (i : Nat) (d : DWord) (s : State) : State :=
  s.modLat fun l => { l with elems := if d = 0#64 then mdel l.elems i else mset l.elems i d, elemErr := mdel l.elemErr i }

/-! ## The walk (R125, R126) -/

/-- A candidate of the verdict record: its element index and words. -/
structure Cand where
  index : Nat
  a     : DWord
  b     : DWord
deriving DecidableEq, Repr

/-- What a walk gives: the candidates, the owned match, whether it stopped at eight, the position at which it ended,
the indexes corrected on the way and the index of an uncorrectable word (R151, R152). -/
structure Walk where
  cands : List Cand
  owned : Bool
  limit : Bool
  stop  : Nat
  corr  : List Nat
  bad   : Option Nat
deriving DecidableEq, Repr

/-- The walk of R125 from position `p` on, over the words and stored errors of the table. -/
def walkFrom (l : Lat) (half : Bool) (n : Nat) (ide : Bool) (ident : Nat) (rtr : Bool) : Nat → Nat → Walk → Walk
  | 0, _, w => { w with stop := 511 }
  | fuel + 1, p, w =>
    if 511 < p then { w with stop := 511 }
    else
      let i := elemIdx half n p
      let a := mget 0#64 l.elems i
      let ea := mget 0 l.elemErr i
      let dbl := eDouble a && decide (p < 511)
      let eb := if dbl then mget 0 l.elemErr (i + 1) else 0
      let b := if dbl then mget 0#64 l.elems (i + 1) else 0#64
      let w := if ea = 1 then { w with corr := w.corr ++ [i] } else w
      if ea = 2 then { w with bad := some i, stop := p }
      else if eType a = 0 then { w with stop := p }
      else if eb = 2 then { w with bad := some (i + 1), stop := p }
      else
        let w := if eb = 1 then { w with corr := w.corr ++ [i + 1] } else w
        let next := p + (if eDouble a then 2 else 1)
        if !eMatches a b ide ident rtr then walkFrom l half n ide ident rtr fuel next w
        else if eType a = 6 then walkFrom l half n ide ident rtr fuel next { w with owned := true }
        else
          let w := { w with cands := w.cands ++ [{ index := i, a := a, b := b }], stop := p }
          if 8 ≤ w.cands.length then { w with limit := true }
          else if eFinal a then w
          else walkFrom l half n ide ident rtr fuel next w

/-- The walk of a channel's region (R125). -/
def walk (s : State) (half : Bool) (n : Nat) (ide : Bool) (ident : Nat) (rtr : Bool) : Walk :=
  walkFrom s.lat half n ide ident rtr 512 0
    { cands := [], owned := false, limit := false, stop := 0, corr := [], bad := none }

/-! ## ECC (R151, R152) -/

/-- A single-bit error in an element was corrected in the read path (R151). -/
def corrected (i : Nat) (s : State) : State :=
  let act := activeHalf s (i / 512 % 16)
  let key := i + (if act then 16384 else 0)
  let s := s.modLat fun l => { l with corrIdx := i, corrSeen := true, corrGate := false,
                                      backs := if l.backs.contains key then l.backs else l.backs ++ [key] }
  vxAssert 17 (w32 i) (raise 0x21 (i / 512 % 16) [] s)

/-- A double-bit error in an element is recorded with 0x22 (R152, R153). -/
def uncorrectable (i : Nat) (s : State) : State :=
  let s := if s.lat.uncSeen then s else
    s.modLat fun l => { l with uncIdx := i, uncSeen := true, uncGate := false }
  raise 0x22 (i / 512 % 16) [] s

/-- The ECC effects of a walk: corrections, then the uncorrectable word with source 16 (R152). -/
def walkEcc (w : Walk) (s : State) : State :=
  let s := w.corr.foldl (fun s i => corrected i s) s
  match w.bad with
  | some i => vxAssert 16 (w32 i) (uncorrectable i s)
  | none => s

/-- A single-bit error in a gate word was corrected (R151). -/
def gateCorrected (g : Nat) (s : State) : State :=
  let s := s.modLat fun l => { l with corrIdx := g, corrSeen := true, corrGate := true,
                                      gateBacks := if l.gateBacks.contains g then l.gateBacks else l.gateBacks ++ [g] }
  vxAssert 17 (packW [(0, 8, g), (15, 1, 1)]) (raise 0x21 (0x100 + g) [] s)

/-- A double-bit error in a gate word is recorded with 0x22. -/
def gateUncorrectable (g : Nat) (s : State) : State :=
  let s := if s.lat.uncSeen then s else
    s.modLat fun l => { l with uncIdx := g, uncSeen := true, uncGate := true }
  raise 0x22 (0x100 + g) [] s

/-! ## Claim gates (R143 to R148) -/

/-- The gate's highest becomes `v`; reaching 0xFFFF saturates it (R148), also by a host write while the gate is OFF, where
the table's row names ARMED alone (DESIGN CHOICE, log entry 135). -/
def setHighest (g v : Nat) (s : State) : State :=
  let was := (s.gate g).sat
  let s := s.modGate g fun e => { e with highest := v, sat := v == 0xFFFF }
  if v = 0xFFFF ∧ !was then raise 0x24 (0x100 + g) [] s else s

/-- A gate is armed by a frame's claim (R148). -/
def armGate (g claim : Nat) (s : State) : State :=
  raise 0x25 (0x100 + g) [] (setHighest g claim (s.modGate g fun e => { e with armed := true, armTime := some s.tm.now }))

/-- The reason for which a gate rejects a frame of this format and acceptance field, or none (R143). -/
def gateReason (e : Gate) (xl : Bool) (af : Word) : Option Nat :=
  if !e.en then some 4
  else if !xl then some 3
  else if fld af 4 12 ≠ e.pairAddr ∨ fld af 0 4 ≠ 0 then some 2
  else if !e.armed then some 1
  else if fld af 16 16 < e.highest then some 0
  else none

/-- A gate's word is read (R151, R152): a single-bit error is corrected, a double-bit error clears armed and highest. -/
def gateRead (g : Nat) (s : State) : State :=
  let err := mget 0 s.lat.gateErr g
  if err = 2 then
    let s := vxAssert 16 (packW [(0, 8, g), (15, 1, 1)]) (gateUncorrectable g s)
    let s := s.modGate g fun e => { e with armed := false, highest := 0, sat := false }
    s.modLat fun l => { l with gateErr := mdel l.gateErr g }
  else if err = 1 then gateCorrected g s
  else s

/-- The gate's verdict at the settling point (R143): a double-bit error in its word rejects with reason UNARMED (R152). -/
def judgeGate (g : Nat) (xl : Bool) (af : Word) (s : State) : State × Option Nat :=
  let t := gateRead g s
  (t, if mget 0 s.lat.gateErr g = 2 then some 1 else gateReason (t.gate g) xl af)

/-- A claim raises the highest of a gate (R145, R146), unless the host has written it in the same core cycle (R147). -/
def raiseGate (g claim : Nat) (s : State) : State :=
  if (s.gate g).highest < claim ∧ (s.gate g).hostTime ≠ some s.tm.now then setHighest g claim s else s

/-- At frame valid, what a gate said of the frame takes effect (R145, R148): a pass raises the highest; a rejection is
counted and raises 0x23, asserts source 42 for PAIR and FORMAT, and arms a gate of arm_mode 1 against which only
UNARMED stood; in the core cycle of an arming it raises the claim that armed it (R147). Updates at one value of the time base are
taken as those of one core cycle (DESIGN CHOICE, log entry 158). -/
def gateAtValid (n : Nat) (u : GateUse) (s : State) : State :=
  let s := gateRead u.gate s
  match u.reason with
  | none => if (s.gate u.gate).armed then raiseGate u.gate u.claim s else s
  | some r =>
    let s := s.modGate u.gate fun e => { e with rejects := satInc 4095 e.rejects }
    let s := raise 0x23 (0x100 + u.gate) [(8, u.gate), (8, r), (16, u.claim)] (bump n 0x34 s)
    let s := if r = 2 ∨ r = 3 then vxAssert 42 (packW [(0, 8, u.gate), (8, 4, n)]) s else s
    let e := s.gate u.gate
    if u.sole ∧ r = 1 ∧ e.en ∧ e.armMode then
      if !e.armed then armGate u.gate u.claim s
      else if e.armTime = some s.tm.now then raiseGate u.gate u.claim s else s
    else s

/-- A claim-bearing BDP frame is valid (R146): every enabled gate of its pair rises, or arms. -/
def claimSeen (sender claim : Nat) (s : State) : State :=
  (List.range 256).foldl (fun s g =>
    let e := s.gate g
    if e.en && e.pairAddr == sender / 2 * 2 then
      let s := gateRead g s
      if (s.gate g).armed then raiseGate g claim s else armGate g claim s
    else s) s

/-! ## Resolution (R127, R128, R132) -/

/-- The destinations of a frame with the element index of each, its check unit, the gates it met, whether it stopped at
four destinations with cont = 1, and how it came out. -/
structure Resolution where
  dests : List (Dest × Nat)
  check : Option (Nat × Bool)
  gates : List GateUse
  cut   : Bool
  held  : Bool
  ended : Verdict
deriving DecidableEq, Repr

/-- The destination an element names, or none. -/
def eDest (a : DWord) : Option Dest :=
  if eAct a = 1 then some (.queue (eTarget a % 256) (eClass a))
  else if eAct a = 2 then some (.route (eTarget a))
  else if eAct a = 3 then some (.bind (eTarget a))
  else none

/-- Two destinations name the same queue, route or context (R128). -/
def sameDest : Dest → Dest → Bool
  | .queue q _, .queue p _ => q == p
  | .route q, .route p => q == p
  | .bind q, .bind p => q == p
  | _, _ => false

/-- The action of a candidate whose condition holds, and whether resolution goes on (R127, R128). -/
def takeAction (c : Cand) (r : Resolution) : Resolution × Bool :=
  let r := { r with held := true }
  if eAct c.a = 0 then ({ r with ended := .dropped }, eCont c.a)
  else if eAct c.a = 4 then
    ({ r with check := match r.check with
                | none => some (eTarget c.a % 32, eCfd c.a)
                | some k => some k }, eCont c.a)
  else match eDest c.a with
    | none => (r, eCont c.a)
    | some d =>
      if r.dests.any fun e => sameDest e.1 d then (r, eCont c.a)
      else
        let r := { r with dests := r.dests ++ [(d, c.index)] }
        if r.dests.length = 4 then ({ r with cut := eCont c.a }, false) else (r, eCont c.a)

/-- The resolution of the candidates in order (R127). -/
def resolveFrom (f : Frame) (fmt : Nat) : List Cand → State × Resolution → State × Resolution
  | [], sr => sr
  | c :: t, sr =>
    if eType c.a = 5 then
      let g := fld64 c.a 22 8
      let v := judgeGate g (fmt == 2) f.af sr.1
      let use := { gate := g, reason := v.2, claim := fld f.af 16 16,
                   sole := gateReason (v.1.gate g) (fmt == 2) f.af == some 1 : GateUse }
      let r := { sr.2 with gates := sr.2.gates ++ [use] }
      match v.2 with
      | some _ => (v.1, { r with held := true, ended := .dropped })
      | none =>
        let x := takeAction c r
        if x.2 then resolveFrom f fmt t (v.1, x.1) else (v.1, x.1)
    else if fmaskHolds c.a fmt && (eType c.a != 4 || tagHolds c.b f) then
      let x := takeAction c sr.2
      if x.2 then resolveFrom f fmt t (sr.1, x.1) else (sr.1, x.1)
    else resolveFrom f fmt t sr

/-- The channel default (R132): `def` is LT_CH_DEF as latched at SOF, `stop` the index of the position at which the
walk ended (R130). -/
def defaultDest (s : State) (dw : Word) (stop : Nat) : List (Dest × Nat) :=
  if fld dw 0 3 = 1 ∧ (s.queue (fld dw 8 8)).state ≠ .none then [(.queue (fld dw 8 8) (fld dw 16 4), stop)] else []

/-- The verdict of a frame from its walk (R127, R132, R152). -/
def resolve (w : Walk) (half : Bool) (n : Nat) (dw : Word) (f : Frame) (fmt : Nat) (s : State) : State × Resolution :=
  let r0 : Resolution := { dests := [], check := none, gates := [], cut := false, held := false, ended := .pending }
  match w.bad with
  | some _ => (s, { r0 with ended := .uncorrectable })
  | none =>
    let x := resolveFrom f fmt w.cands (s, r0)
    if x.2.held then (x.1, { x.2 with ended := if x.2.dests.isEmpty then x.2.ended else .delivered })
    else (x.1, { x.2 with dests := defaultDest x.1 dw (elemIdx half n w.stop), ended := .nomatch })

/-! ## The check of a region (R137) -/

/-- A route exists (R232). -/
def routeAdded (s : State) (r : Nat) : Bool := bitOf (mget Route.reset s.cd.routes r).cfg 1

/-- The bits of words A and B that R119, R120 and R122 reserve as 0. -/
def reservedBits (a b : DWord) : Bool :=
  let t := eType a
  fld64 a 32 6 != 0 ||
  (if t = 0 then fld64 a 0 32 != 0 || fld64 a 56 5 != 0
   else if t = 4 then fld64 a 11 5 != 0 || fld64 a 27 5 != 0 || fld64 b 34 30 != 0
   else if t = 5 then fld64 a 30 2 != 0
   else if eExt a then fld64 a 29 1 != 0 || fld64 b 29 35 != 0
   else fld64 a 11 5 != 0 || fld64 a 27 3 != 0)

/-- The reason of R137 for which the element at position p fails, or 0: the table read from the top. -/
def elementFault (s : State) (p : Nat) (a b : DWord) : Nat :=
  let t := eType a
  if t = 7 then 0x01
  else if t ≠ 0 ∧ (eFmask a = 0 ∨ (eExt a ∧ 4 ≤ eFmask a)) then 0x02
  else if eDouble a ∧ p = 511 then 0x03
  else if reservedBits a b then 0x04
  else if 5 ≤ eAct a ∨ ((t = 0 ∨ t = 6) ∧ (eAct a ≠ 0 ∨ eTarget a ≠ 0 ∨ eClass a ≠ 0 ∨ eCfd a))
      ∨ (eClass a ≠ 0 ∧ eAct a ≠ 1) ∨ (eCfd a ∧ eAct a ≠ 4) then 0x05
  else if (eAct a = 1 ∧ (255 < eTarget a ∨ (s.queue (eTarget a)).state = .none))
      ∨ (eAct a = 2 ∧ !routeAdded s (eTarget a)) ∨ (eAct a = 3 ∧ 511 < eTarget a) ∨ (eAct a = 4 ∧ 31 < eTarget a) then
    0x06
  else if (t = 1 ∨ t = 6) ∧ eIdB a b < eIdA a then 0x07
  else if (t = 4 ∧ (eExt a ∨ eFmask a ≠ 4)) ∨ (t = 5 ∧ (eExt a ∨ eFmask a ≠ 7)) then 0x08
  else if t = 5 ∧ !(s.gate (fld64 a 22 8)).en then 0x09
  else 0

/-- The limit ELEMENT of LEGACY (R480). -/
def elementLimit (a : DWord) : Bool := eType a == 4 || eType a == 5 || eType a == 6 || bitOf64 a 59

/-- What the check of a region finds first: a position with the status and reason, with the positions read. -/
structure Finding where
  pos    : Nat
  status : Nat
  reason : Nat
deriving DecidableEq, Repr

/-- The check of a region's half from position p on (R137, R140). -/
def checkFrom (s : State) (half : Bool) (n : Nat) : Nat → Nat → Option Finding
  | 0, _ => none
  | fuel + 1, p =>
    if 511 < p then none
    else
      let i := elemIdx half n p
      let a := elemAt s i
      let b := if eDouble a && decide (p < 511) then elemAt s (i + 1) else 0#64
      if mget 0 s.lat.elemErr i = 2 ∨ (eDouble a ∧ p < 511 ∧ mget 0 s.lat.elemErr (i + 1) = 2) then
        some { pos := p, status := eCheck, reason := 0 }
      else if s.boot.profile && elementLimit a then some { pos := p, status := eProfile, reason := 0x06 }
      else if elementFault s p a b ≠ 0 then some { pos := p, status := eParam, reason := elementFault s p a b }
      else if eType a = 0 then none
      else checkFrom s half n fuel (p + (if eDouble a then 2 else 1))

/-- The check of the given half of region n. -/
def checkRegion (s : State) (half : Bool) (n : Nat) : Option Finding := checkFrom s half n 512 0

/-- The first finding over the channels of a list, with its channel. -/
def checkRegions (s : State) (half : Nat → Bool) : List Nat → Option (Nat × Finding)
  | [] => none
  | n :: t =>
    match checkRegion s (half n) n with
    | some f => some (n, f)
    | none => checkRegions s half t

/-- The elements of a region's half in use, with their positions, up to the first END. -/
def listFrom (s : State) (half : Bool) (n : Nat) : Nat → Nat → List DWord
  | 0, _ => []
  | fuel + 1, p =>
    if 511 < p then []
    else
      let a := elemAt s (elemIdx half n p)
      if eType a = 0 then [] else a :: listFrom s half n fuel (p + (if eDouble a then 2 else 1))

/-- An element of the region's half takes the action `act` on `target` (R192, R243). -/
def listNames (s : State) (half : Bool) (n act target : Nat) : Bool :=
  (listFrom s half n 512 0).any fun a =>
    eType a != 6 && eType a != 7 && eAct a == act && eTarget a == target

end Sys2Proof.Machine
end

