-- ==== Sys2Proof/Machine/Lattice.lean ====
section
/-!
DEFINITION. Lattice's commands, its element window, its gates' registers and its housekeeping turns (chapter 5).
-/
namespace Sys2Proof.Machine

/-- Changes to RWL fields take effect while GL_KEY is unlocked (R532). -/
def keyOpen (s : State) : Bool := s.gl.unlocked

/-! ## Regions in use (R136, R138, R140) -/

/-- The LT_WRITEs whose commands are still in progress. -/
def liveWrites (s : State) : List LtWrite :=
  s.lat.writes.filter fun w => (waiting s 0x20 fun _ => true).contains w.ring

/-- The mirror copy of region n runs (R139). -/
def copying (s : State) (n : Nat) : Bool := (mget none s.lat.copying n).isSome

/-- Region n is draining, copying or the target of an unfinished LT_WRITE. -/
def regionBusy (s : State) (n : Nat) : Bool :=
  draining s n || copying s n || (liveWrites s).any fun w => w.chan == n

/-- LT_ACTIVE (R154). -/
def ltActive (s : State) : Word :=
  w32 ((List.range 16).foldl (fun a n => a + b1 (activeHalf s n) * 2 ^ n + b1 (draining s n) * 2 ^ (16 + n)) 0)

/-! ## 0x20 LT_WRITE (R135) -/

/-- The elements that a byte run holds, each low word first. -/
def elemsOf (l : List Byte) (n : Nat) : List DWord :=
  (List.range n).map fun k => join64 (wordAt l (8 * k)) (wordAt l (8 * k + 4))

/-- The host's elements have arrived: Lattice's turns move them. -/
def ltWriteData (r : Nat) (data : List Byte) (s : State) : State :=
  let s := s.modCmd r fun c => { c with dma := false }
  s.modLat fun l => { l with writes := l.writes.map fun w =>
    if w.ring = r then { w with elems := elemsOf data w.total } else w }

/-- A read of the host's elements has failed (R496): those that came before it move, and the command then completes with `st`. -/
def ltWriteCut (r st : Nat) (info : Word) (before : List Byte) (s : State) : State :=
  let k := Nat.min (before.length / 8) (fld (pkt s r 2) 0 10)
  if k = 0 then
    complete r st 0 info (s.modLat fun l => { l with writes := l.writes.filter fun w => w.ring != r })
  else
    (s.modCmd r fun c => { c with dma := false }).modLat fun l => { l with writes := l.writes.map fun w =>
      if w.ring = r then { w with elems := elemsOf before k, total := k, fail := some (st, info) } else w }

/-- 0x20 LT_WRITE begins (R135, R140, R158). E_PARAM is judged before E_BUSY (the manual orders LT_COMMIT's checks alone: DESIGN
CHOICE, log entry 152). Bits of words 1 and 2 that R158 names for no field are ignored, here and in
the other Lattice commands (DESIGN CHOICE, log entry 138). -/
def ltWriteBody (r : Nat) (ws : List Word) (s : State) : State :=
  let n := fld (wd ws 1) 9 4
  let p := fld (wd ws 1) 0 9
  let k := fld (wd ws 2) 0 10
  if k = 0 ∨ 512 < p + k ∨ !addrOk s r (wd ws 3) (wd ws 4) (8 * k) then complete r eParam 0 0 s
  else if draining s n || copying s n || (s.lat.commits.any fun c => c.mask.testBit n) then complete r eBusy 0 0 s
  else
    let s := s.modLat fun l => { l with
      writes := l.writes.filter (fun w => w.ring != r) ++ [{ ring := r, chan := n, pos := p, elems := [], total := k }] }
    dataIn r (wd ws 3) (8 * k) (ltWriteData r) s

/-- LT_WRITE. -/
def execLtWrite (r : Fin 4) (s : State) : Host.Outcome State Fault Refusal :=
  .next (beginOp r.val 0x20 (ltWriteBody r.val) s)

/-- Writes a run of elements at rising positions of region n's shadow half. -/
def putElems (half : Bool) (n : Nat) : Nat → List DWord → State → State
  | _, [], s => s
  | p, d :: t, s => putElems half n (p + 1) t (setElem (elemIdx half n p) d s)

/-- One cell of 8 elements of an LT_WRITE moves into the table; the last one completes the command (R135). -/
def moveWrite (w : LtWrite) (s : State) : State :=
  let s := putElems (!activeHalf s w.chan) w.chan w.pos (w.elems.take 8) s
  let rest := w.elems.drop 8
  if rest.isEmpty then
    complete w.ring ((w.fail.map (·.1)).getD stOk) (w32 w.total) ((w.fail.map (·.2)).getD 0)
      (s.modLat fun l => { l with writes := l.writes.filter fun e => e.ring != w.ring })
  else
    s.modLat fun l => { l with writes := l.writes.map fun e =>
      if e.ring = w.ring then { e with pos := w.pos + 8, elems := rest } else e }

/-- The LT_WRITE that Lattice's turns serve: the oldest whose elements have arrived. -/
def writeDue (s : State) : Option LtWrite := (liveWrites s).find? fun w => !w.elems.isEmpty

/-- An ECC write-back waits for a turn of Lattice, which serves it before all else (R135). -/
def backWaits (s : State) : Bool := !s.lat.backs.isEmpty || !s.lat.gateBacks.isEmpty

/-- LT_WRITE_DONE (R32, R135): the turn of Lattice that moves the last cell of the LT_WRITE being served. -/
def execLtWriteDone (s : State) : Host.Outcome State Fault Refusal :=
  .next (match writeDue s with
    | some w => if latticeTurn s && !backWaits s && decide (w.elems.length ≤ 8) then inTurn (moveWrite w) s else s
    | none => s)

/-! ## Mirror copy (R139) -/

/-- Copies position p of region n from the active half to the shadow: a single-bit error is corrected (R151), a double-bit
error is copied with its word. -/
def copyElem (n p : Nat) (s : State) : State :=
  let i := elemIdx (activeHalf s n) n p
  let j := elemIdx (!activeHalf s n) n p
  let e := mget 0 s.lat.elemErr i
  let s := setElem j (elemAt s i) s
  if e = 2 then s.modLat fun l => { l with elemErr := mset l.elemErr j 2 }
  else if e = 1 then corrected i s else s

/-- One cell of the mirror copy of region n; the last raises 0x20 LT_COPY_DONE. -/
def moveCopy (n p : Nat) (s : State) : State :=
  let s := (List.range 8).foldl (fun s k => copyElem n (p + k) s) s
  if 512 ≤ p + 8 then raise 0x20 n [] (s.modLat fun l => { l with copying := mset l.copying n none })
  else s.modLat fun l => { l with copying := mset l.copying n (some (p + 8)) }

/-- The region whose mirror copy Lattice's turns serve: the lowest that copies. -/
def copyDue (s : State) : Option (Nat × Nat) :=
  (List.range 16).findSome? fun n => (mget none s.lat.copying n).map fun p => (n, p)

/-- LT_COPY_DONE (R32, R135, R139): the turn of Lattice that moves the last cell of the mirror copy of region ch. -/
def execLtCopyDone (ch : Fin 16) (s : State) : Host.Outcome State Fault Refusal :=
  .next (match copyDue s with
    | some (n, p) =>
      if latticeTurn s && !backWaits s && (writeDue s).isNone && n == ch.val && decide (504 ≤ p) then inTurn (moveCopy n p) s
      else s
    | none => s)

/-! ## Scrub and write-back (R151, R153) -/

/-- A corrected word is written back, unless its half has changed role since it was read. -/
def writeBack (key : Nat) (s : State) : State :=
  let i := key % 16384
  let wasActive := decide (16384 ≤ key)
  let s := s.modLat fun l => { l with backs := l.backs.filter (· != key) }
  let isActive := decide (8192 ≤ i) == activeHalf s (i / 512 % 16)
  let then' := decide (8192 ≤ i) == wasActive
  if isActive == then' && mget 0 s.lat.elemErr i == 1 then s.modLat fun l => { l with elemErr := mdel l.elemErr i } else s

/-- The scrub reads one cell of 8 words (R153): cells 0 to 1 023 are the active halves, 1 024 to 1 055 the gates. -/
def scrubCell (c : Nat) (s : State) : State :=
  if c < 1024 then
    let n := c / 64
    (List.range 8).foldl (fun s k =>
      let i := elemIdx (activeHalf s n) n (c % 64 * 8 + k)
      if mget 0 s.lat.elemErr i = 1 then corrected i s
      else if mget 0 s.lat.elemErr i = 2 then uncorrectable i s else s) s
  else
    (List.range 8).foldl (fun s k =>
      let g := (c - 1024) * 8 + k
      if mget 0 s.lat.gateErr g = 1 then gateCorrected g s
      else if mget 0 s.lat.gateErr g = 2 then gateUncorrectable g s else s) s

/-- The scrub's turn: one cell, and a pass counted after the last. -/
def scrubTurn (s : State) : State :=
  if s.lat.scrubEn then
    let c := s.lat.scrubPos
    let s := scrubCell c s
    s.modLat fun l => { l with scrubPos := if 1055 ≤ c then 0 else c + 1,
                               passes := if 1055 ≤ c then (l.passes + 1) % 65536 else l.passes }
  else s

/-- Lattice has work for its turn (R135, R153). -/
def latPending (s : State) : Bool :=
  backWaits s || (writeDue s).isSome || (copyDue s).isSome || s.lat.scrubEn

/-- One of Lattice's housekeeping turns (R135): ECC write-back, LT_WRITE, the mirror copy, the scrub. -/
def latTurn (s : State) : State :=
  match s.lat.backs with
  | k :: _ => writeBack k s
  | [] =>
    match s.lat.gateBacks with
    | g :: _ => s.modLat fun l => { l with
        gateBacks := l.gateBacks.filter (· != g)
        gateErr := if mget 0 l.gateErr g = 1 then mdel l.gateErr g else l.gateErr }
    | [] =>
      match writeDue s with
      | some w => moveWrite w s
      | none =>
        match copyDue s with
        | some (n, p) => moveCopy n p s
        | none => scrubTurn s

/-! ## 0x21 LT_COMMIT (R137 to R140) -/

/-- The channels of a 16-bit mask, in rising order. -/
def maskList (m : Nat) : List Nat := (List.range 16).filter fun n => m.testBit n

/-- The halves of the channels in the mask swap; a half that a frame still awaits drains (R138), otherwise it becomes
the shadow at once and, with copy = 1, its mirror copy begins (R139). -/
def swapHalves (mask : Nat) (copy : Bool) (s : State) : State :=
  (maskList mask).foldl (fun s n =>
    let old := activeHalf s n
    let d := awaitsWalk s n old
    s.modLat fun l => { l with active := mset l.active n (!old), drain := mset l.drain n d,
                               copying := if copy && !d then mset l.copying n (some 0) else l.copying }) s

/-- A commit whose channels have all drained completes (R138). Ring 4 stands for an image commit (R452). -/
def commitDone (c : LtCommit) (s : State) : State :=
  if (maskList c.mask).any (draining s) then s
  else
    let s := s.modLat fun l => { l with commits := l.commits.filter fun e => e != c }
    if c.ring < 4 then complete c.ring stOk (ltActive s) 0 s else s

/-- A checked commit takes effect (R138). -/
def ltSwap (ring mask : Nat) (copy : Bool) (s : State) : State :=
  let s := swapHalves mask copy s
  let c : LtCommit := { ring := ring, mask := mask, copy := copy }
  commitDone c (s.modLat fun l => { l with commits := l.commits ++ [c] })

/-- The single-bit errors in the words of a region's half that a check or a read passes over are corrected (R151). -/
def correctRun (half : Bool) (n p k : Nat) (s : State) : State :=
  (List.range k).foldl (fun s j =>
    let i := elemIdx half n (p + j)
    if mget 0 s.lat.elemErr i = 1 then corrected i s else s) s

/-- How many positions of a region's half are in use, END included. -/
def listLength (s : State) (half : Bool) (n : Nat) : Nat → Nat → Nat
  | 0, _ => 512
  | fuel + 1, p =>
    if 511 < p then 512
    else
      let a := elemAt s (elemIdx half n p)
      if eType a = 0 then p + 1 else listLength s half n fuel (p + (if eDouble a then 2 else 1))

/-- How many words of the region the check has read when it ends at a finding. -/
def findingReads (s : State) (half : Bool) (n : Nat) (f : Finding) : Nat :=
  let i := elemIdx half n f.pos
  f.pos + 1 + b1 (mget 0 s.lat.elemErr i != 2 && eDouble (elemAt s i) && decide (f.pos < 511))

/-- The single-bit errors that the check of these regions has met, up to its finding, are corrected (R151). -/
def checkReads (half : Nat → Bool) (ns : List Nat) (x : Option (Nat × Finding)) (s : State) : State :=
  let whole := fun (s : State) n => correctRun (half n) n 0 (listLength s (half n) n 512 0) s
  match x with
  | none => ns.foldl whole s
  | some (m, f) => correctRun (half m) m 0 (findingReads s (half m) m f) ((ns.takeWhile (· != m)).foldl whole s)

/-- 0x21 LT_COMMIT (R137, R140); the limit CHANNEL of LEGACY is one of the shared checks. An uncorrectable element that the
check meets sets no unc_idx and raises no 0x22, as the manual says of walks and the scrub alone (DESIGN CHOICE, log
entry 137). -/
def ltCommitBody (r : Nat) (ws : List Word) (s : State) : State :=
  let mask := fld (wd ws 1) 0 16
  let half := fun n => !activeHalf s n
  if mask = 0 then complete r eParam 0 0 s
  else if (maskList mask).any (regionBusy s) then complete r eBusy 0 0 s
  else
    let found := checkRegions s half (maskList mask)
    let s := checkReads half (maskList mask) found s
    match found with
    | some (n, f) =>
      if f.status = eCheck then complete r eCheck 0 0 s
      else complete r f.status (w32 (512 * n + f.pos)) (w32 f.reason) s
    | none => ltSwap r mask (bitOf (wd ws 2) 0) s

/-- LT_COMMIT. -/
def execLtCommit (r : Fin 4) (s : State) : Host.Outcome State Fault Refusal :=
  .next (beginOp r.val 0x21 (ltCommitBody r.val) s)

/-! ## 0x22 LT_READ and 0x23 LT_OWNED (R158) -/

/-- 0x22 LT_READ: corrected values; an uncorrectable element as stored, with E_CHECK and the first one's address, but with
no unc_idx and no 0x22, of which the manual speaks for walks and the scrub alone (DESIGN CHOICE, log entry 137). A count of 0,
above 512 or past position 511 ends with E_PARAM, as R158 says of LT_WRITE (DESIGN CHOICE, log entry 136). -/
def ltReadBody (r : Nat) (ws : List Word) (s : State) : State :=
  let n := fld (wd ws 1) 9 4
  let p := fld (wd ws 1) 0 9
  let k := fld (wd ws 2) 0 10
  if k = 0 ∨ 512 < p + k ∨ !addrOk s r (wd ws 3) (wd ws 4) (8 * k) then complete r eParam 0 0 s
  else
    let half := if bitOf (wd ws 2) 16 then activeHalf s n else !activeHalf s n
    let words := (List.range k).flatMap fun j =>
      let d := elemAt s (elemIdx half n (p + j))
      [lo32 d, hi32 d]
    let s := correctRun half n p k s
    let s := dataOut r (wd ws 3) (wd ws 4) words s
    match (List.range k).find? fun j => mget 0 s.lat.elemErr (elemIdx half n (p + j)) == 2 with
    | some j => complete r eCheck (w32 k) (w32 (512 * n + p + j)) s
    | none => complete r stOk (w32 k) 0 s

/-- LT_READ. -/
def execLtRead (r : Fin 4) (s : State) : Host.Outcome State Fault Refusal :=
  .next (beginOp r.val 0x22 (ltReadBody r.val) s)

/-- LT_OWNED_STAT (R157). -/
def ownedStat (s : State) : Word :=
  packW [(0, 4, s.lat.ownCh), (4, 1, b1 s.lat.ownIde), (5, 1, b1 s.lat.ownSeen), (16, 16, s.lat.ownCount)]

/-- 0x23 LT_OWNED. -/
def ltOwnedBody (r : Nat) (ws : List Word) (s : State) : State :=
  if s.lat.ownCount = 0 then complete r eNotFound 0 0 s
  else
    let id := s.lat.ownId
    let st := ownedStat s
    let s := if bitOf (wd ws 2) 0 then
        s.modLat fun l => { l with ownCh := 0, ownIde := false, ownSeen := false, ownCount := 0, ownId := 0 }
      else s
    complete r stOk (w32 id) st s

/-- LT_OWNED. -/
def execLtOwned (r : Fin 4) (s : State) : Host.Outcome State Fault Refusal :=
  .next (beginOp r.val 0x23 (ltOwnedBody r.val) s)

/-- A frame with an owned match is reported (R149). -/
def reportOwned (n : Nat) (ide : Bool) (ident : Nat) (s : State) : State :=
  let s := s.modLat fun l =>
    let l := { l with ownCount := satInc 0xFFFF l.ownCount }
    if l.ownSeen then l else { l with ownCh := n, ownIde := ide, ownId := ident, ownSeen := true }
  let s := raise 0x26 n [(8, n), (32, ident + (if ide then 2 ^ 31 else 0))] (bump n 0x38 s)
  vxAssert 43 (w32 n) s

/-! ## The element window (R136) -/

/-- The channel that window position `c` shows. -/
def winChan (s : State) (c : Nat) : Nat := 8 * s.lat.winGrp + c

/-- A write of a low word holds it; writes are ignored while half_sel = 1 and while the region is in use. -/
def winLow (c p : Nat) (v : Word) (s : State) : State :=
  let n := winChan s c
  if s.lat.winHalf || regionBusy s n then s else s.modLat fun l => { l with held := some (512 * n + p, v) }

/-- An element's high word is written over its stored low word, which is read for it: a single-bit error is corrected (R151). -/
def keepLow (i : Nat) (v : Word) (s : State) : State :=
  setElem i (join64 (lo32 (elemAt s i)) v) (if mget 0 s.lat.elemErr i = 1 then corrected i s else s)

/-- A write of a high word writes the element, with the low word held for the position or else the stored one; a low
word held for another position is discarded. -/
def winHigh (c p : Nat) (v : Word) (s : State) : State :=
  let n := winChan s c
  if s.lat.winHalf || regionBusy s n then s
  else
    let i := elemIdx (!activeHalf s n) n p
    let t := s.modLat fun l => { l with held := none }
    match s.lat.held with
    | some (k, w) => if k = 512 * n + p then setElem i (join64 w v) t else keepLow i v t
    | none => keepLow i v t

/-- ELEMENT_WINDOW_LOW_WRITE. -/
def execElementWindowLowWrite (i : Iface) (c : Fin 8) (p : Fin 512) (v : Word) (s : State) :
    Host.Outcome State Fault Refusal := .next (regAccess i 0x28000 (winLow c.val p.val v) s)

/-- ELEMENT_WINDOW_HIGH_WRITE. -/
def execElementWindowHighWrite (i : Iface) (c : Fin 8) (p : Fin 512) (v : Word) (s : State) :
    Host.Outcome State Fault Refusal := .next (regAccess i 0x28000 (winHigh c.val p.val v) s)

/-! ## Gates' registers (R148, R156) -/

/-- A write of LT_GATE_CFG, ignored while GL_KEY is locked (R532). -/
def gateCfgWrite (g : Nat) (v : Word) (s : State) : State :=
  if keyOpen s then
    s.modGate g fun e => { e with pairAddr := fld v 0 12, en := bitOf v 12, armMode := bitOf v 13 }
  else s

/-- A write of LT_GATE_STAT highest, which arms the gate and stands against the updates of its core cycle (R147); ignored while
GL_KEY is locked. -/
def gateStatWrite (g : Nat) (v : Word) (s : State) : State :=
  if keyOpen s then setHighest g (fld v 0 16) (s.modGate g fun e => { e with armed := true, hostTime := some s.tm.now }) else s

/-- GATE_ENABLE: the write has en = 1. -/
def execGateEnable (i : Iface) (g : Fin 256) (v : Word) (s : State) : Host.Outcome State Fault Refusal :=
  .next (regAccess i 0x20200 (gateCfgWrite g.val (putFld v 12 1 1)) s)

/-- GATE_DISABLE: the write has en = 0. -/
def execGateDisable (i : Iface) (g : Fin 256) (v : Word) (s : State) : Host.Outcome State Fault Refusal :=
  .next (regAccess i 0x20200 (gateCfgWrite g.val (putFld v 12 1 0)) s)

/-- GATE_HIGHEST_WRITE. -/
def execGateHighestWrite (i : Iface) (g : Fin 256) (v : Word) (s : State) : Host.Outcome State Fault Refusal :=
  .next (regAccess i 0x20204 (gateStatWrite g.val v) s)

end Sys2Proof.Machine
end

