-- ==== Sys2Proof/Machine/Queues.lean ====
section
/-!
DEFINITION. The queue manager (chapter 6): link parity and BROKEN queues, engine-class pops, the queue commands, the
host read window, the list audit, the drain of HOST_DMA queues and the BAR2 window.
-/
namespace Sys2Proof.Machine

/-! ## BROKEN queues and link parity (R167, R194, R195) -/

/-- A queue enters BROKEN: its lists are gone, a lock on it ends, and a flush in progress completes with E_FAULT
(R191). -/
def breakLists (q : Nat) (s : State) : State :=
  let f := (s.queue q).flush
  let s := s.modQueue q fun u => { u with state := .broken, items := [], lock := none, flush := none }
  match f with
  | some f => complete f.ring eFault 0 0 s
  | none => s

/-- A list fault against queue q (`none`: the pool, 0xFF), of kind 0 tally, 1 free bit or owner, 2 link parity, at
cell `c` (R194). The repeat rule of 0x35 takes the pool's 0xFF and queue 255 as one item (DESIGN CHOICE, log entry 143). -/
def listFault (q : Option Nat) (kind c : Nat) (s : State) : State :=
  let id := q.getD 0xFF
  let s := if s.pool.failSeen then s else s.modPool fun p => { p with failQ := id, failSeen := true, failKind := kind }
  let s := raise 0x35 id [(8, id)] s
  let s := match q with | some q => breakLists q s | none => s
  vxAssert 23 (packW [(0, 16, id), (16, 16, c)]) s

/-- A read of cell c's link entry: a parity mismatch not yet marked is reported once (R167). -/
def linkRead (c : Nat) (s : State) : State :=
  if s.pool.linkBad.contains c && !s.pool.linkMark.contains c then
    let s := s.modPool fun p => { p with linkMark := p.linkMark ++ [c] }
    let owner := (s.pool.owner.find? fun e => e.1 == c).map (·.2)
    listFault (owner.filter (queueExists s)) 2 c s
  else s

/-- Reads the link entries of a run of cells. -/
def linkReads (cs : List Nat) (s : State) : State := cs.foldl (fun s c => linkRead c s) s

/-- An engine-class read takes the head of queue q (R178): the state after it and the item, unless the queue shows
none. -/
def takeHead (q : Nat) (s : State) : State × Option Item :=
  match headItem s q with
  | none => (s, none)
  | some i =>
    let s := linkReads i.cells s
    match headItem s q with
    | none => (s, none)
    | some i => (popItem q i s, some i)

/-! ## XL-fed queues and budgets (R173, R174) -/

/-- Channel n has xl_en = 1 or trunk_en = 1. -/
def xlChannel (s : State) (n : Nat) : Bool := modeBit s n 6 || trunkEn s n

/-- LT_CH_DEF of channel n names queue q with def_act QUEUE. -/
def defaultNames (s : State) (n q : Nat) : Bool :=
  let d := mget 0#32 s.lat.chDef n
  fld d 0 3 == 1 && fld d 8 8 == q

/-- Queue q is XL-fed under the active and shadow lists and the channel settings in force (R174). -/
def xlFedNow (s : State) (q : Nat) : Bool :=
  let u := s.queue q
  ((List.range 16).any fun n => xlChannel s n &&
    (listNames s false n 1 q || listNames s true n 1 q || defaultNames s n q))
  || (u.consumer == 5 && u.state != .none && xlChannel s u.txCh)

/-! ## Q_CREATE and Q_REMOVE (R192, R201) -/

/-- QM_Q_CFG (R198). -/
def qCfgWord (s : State) (q : Nat) : Word :=
  let u := s.queue q
  if u.state == .none then 0#32
  else packW [(0, 1, 1), (1, 3, u.consumer), (4, 4, u.txCh), (8, 4, u.txPos), (12, 1, b1 u.xlFed), (13, 1, b1 u.notify)]

/-- A queue comes to exist in OPEN (R191). What its window held for an earlier queue of this number, the value of the previous
QM_W_DATA read and the flags, is gone with it (DESIGN CHOICE, log entry 129). -/
def createQueue (q min max consumer ch pos : Nat) (notify xl : Bool) (s : State) : State :=
  { s with pool := { s.pool with queues := mset s.pool.queues q { Queue.reset with
      state := .opened, consumer := consumer, txCh := if consumer = 5 then ch else 0,
      txPos := if consumer = 5 then pos else 0, xlFed := xl, notify := notify, min := min, max := max } } }

/-- The limit on the sum of the budgets' min (R173, R493). -/
def minLimit (s : State) : Nat := 65536 - s.sq.stgCells

/-- 0x30 Q_CREATE without remove. -/
def qCreateBody (r : Nat) (ws : List Word) (s : State) : State :=
  let q := fld (wd ws 1) 0 8
  let min := fld (wd ws 2) 0 16
  let max := fld (wd ws 2) 16 16
  let w3 := wd ws 3
  let cons := fld w3 0 3
  let ch := fld w3 4 4
  let pos := fld w3 8 4
  let xl := cons == 5 && xlChannel s ch
  if queueExists s q then complete r eState 0 0 s
  else if max = 0 ∨ max < min ∨ 6 ≤ cons ∨ (cons = 5 ∧ (attached s ch pos).isSome) then complete r eParam 0 0 s
  else if minLimit s < minSum s + min ∨ (xl ∧ min < 35) then complete r eCap 0 0 s
  else if freeCount s - reserve s < min then complete r eBusy 0 0 s
  else
    let s := poolLow (createQueue q min max cons ch pos (bitOf w3 12) xl s)
    complete r stOk (qCfgWord s q) 0 s

/-- The commands 0x30 with the remove flag as given. -/
def isQCreate (remove : Bool) (ws : List Word) : Bool := pOpcode ws == 0x30 && bitOf (wd ws 0) 8 == remove

/-- Q_CREATE. -/
def execQCreate (r : Fin 4) (s : State) : Host.Outcome State Fault Refusal :=
  .next (beginWhen r.val (isQCreate false) (qCreateBody r.val) s)

/-- Queue q is named by something that stands in the way of its removal (R192). -/
def queueNamed (s : State) (q : Nat) : Bool :=
  ((List.range 16).any fun n =>
    listNames s (activeHalf s n) n 1 q || (draining s n && listNames s (!activeHalf s n) n 1 q)
    || defaultNames s n q || (bdpEn s n && fld (s.chan n).bdpCfg 8 8 == q))
  || s.cd.routes.any fun e => bitOf e.2.cfg 1 && fld e.2.cfg 8 8 == q

/-- 0x30 Q_CREATE with remove = 1 (R191, R192): only an OPEN queue with no item, no charged cell and no lock goes. -/
def qRemoveBody (r : Nat) (ws : List Word) (s : State) : State :=
  let q := fld (wd ws 1) 0 8
  let u := s.queue q
  if u.state = .none then complete r eNotFound 0 0 s
  else if queueNamed s q then complete r eState 0 0 s
  else if u.state ≠ .opened ∨ !u.items.isEmpty ∨ occupancy s q ≠ 0 ∨ u.lock.isSome then complete r eBusy 0 0 s
  else
    let s := poolLow (s.modPool fun p => { p with queues := mdel p.queues q })
    complete r stOk (qCfgWord s q) 0 s

/-- Q_REMOVE. -/
def execQRemove (r : Fin 4) (s : State) : Host.Outcome State Fault Refusal :=
  .next (beginWhen r.val (isQCreate true) (qRemoveBody r.val) s)

/-! ## Q_FLUSH (R187 to R190, R195) -/

/-- Marks the begun items of queue q and the given classes in frames being received (R187). -/
def markFrame (q mask : Nat) (f : RxFrame) : RxFrame :=
  { f with chains := f.chains.map fun c =>
      if c.queue = q ∧ mask.testBit c.cls ∧ c.cells ≠ [] ∧ !(isCut c && f.ctSeq.isSome) then { c with marked := true } else c }

/-- A host submission's item is marked (R187). -/
def markSub (q mask : Nat) (c : Cmd) : Cmd :=
  match c.sub with
  | some b => if b.queue = q ∧ mask.testBit b.cls ∧ b.cells ≠ [] then { c with sub := some { b with marked := true } }
              else c
  | none => c

/-- Marks every begun item of queue q (R187). -/
def markItems (q mask : Nat) (s : State) : State :=
  { s with
    chans := mmap (fun c => { c with rx := c.rx.map (markFrame q mask), staged := c.staged.map (markFrame q mask),
                                     commits := c.commits.map (markFrame q mask) }) s.chans
    sq := { s.sq with crs := mmap (fun c => { c with cmd := c.cmd.map (markSub q mask) }) s.sq.crs } }

/-- A taken item of the flushed classes makes no further attempt; with none latched it ends FAILED (R188). -/
def flushTaken (q mask n : Nat) (s : State) : State :=
  (s.chan n).taken.foldl (fun s e =>
    if e.2.queue = q ∧ mask.testBit e.2.cls then
      let s := s.modChan n fun c => { c with taken := mset c.taken e.1 { e.2 with flushed := true } }
      let latched := match (s.chan n).latch with | some l => l.source == e.1 + 3 | none => false
      if latched then s
      else match candOf s n (e.1 + 3) with
        | some i => endItem n (e.1 + 3) 4 i s
        | none => s
    else s) s

/-- A cut-through copy whose listed item is gone is written no further (R241 covers its frame on the wire). -/
def dropCut (cells : List Nat) (f : RxFrame) : RxFrame :=
  { f with chains := f.chains.filter fun c => !(f.ctSeq.isSome && !c.cells.isEmpty && cells.contains (c.cells.headD 0)) }

/-- Unlinks the listed items of the given classes (R187, R189). -/
def unlinkClasses (q mask : Nat) (s : State) : State :=
  let u := s.queue q
  let gone := u.items.filter fun i => mask.testBit i.cls
  let lockGone := match u.lock with | some c => gone.any (fun i => itemId i == c) | none => false
  let s := s.modQueue q fun u => { u with items := u.items.filter fun i => !mask.testBit i.cls }
  let s := gone.foldl (fun s i => freeCells i.cells (flushCount q i.cells.length s)) s
  let cells := gone.map itemId
  let s := { s with chans := mmap (fun c => { c with rx := c.rx.map (dropCut cells) }) s.chans }
  if lockGone then
    raise 0x34 q [(8, q)] (s.modQueue q fun u => { u with lock := none, lockLost := true })
  else s

/-- 0x31 Q_FLUSH without repair. -/
def qFlushBody (r : Nat) (ws : List Word) (s : State) : State :=
  let q := fld (wd ws 1) 0 8
  let mask := fld (wd ws 2) 0 16
  let u := s.queue q
  if u.state = .none then complete r eNotFound 0 0 s
  else if mask = 0 then complete r eParam 0 0 s
  else if u.state = .flushing then complete r eBusy 0 0 s
  else if u.state = .broken then complete r eState 0 0 s
  else
    let f : Flush := { mask := mask, items := 0, cells := 0, repair := false, ring := r }
    let s := s.modQueue q fun u => { u with state := .flushing, flush := some f }
    let s := markItems q mask (unlinkClasses q mask s)
    let s := if u.consumer = 5 then recheck u.txCh (flushTaken q mask u.txCh s) else s
    flushCheck q s

/-- The commands 0x31 with the repair flag as given. -/
def isQFlush (repair : Bool) (ws : List Word) : Bool := pOpcode ws == 0x31 && bitOf (wd ws 0) 8 == repair

/-- Q_FLUSH. -/
def execQFlush (r : Fin 4) (s : State) : Host.Outcome State Fault Refusal :=
  .next (beginWhen r.val (isQFlush false) (qFlushBody r.val) s)

/-- 0x31 Q_FLUSH with repair = 1 (R195): the queue's lists are unlinked and one audit pass begins; refused while a
class-2 reaction holds the queue (R392). -/
def qRepairBody (r : Nat) (ws : List Word) (s : State) : State :=
  let q := fld (wd ws 1) 0 8
  let mask := fld (wd ws 2) 0 16
  let u := s.queue q
  if u.state = .none then complete r eNotFound 0 0 s
  else if mask = 0 then complete r eParam 0 0 s
  else if u.state = .flushing then complete r eBusy 0 0 s
  else if u.state ≠ .broken ∨ heldBy s (.queue q) then complete r eState 0 0 s
  else
    let f : Flush := { mask := mask, items := 0, cells := 0, repair := true, ring := r }
    (s.modQueue q fun u => { u with state := .flushing, items := [], flush := some f }).modPool fun p =>
      { p with auditPos := 0 }

/-- Q_FLUSH_REPAIR. -/
def execQFlushRepair (r : Fin 4) (s : State) : Host.Outcome State Fault Refusal :=
  .next (beginWhen r.val (isQFlush true) (qRepairBody r.val) s)

/-! ## Q_BUDGET and Q_STATUS (R201, R202) -/

/-- QM_Q_BUDGET. -/
def qBudgetWord (s : State) (q : Nat) : Word := packW [(0, 16, (s.queue q).min), (16, 16, (s.queue q).max)]

/-- QM_Q_STAT (R198). -/
def qStatWord (s : State) (q : Nat) : Word :=
  let u := s.queue q
  if u.state == .none then packW [(17, 1, 1)]
  else packW [(0, 17, occupancy s q), (17, 1, b1 u.items.isEmpty), (18, 1, b1 u.full), (19, 1, b1 u.lock.isSome),
    (20, 1, b1 (u.state == .flushing)), (21, 1, b1 (u.state == .broken)), (22, 1, b1 u.bpSeen)]

/-- 0x32 Q_BUDGET. A refused one leaves xl_fed as it was last judged by one that took effect (DESIGN CHOICE, log entry
128). Bits outside the fields of the queue commands are ignored (DESIGN CHOICE, log entry 138). -/
def qBudgetBody (r : Nat) (ws : List Word) (s : State) : State :=
  let q := fld (wd ws 1) 0 8
  let min := fld (wd ws 2) 0 16
  let max := fld (wd ws 2) 16 16
  let u := s.queue q
  let xl := xlFedNow s q
  if u.state = .none then complete r eNotFound 0 0 s
  else if max = 0 ∨ max < min then complete r eParam 0 0 s
  else if minLimit s < minSum s - u.min + min ∨ (xl ∧ min < 35) then complete r eCap 0 0 s
  else if u.min < min ∧ freeCount s - reserve s < min - u.min then complete r eBusy 0 0 s
  else
    let s := poolLow (fullRearm q (s.modQueue q fun u => { u with min := min, max := max, xlFed := xl }))
    complete r stOk (qBudgetWord s q) 0 s

/-- Q_BUDGET. -/
def execQBudget (r : Fin 4) (s : State) : Host.Outcome State Fault Refusal :=
  .next (beginOp r.val 0x32 (qBudgetBody r.val) s)

/-- 0x33 Q_STATUS. -/
def qStatusBody (r : Nat) (ws : List Word) (s : State) : State :=
  let q := fld (wd ws 1) 0 8
  if (s.queue q).state = .none then complete r eNotFound 0 0 s
  else complete r stOk (qStatWord s q) (w32 ((s.queue q).items.length % 2 ^ 17)) s

/-- Q_STATUS. -/
def execQStatus (r : Fin 4) (s : State) : Host.Outcome State Fault Refusal :=
  .next (beginOp r.val 0x33 (qStatusBody r.val) s)

/-! ## The host read window (R180 to R185, R200) -/

/-- Queue q has a window: it exists and its consumer is HOST_WINDOW. -/
def hasWindow (s : State) (q : Nat) : Bool := queueExists s q && (s.queue q).consumer == 0

/-- underrun is set, with 0x33 Q_UNDERRUN (R180, R181, R203). -/
def setUnderrun (q : Nat) (s : State) : State :=
  raise 0x33 q [(8, q)] (s.modQueue q fun u => { u with underrun := true })

/-- The cell count of the locked item. -/
def lockedCells (s : State) (q : Nat) : Nat := ((headItem s q).map (·.cells.length)).getD 0

/-- What register `o` of queue q's window reads when the queue has no window: the Reset column for a queue in NONE (R200,
R541; log entry 124), 0 where the consumer is another (R200). -/
def windowAbsent (s : State) (q o : Nat) : Word :=
  if queueExists s q then 0#32
  else if o = 0x40 then 0x2#32
  else if o = 0x4C then 0x20#32
  else 0#32

/-- A read of QM_W_LOCK (R181): the state after it and the value. -/
def windowLock (q : Nat) (s : State) : State × Word :=
  if !hasWindow s q then (s, windowAbsent s q 0x40)
  else if (s.queue q).lock.isSome then (s, packW [(0, 1, 1), (2, 6, lockedCells s q)])
  else match headItem s q with
    | none => (setUnderrun q s, packW [(1, 1, 1)])
    | some i =>
      (s.modQueue q fun u => { u with lock := some (itemId i), wCell := 0 }, packW [(0, 1, 1), (2, 6, i.cells.length)])

/-- A read of QM_W_DATA word k (R180, R185): the state after it and the value. -/
def windowData (q k : Nat) (s : State) : State × Word :=
  if !hasWindow s q then (s, 0#32)
  else
    let u := s.queue q
    match (if u.lock.isSome then headItem s q else none) with
    | none => (setUnderrun q s, u.prevData)
    | some i =>
      if i.cells.length ≤ u.wCell then (s.modQueue q fun u => { u with range := true, prevData := 0 }, 0#32)
      else
        let v := cellWord s (i.cells.getD u.wCell 0) k
        match slotBad s .hostDma with
        | some _ =>
          let v := Config.discardedRead s.freeCtr
          (inSlot .hostDma id (s.freshTick.modQueue q fun u => { u with prevData := v }), v)
        | none => (linkReads (i.cells.take (u.wCell + 1)) (s.modQueue q fun u => { u with prevData := v }), v)

/-- BAR0 offset of register `o` of queue q's window. -/
def windowOff (q o : Nat) : Nat := 0x38000 + q * 0x80 + o

/-- WINDOW_LOCK_READ. -/
def execWindowLockRead (i : Iface) (q : Fin 256) (s : State) : Host.Outcome State Fault Refusal :=
  let x := if regReach i (windowOff q.val 0x40) s then windowLock q.val s else (s, 0#32)
  .next (x.1.emit (.regRead i (windowOff q.val 0x40) x.2))

/-- WINDOW_DATA_READ. -/
def execWindowDataRead (i : Iface) (q : Fin 256) (k : Fin 16) (s : State) : Host.Outcome State Fault Refusal :=
  let x := if regReach i (windowOff q.val 0) s then windowData q.val k.val s else (s, 0#32)
  .next (x.1.emit (.regRead i (windowOff q.val (4 * k.val)) x.2))

/-- A write of QM_W_POP (R183). -/
def windowPop (q : Nat) (v : Word) (s : State) : State :=
  if !hasWindow s q || !(bitOf v 0 || bitOf v 1) then s
  else match (s.queue q).lock with
    | none => s.modQueue q fun u => { u with popErr := true }
    | some _ =>
      match headItem s q with
      | none => s.modQueue q fun u => { u with lock := none }
      | some i =>
        if bitOf v 0 then
          inSlot .hostDma (fun s => freeCells i.cells ((popItem q i s).modQueue q fun u => { u with lock := none })) s
        else s.modQueue q fun u => { u with lock := none }

/-- WINDOW_POP: the write has pop = 1. -/
def execWindowPop (i : Iface) (q : Fin 256) (v : Word) (s : State) : Host.Outcome State Fault Refusal :=
  .next (regAccess i (windowOff q.val 0x48) (windowPop q.val (putFld v 0 1 1)) s)

/-- WINDOW_RELEASE: the write has release = 1. -/
def execWindowRelease (i : Iface) (q : Fin 256) (v : Word) (s : State) : Host.Outcome State Fault Refusal :=
  .next (regAccess i (windowOff q.val 0x48) (windowPop q.val (putFld v 1 1 1)) s)

/-- LOCK_TIMEOUT (R184). -/
def execLockTimeout (q : Fin 256) (s : State) : Host.Outcome State Fault Refusal :=
  .next (
    if s.pool.lockTmo ≠ 0 ∧ (s.queue q.val).lock.isSome then
      raise 0x34 q.val [(8, q.val)] (s.modQueue q.val fun u => { u with lock := none, lockLost := true })
    else s)

/-! ## List audit (R193, R195) -/

/-- The audit runs: audit_en = 1, or a repair waits for its pass. -/
def auditRuns (s : State) : Bool :=
  s.pool.auditEn || s.pool.queues.any fun e => match e.2.flush with | some f => f.repair | none => false

/-- One turn of the audit: 32 link entries in index order. -/
def auditTurn (s : State) : State :=
  let p := s.pool.auditPos
  let s := linkReads (s.pool.linkBad.filter fun c => c / 32 == p) s
  s.modPool fun q => { q with auditPos := p + 1 }

/-- The cells that the pass has tallied for queue q (R193): the entries read so far, at their present owners, since every
allocation, release and recharge of an entry already read corrects the tally. -/
def auditTally (s : State) (q : Nat) : Nat :=
  (s.pool.owner.filter fun e => decide (e.1 < 32 * s.pool.auditPos) && e.2 == q).length

/-- The cells that the pass has tallied as free (R193). Staging cells are neither free nor charged (log entry 130). -/
def auditFree (s : State) : Nat :=
  Nat.min (32 * s.pool.auditPos) (65536 - s.sq.stgCells)
    - (s.pool.owner.filter fun e => decide (e.1 < 32 * s.pool.auditPos)).length

/-- The existing queues whose tally differs from their occupancy at the end of a pass (R193). -/
def auditBad (s : State) : List Nat :=
  (s.pool.queues.filter fun e => e.2.state != .none && auditTally s e.1 != occupancy s e.1).map (·.1)

/-- Some charged cell names an owner that does not exist (R193). -/
def ownerGone (s : State) : Bool := s.pool.owner.any fun e => !queueExists s e.2

/-- The reads of a pass that are still to come. -/
def auditRest (s : State) : State :=
  (linkReads (s.pool.linkBad.filter fun c => decide (s.pool.auditPos ≤ c / 32)) s).modPool fun p => { p with auditPos := 2048 }

/-- The repair of queue q ends its pass (R195): cells charged to it that no list, item in progress or consumer reaches
go to the free list, and the queue is OPEN. -/
def repairDone (q : Nat) (f : Flush) (s : State) : State :=
  let kept := (looseRuns s).flatten ++ (s.queue q).items.flatMap (·.cells)
  let lost := (s.pool.owner.filter fun e => e.2 == q && !kept.contains e.1).map (·.1)
  let s := freeCells lost s
  complete f.ring stOk (w32 f.items) (w32 lost.length) (s.modQueue q fun u => { u with state := .opened, flush := none })

/-- A repair of queue q that has waited for the end of the pass completes (R195). -/
def auditRepair (q : Nat) (s : State) : State :=
  match (s.queue q).flush with
  | some f => if f.repair then repairDone q f s else s
  | none => s

/-- A pass ends (R193, R194): each queue's tally is compared with its occupancy, the free tally with the free count, and
the owners are checked; `bad`, `freeBad` and `ownerBad` are the mismatches that a fault in the link array or in a counter
has made. The repairs that waited complete (R195). A free-bit or owner error is reported for no queue, as 0xFF (DESIGN CHOICE, log
entry 143). -/
def auditEnd (bad : List Nat) (freeBad ownerBad : Bool) (s : State) : State :=
  let s := auditRest s
  let bad := bad ++ (auditBad s).filter (!bad.contains ·)
  let freeBad := freeBad || auditFree s != freeCount s
  let ownerBad := ownerBad || ownerGone s
  let s := s.modPool fun p => { p with passes := (p.passes + 1) % 4096, auditPos := 0 }
  let s := s.pool.queues.foldl (fun s e => auditRepair e.1 s) s
  let s := bad.foldl (fun s q => if queueExists s q then listFault (some q) 0 0 s else s) s
  let s := if freeBad then listFault none 0 0 s else s
  if ownerBad then listFault none 1 0 s else s

/-- The list audit's housekeeping turn (R32). -/
def auditStep (s : State) : State :=
  if auditRuns s then
    let s := auditTurn s
    if 2048 ≤ s.pool.auditPos then auditEnd [] false false s else s
  else s

/-- AUDIT_PASS_END (R32, R193): the audit's turn that reads the last link entries. -/
def execAuditPassEnd (bad : List (Fin 256)) (freeBad ownerBad : Bool) (s : State) : Host.Outcome State Fault Refusal :=
  .next (
    if ringsUsable s && s.round % 4 == 1 && auditRuns s && decide (2047 ≤ s.pool.auditPos) then
      inTurn (auditEnd (bad.map (·.val)) freeBad ownerBad) s
    else s)

/-! ## HOST_DMA queues (R168, R178) -/

/-- The head of HOST_DMA queue q leaves. -/
def drainItem (q : Nat) (s : State) : State :=
  let x := takeHead q s
  match x.2 with
  | none => x.1
  | some i =>
    let words := i.cells.flatMap fun c => (List.range 15).map fun k => poolWord x.1 c k
    freeCells i.cells (x.1.emit (.hostItem q words))

/-- HOST_DMA_DRAIN, when it is the item's turn: the head of HOST_DMA queue q is popped, its cells leave for host memory in item order and return
to the free list. Where in host memory they go the manual does not say (log entry 18). -/
def execHostDmaDrain (q : Fin 256) (s : State) : Host.Outcome State Fault Refusal :=
  .next (match drainHead s q.val with
    | some i =>
      if s.pw.awake && hostFirst s (drainKey q.val i) then inSlot .hostDma (drainItem q.val) s else s
    | none => s)

/-! ## BAR2 (R197) -/

/-- Writes the bytes of a word that the byte enables select. -/
def poolBytes (addr be : Nat) (v : Word) (s : State) : State :=
  (List.range 4).foldl (fun s i =>
    if be.testBit i then s.modPool fun p => { p with mem := memSet p.mem (addr + i) (byteOf v i) } else s) s

/-- A write of the pool window at a word address, in a host DMA slot: ignored while GL_KEY is locked, and for word 15 of a
cell. -/
def poolWrite (word be : Nat) (v : Word) (s : State) : State :=
  if keyOpen s && word % 16 != 15 then inSlot .hostDma (poolBytes (4 * word) be v) s else s

/-- A read of the pool window at a word address, in a host DMA slot (R33, R167): word 15 reads the link-array entry. What a
read returns whose transfer has been discarded (R35) is free (log entry 127). -/
def poolRead (word : Nat) (s : State) : State × Word :=
  match slotBad s .hostDma with
  | some _ => (inSlot .hostDma id s.freshTick, Config.discardedRead s.freeCtr)
  | none => (if word % 16 = 15 then linkRead (word / 16) s else s, cellWord s (word / 16) (word % 16))

/-- POOL_WINDOW_WRITE. -/
def execPoolWindowWrite (addr : Nat) (be : Fin 16) (v : Word) (s : State) : Host.Outcome State Fault Refusal :=
  if addr < 4194304 then .next (regAccess .pcie 0x100 (poolWrite (addr / 4) be.val v) s)
  else .fault .poolAddress

end Sys2Proof.Machine
end

