-- ==== Sys2Proof/Machine/Power.lean ====
section
/-!
DEFINITION. Power modes, network sleep and wake (chapter 15), and the always-on retention.
-/
namespace Sys2Proof.Machine

/-- Changes the wake controller's state. -/
def State.modPw (s : State) (f : Pw → Pw) : State := { s with pw := f s.pw }
/-- Changes the retention. -/
def State.modRet (s : State) (f : Ret → Ret) : State := { s with ret := f s.ret }

/-! ## Configuration (R437) -/

/-- PW_CH_WAKE of channel n. -/
def chWake (s : State) (n : Nat) : Word := mget 0x00080510#32 s.pw.chWake n
/-- PW_CH_CONF of channel n. -/
def chConf (s : State) (n : Nat) : Word := mget 0x64#32 s.pw.chConf n
/-- ballot_mask. -/
def ballotMask (s : State) : Nat := fld s.pw.ballotReg 0 16
/-- Channel n is in ballot_mask. -/
def inBallotMask (s : State) (n : Nat) : Bool := bitOf s.pw.ballotReg n
/-- The transceiver state in which channel n sleeps. -/
def sleepTrx (s : State) (n : Nat) : Nat := if bitOf (chWake s n) 1 then trxSleep else trxStandby
/-- The transceiver state to which channel n wakes. -/
def wakeTrx (s : State) (n : Nat) : Nat := if bitOf (chWake s n) 2 then trxListen else trxNormal
/-- The filter in force on channel n in µs (R426). -/
def filtNow (s : State) (n : Nat) : Nat :=
  if s.pw.filtLong.contains n then fld (chWake s n) 8 3 else fld (chWake s n) 4 3

/-! ## Keep-awake reasons (R427, R428) -/

/-- PW_STAT reasons (R437). -/
def reasonBits (s : State) : Nat :=
  let has := fun c => (reasonsHeld s).any fun e => e.1 == c
  b1 (has 1) + 2 * b1 (has 2) + 4 * b1 (has 3) + 8 * b1 (has 4) + 16 * b1 (has 5) + 32 * b1 (!s.pw.appCodes.isEmpty)

/-- PW_STAT (R437). -/
def pwStat (s : State) : Word :=
  packW [(0, 2, s.pw.ballot), (2, 1, b1 s.pw.doze), (3, 1, b1 s.pw.committed), (8, 6, reasonBits s),
    (16, 16, s.pw.ballotNo)]

/-- PW_CFG (R437), with app_codes. -/
def pwCfg (s : State) : Word := putFld s.pw.cfg 8 8 s.pw.appCodes.length

/-- A KEEP_AWAKE falls due on every awake channel of ballot_mask with bdp_en = 1, with the lowest reason held (R428). -/
def keepAwake (ballot : Nat) (s : State) : State :=
  match reasonsHeld s with
  | (code, ch) :: _ =>
    (List.range 16).foldl (fun s n =>
      if inBallotMask s n && !asleep s n && bdpEn s n then
        bdpDue n kKeepAwake [packW [(0, 8, code), (8, 4, ch), (16, 16, ballot)]] s
      else s) s
  | [] => s

/-! ## The ballot (R429) -/

/-- 0x78 PW_BALLOT (R439): number, cause, outcome. -/
def ballotEvent (cause outcome : Nat) (s : State) : State :=
  raise 0x78 0 [(16, s.pw.ballotNo), (8, cause), (8, outcome)] s

/-- Result word 0 of PW_SLEEP_PREPARE (R438). -/
def ballotResult (s : State) (outcome : Nat) : Word := packW [(0, 16, s.pw.ballotNo), (16, 3, outcome)]

/-- The ballot in PREPARE or READY ends without sleep, with its outcome (R429); `info`: the objection. -/
def ballotEnds (outcome : Nat) (info : Word) (s : State) : State :=
  match s.pw.bal with
  | some b =>
    let res := ballotResult s outcome
    let s := s.modPw fun p => { p with ballot := 0, bal := none, lapsed := if outcome = 7 then p.ballotNo else 0 }
    let s := match b.ring with | some r => complete r eBusy res info s | none => s
    ballotEvent b.cause outcome s
  | none => s

/-- The ballot is in PREPARE or READY. -/
def ballotOpen (s : State) : Bool := s.pw.ballot == 1 || s.pw.ballot == 2

/-- A group is committed to sleep: as participant or by the own ballot (R431, R432). -/
def groupCommitted (s : State) (n : Nat) : Bool :=
  (s.pw.committed && inBallotMask s n)
  || (s.pw.ballot == 3 && (match s.pw.bal with | some b => b.chans.contains n | none => false))

/-- The device is committed, or is on its way into or in a sleeping mode: wakes stay in the latch (R416, R431, R432). -/
def wakesWait (s : State) : Bool := s.pw.committed || s.pw.ballot == 3 || s.pw.mode != .run

/-- A wake latch bit is set (R422); in SLEEP and HIBERNATE the device leaves the mode, PWR_HOLD high (R413, R415). -/
def latchWake (bit : Nat) (s : State) : State :=
  s.modPw fun p => { p with
    latch := if p.latch.testBit bit then p.latch else p.latch + 2 ^ bit
    mode := if p.mode = .sleep then .waking else p.mode
    pwrHold := p.pwrHold || p.mode == .hibernate }

/-- The awake timer is set to max_awake_s (R433). -/
def awakeRestart (s : State) : State := s.modPw fun p => { p with remaining := fld p.cfg 16 16, awakeCyc := 0 }

/-- PW_AWAKE remaining_s (R433, R437): the seconds left; max_awake_s while an own reason holds. -/
def awakeLeft (s : State) : Nat :=
  if (reasonsHeld s).isEmpty then s.pw.remaining - s.pw.awakeCyc / 480000000 else fld s.pw.cfg 16 16

/-- An own reason has arisen (R422, R427 to R429, R431): KEEP_AWAKE at once, the open ballot ends, LOCAL is latched
while wakes wait, the awake timer stands at max_awake_s (R433), and a false wake re-enters no mode any more (R425). -/
def reasonArose (s : State) : State :=
  let s := keepAwake 0 ((awakeRestart s).modPw fun p => { p with reenter := none })
  let s := if ballotOpen s then ballotEnds 4 0 s else s
  if wakesWait s then latchWake 18 s else s

/-- A step of another block after which a reason may be held that was not held before (R427). -/
def noteReasons (before : State) (s : State) : State :=
  if (reasonsHeld s).any (fun e => !((reasonsHeld before).any fun d => d.1 == e.1)) then
    reasonArose s
  else s

/-- Channel n goes to its sleep_trx, unless it is asleep or SAFE (R416, R429, R431). -/
def putAsleep (n : Nat) (s : State) : State :=
  if asleep s n || (s.chan n).state == .safe then s else trxSet n (sleepTrx s n) none s

/-- The wakes whose KEEP_AWAKE has ended SENT wherever it had to are forgotten (R427). -/
def wakeTidy (s : State) : State :=
  s.modPw fun p => { p with wakeInput := p.wakeInput.filter fun e => !(wakePending s e.2).isEmpty }

/-- A wake of channel n is served (R423, R424, R431): `source` is that of 0x79 PW_WAKE; a wake that is confirmed by its
frame opens no confirmation window. -/
def wakeChannel (n source : Nat) (confirmed : Bool) (s : State) : State :=
  if (s.chan n).state == .safe then s
  else
    let group := if bitOf (chWake s n) 3 then
      (List.range 16).filter fun m => m != n && inBallotMask s m && asleep s m && bitOf (chWake s m) 0 else []
    let s := (n :: group).foldl (fun s m =>
      if asleep s m && (s.chan m).state != .safe then trxSet m (wakeTrx s m) none s else s) s
    let s := if (n :: group).any (inBallotMask s) then awakeRestart s else s
    let s := wakeTidy (s.modPw fun p => { p with wakeInput := mset p.wakeInput n [] })
    let s := s.modPw fun p => { p with
      confirm := if confirmed then p.confirm else mset p.confirm n group }
    reasonArose (raise 0x79 n [(8, n), (8, source)] s)

/-- A local wake (R424): source HOST or ROUTE; the reason is held until a KEEP_AWAKE, or on a channel with bdp_en = 0
the first frame, has ended SENT on the channel. -/
def localWake (n trx source : Nat) (ring : Option Nat) (s : State) : State :=
  let s := s.modPw fun p => { p with
    hostWake := if source = 2 ∧ !p.hostWake.contains n then p.hostWake ++ [n] else p.hostWake
    traffic := if source = 3 ∧ !p.traffic.contains n then p.traffic ++ [n] else p.traffic }
  let s := if inBallotMask s n then awakeRestart s else s
  reasonArose (raise 0x79 n [(8, n), (8, source)] (trxSet n trx ring s))

/-- Host software or Chord asks to wake channel n (R422, R424, R431): of a committed group the request waits for the
sleep, and so does a CH_SET_STATE, which completes when the settling that it asks for ends (R109); the item of a Chord
request waits meanwhile (R427: TRAFFIC). An asleep channel wakes. -/
def askWake (n trx source : Nat) (ring : Option Nat) (s : State) : State :=
  let before := s
  if groupCommitted s n then
    let s := s.modPw fun p => { p with
      locals := p.locals ++ [{ ch := n, trx := trx, source := source, ring := ring }]
      traffic := if source = 3 ∧ !p.traffic.contains n then p.traffic ++ [n] else p.traffic }
    latchWake 18 (noteReasons before s)
  else localWake n trx source ring s

/-- The wake latch bits are served once the channels are asleep or full service is regained (R422, R432). In the device
safe state none is (R435). -/
def serveLatch (s : State) : State :=
  if wakesWait s || s.vx.safe then s
  else
    let bits := s.pw.latch
    let reqs := s.pw.locals
    let byFrame := s.pw.byFrame
    let s := s.modPw fun p => { p with latch := 0, locals := [], byFrame := [] }
    let s := (List.range 16).foldl (fun s n =>
      if bits.testBit n then
        (if byFrame.contains n then wakeChannel n 1 true s else wakeChannel n 0 false s)
      else s) s
    reqs.foldl (fun s l => if (s.chan l.ch).state = .safe then s else localWake l.ch l.trx l.source l.ring s) s

/-- A ballot opens (R429): the number rises by one, skipping 0; SLEEP_PREPARE falls due on every channel of it; an own
reason that holds ends it at once. -/
def openBallot (b : Ballot) (s : State) : State :=
  let no := if s.ret.ballotNo ≥ 0xFFFF then 1 else s.ret.ballotNo + 1
  let s := s.modRet fun r => { r with ballotNo := no }
  let s := s.modPw fun p => { p with ballot := 1, ballotNo := no, bal := some b, lapsed := 0 }
  let s := ballotEvent b.cause 0 s
  let s := b.chans.foldl (fun s n => bdpDue n kPrepare [packW [(0, 16, no), (16, 16, b.window)]] s) s
  if (reasonsHeld s).isEmpty then s else keepAwake 0 (ballotEnds 4 0 s)

/-- The ballot is committed (R429): SLEEP_COMMIT falls due on its channels, and the channels of ballot_mask that are
awake but not eligible sleep (R434). -/
def commitBallot (b : Ballot) (s : State) : State :=
  let no := s.pw.ballotNo
  let s := s.modPw fun p => { p with ballot := 3, bal := some { b with sent := [], ring := none, ring2 := none } }
  let s := b.chans.foldl (fun s n => bdpDue n kCommit [packW [(0, 16, no), (16, 16, b.delay)]] s) s
  b.extra.foldl (fun s n => putAsleep n s) s

/-- BALLOT_WINDOW_END (R429): window_ms after the last SLEEP_PREPARE's frame valid, without objection. -/
def execBallotWindowEnd (s : State) : Host.Outcome State Fault Refusal :=
  .next (
    match s.pw.bal with
    | some b =>
      if s.pw.ballot = 1 ∧ (b.chans.all fun n => b.sent.contains n) then
        if b.auto then
          let res := ballotResult s 2
          let s := commitBallot b s
          match b.ring with | some r => complete r stOk res 0 s | none => s
        else
          let s := s.modPw fun p => { p with ballot := 2, bal := some { b with ring := none } }
          let s := match b.ring with | some r => complete r stOk (ballotResult s 1) 0 s | none => s
          ballotEvent b.cause 1 s
      else s
    | none => s)

/-- BALLOT_SEND_TIMEOUT (R429): a SLEEP_PREPARE has not ended SENT in time; the waiting items are cancelled. -/
def execBallotSendTimeout (s : State) : Host.Outcome State Fault Refusal :=
  .next (
    match s.pw.bal with
    | some b =>
      if s.pw.ballot = 1 ∧ (b.chans.any fun n => !b.sent.contains n) then
        ballotEnds 6 0 (b.chans.foldl (fun s n => withdrawKind n kPrepare s) s)
      else s
    | none => s)

/-- BALLOT_LAPSE (R429): window_ms in READY without a commit. -/
def execBallotLapse (s : State) : Host.Outcome State Fault Refusal :=
  .next (if s.pw.ballot = 2 then ballotEnds 7 0 s else s)

/-- BALLOT_DELAY_END (R429): delay_ms has passed on every ballot channel. -/
def execBallotDelayEnd (s : State) : Host.Outcome State Fault Refusal :=
  .next (
    match s.pw.bal with
    | some b =>
      if s.pw.ballot = 3 then
        let s := b.chans.foldl (fun s n => putAsleep n s) s
        let s := s.modPw fun p => { p with ballot := 0, bal := none }
        serveLatch (ballotEvent b.cause 2 s)
      else s
    | none => s)

/-- GROUP_SLEEP_DELAY_END (R431): delay_ms after a received SLEEP_COMMIT. -/
def execGroupSleepDelayEnd (s : State) : Host.Outcome State Fault Refusal :=
  .next (
    if s.pw.committed then
      let s := (List.range 16).foldl (fun s n => if inBallotMask s n then putAsleep n s else s) s
      serveLatch (s.modPw fun p => { p with committed := false })
    else s)

/-- A channel can take part in a ballot of the device: ACTIVE, awake, with bdp_en = 1 (R434). -/
def ballotEligible (s : State) (n : Nat) : Bool := (s.chan n).state == .active && !asleep s n && bdpEn s n

/-- AWAKE_TIMER_EXPIRY (R433, R434): the device opens a ballot with cause AWAKE_TIME; while an own reason holds the timer
stands at max_awake_s and cannot expire. -/
def execAwakeTimerExpiry (s : State) : Host.Outcome State Fault Refusal :=
  .next (
    if ballotMask s = 0 ∨ isStandby s ∨ s.vx.safe ∨ s.pw.ballot ≠ 0 ∨ !s.pw.awake
        ∨ !(reasonsHeld s).isEmpty then s
    else
      let s := s.modPw fun p => { p with remaining := 0, awakeCyc := 0 }
      let all := (List.range 16).filter fun n => inBallotMask s n && !asleep s n && (s.chan n).state != .safe
      let can := all.filter (ballotEligible s)
      let rest := all.filter fun n => !ballotEligible s n
      if can.isEmpty then rest.foldl (fun s n => putAsleep n s) s
      else openBallot { chans := can, extra := rest, window := fld s.pw.ballotReg 16 16, delay := fld s.pw.ballot2 0 16,
                        cause := 1, auto := true, sent := [], ring := none, ring2 := none } s)

/-- KEEP_AWAKE_INTERVAL (R428): ka_ms have passed while an own reason holds. -/
def execKeepAwakeInterval (s : State) : Host.Outcome State Fault Refusal := .next (keepAwake 0 s)

/-! ## Frames received and sent (R424, R425, R427 to R432) -/

/-- A frame reaches frame valid on channel n: a pending wake is confirmed (R425), and the channel of a committed group
sets its latch bit (R431). -/
def pwFrameValid (n : Nat) (s : State) : State :=
  let s := s.modPw fun p => { p with confirm := mdel p.confirm n }
  if s.pw.committed && inBallotMask s n then
    latchWake n (s.modPw fun p => { p with byFrame := if p.byFrame.contains n then p.byFrame else p.byFrame ++ [n] })
  else s

/-- A well-formed SLEEP_PREPARE on channel n (R429, R430). -/
def prepareSeen (n sender : Nat) (w0 : Word) (s : State) : State :=
  if s.vx.safe || isStandby s then s
  else
    let mine := match s.pw.bal with | some b => s.pw.ballot == 1 && b.chans.contains n | none => false
    if mine then
      if sender < devAddr s then
        let s := ballotEnds 5 0 s
        if inBallotMask s n then keepAwake (fld w0 0 16) s else s
      else s
    else if inBallotMask s n then keepAwake (fld w0 0 16) s else s

/-- A well-formed SLEEP_COMMIT on channel n (R431, R435). -/
def commitSeen (n : Nat) (s : State) : State :=
  if s.vx.safe || !inBallotMask s n then s else s.modPw fun p => { p with committed := true }

/-- A well-formed KEEP_AWAKE on channel n (R429, R433). -/
def keepAwakeSeen (n sender : Nat) (w0 : Word) (s : State) : State :=
  if s.vx.safe then s
  else
    let s := if inBallotMask s n then awakeRestart s else s
    let hit := match s.pw.bal with | some b => ballotOpen s && b.chans.contains n | none => false
    if hit then ballotEnds 3 (packW [(0, 12, sender), (12, 8, fld w0 0 8), (20, 4, n)]) s else s

/-- A KEEP_AWAKE of this device has ended SENT on channel n (R424, R427, R433). -/
def keepAwakeSent (n : Nat) (w0 : Word) (s : State) : State :=
  let code := fld w0 0 8
  let s := if inBallotMask s n then awakeRestart s else s
  wakeTidy (s.modPw fun p => { p with
    wakeInput := if code = 1 then mmap (fun (sent : List Nat) => sent ++ [n]) p.wakeInput else p.wakeInput
    hostWake := if code = 2 then p.hostWake.filter (· != n) else p.hostWake
    traffic := if code = 4 then p.traffic.filter (· != n) else p.traffic })

/-- Any frame has ended SENT on channel n: on a channel with bdp_en = 0 it ends the reasons of R424. -/
def pwFrameSent (n : Nat) (s : State) : State :=
  if bdpEn s n then s
  else s.modPw fun p => { p with hostWake := p.hostWake.filter (· != n), traffic := p.traffic.filter (· != n) }

/-- A ballot frame of this device has ended SENT on channel n (R429): of the ballot that is open, and of its present phase;
`w0` is its payload. -/
def ballotSent (n kind : Nat) (w0 : Word) (s : State) : State :=
  if fld w0 0 16 ≠ s.pw.ballotNo ∨ s.pw.ballot ≠ (if kind = kPrepare then 1 else 3) then s
  else s.modPw fun p => { p with bal := p.bal.map (fun (b : Ballot) => { b with sent := if b.sent.contains n then b.sent else b.sent ++ [n] }) }

/-! ## Entry (R415, R416, R419) -/

/-- The rings of ended commands are forgotten wherever work of theirs was under way. -/
def forgetRings (keep : Option Nat) (s : State) : State :=
  let ok := fun r => keep == some r
  let s := s.modLat fun l => { l with writes := l.writes.filter (fun w => ok w.ring),
                                      commits := l.commits.filter (fun c => ok c.ring), drain := [] }
  let s := { s with units := mmap (fun u => { u with job := none }) s.units }
  let s := { s with tg := { s.tg with ctxs := mmap (fun c => { c with ring := none }) s.tg.ctxs } }
  let s := { s with dx := { s.dx with resync := [], held := s.dx.held.map (fun (h : CtlChange) => { h with ring := none }),
                                      swap := s.dx.swap.map (fun (w : Swap) => { w with ring := none }) } }
  let s := s.modPool fun p => { p with queues := mmap (fun u => { u with
    flush := u.flush.map (fun (f : Flush) => { f with ring := if ok f.ring then f.ring else 4 }) }) p.queues }
  let s := proofAbandon s
  let s := s.modPw fun p => { p with bal := p.bal.map (fun (b : Ballot) => { b with ring := none, ring2 := none })
                                     locals := p.locals.map (fun (l : LocalReq) => { l with ring := none }) }
  let s := { s with boot := { s.boot with commit := match s.boot.commit with
    | some j => if j.ring.isNone || s.boot.phase == Phase.service then some { j with ring := none } else none
    | none => none } }
  { s with chans := mmap (fun c => { c with
    trxRing := none, latch := c.latch.map (fun (l : Latched) => { l with rings := [] }) }) s.chans }

/-- Every fetched command that has not completed completes with E_STATE, except that of ring `keep` (R416, step 1). -/
def endFetched (keep : Option Nat) (s : State) : State :=
  let s := (List.range 4).foldl (fun s r =>
    if keep == some r then s
    else
      let s := s.modCmd r fun c => { c with begun := true }
      endCommand eState s r) s
  forgetRings keep s

/-- The number of a mode in 0x7B PW_MODE_CHANGE: not given by the manual (log entry 17). -/
def modeNumber (m : Fin 4) : Nat := (Config.modeCode m).toNat

/-- 0x7B PW_MODE_CHANGE (R439): the mode and PW_WAKE. -/
def modeEvent (m : Fin 4) (s : State) : State := raise 0x7B 0 [(8, modeNumber m), (32, s.pw.wake.toNat)] s

/-- The prime buffers of channel n are disarmed and their frames dropped, one on the wire too, with no outcome (R208). -/
def dropPrimes (n : Nat) (s : State) : State :=
  let s := s.modChan n fun c => { c with primes := mmap (fun (p : Prime) => { p with armed := false }) c.primes }
  match (s.chan n).latch with
  | some l =>
    if l.source < 3 then ckFinished (16 + n) (s.modChan n fun c => { c with latch := none, dataPh := false, dupCnt := 0 })
    else s
  | none => s

/-- Entry to SLEEP or HIBERNATE starts (R415, R416, steps 1 to 3); `ring`: the PW_MODE that caused it completes OK. -/
def startEntry (hib : Bool) (ring : Option Nat) (s : State) : State :=
  let s := endFetched ring s
  let s := match ring with | some r => complete r stOk (pwStat s) 0 s | none => s
  let s := (List.range 16).foldl (fun s n => putAsleep n (dropPrimes n s)) s
  let s := s.modPw fun p => { p with mode := .entering hib, reenter := none }
  modeEvent (if hib then 3 else 2) s

/-- A status bit of class 2 is set (R419). -/
def class2Set (s : State) : Bool :=
  (List.range 64).any fun i => bitOf64 s.vx.stat i && classMapOf s.vx.classes i == 2

/-- What refuses entry (R419): the status, or 0. -/
def entryRefused (s : State) : Nat :=
  if s.vx.safe then eFault else if class2Set s then eState else if s.pw.ballot ≠ 0 then eBusy else 0

/-- The device sleep condition (R436). -/
def sleepCondition (s : State) : Bool :=
  (fld s.pw.cfg 0 2 == 1 || fld s.pw.cfg 0 2 == 2)
  && ((List.range 16).all fun n => (s.chan n).state == .stopped || (s.chan n).state == .safe || asleep s n)
  && (reasonsHeld s).isEmpty && s.pw.latch == 0 && entryRefused s == 0

/-- DEVICE_SLEEP_ENTRY (R436). -/
def execDeviceSleepEntry (s : State) : Host.Outcome State Fault Refusal :=
  .next (if inService s && s.pw.awake && sleepCondition s then startEntry (fld s.pw.cfg 0 2 == 2) none s else s)

/-- Step 3 of R416: the frames that Tangent has built and not committed are dropped, and a context that was DISABLING for its frame
is DISABLED. -/
def dropFrames (s : State) : State :=
  { s with tg := { s.tg with emitQ := [], ctxs := mmap (fun (c : Ctx) =>
    if c.frame.isNone then c
    else { c with words := mset c.words 26 (putFld (mget 0#32 c.words 26) 6 1 0), frame := none, ring := none
                  state := if c.state == .disabling then .disabled else c.state }) s.tg.ctxs } }

/-- What the gated core loses (R23, R208, R315, R321, R345, R459): the pool with every item, staging and frames under
way, prime buffers, input latches, holds, jobs, BDP items, snapshots and records, histograms. -/
def sleepLoses (s : State) : State :=
  let s := s.modPool fun p => { p with
    mem := [], owner := [], linkBad := [], linkMark := [], lowTold := false
    queues := mmap (fun u => { u with items := [], lock := none, fullTold := false }) p.queues }
  let s := { s with chans := mmap (fun c => { c with
    rx := none, staged := [], commits := [], rets := [], loaded := none, loadedCell := 65536, latch := none, taken := [], primes := [], dataPh := false }) s.chans }
  let s := { s with cd := { s.cd with holds := [], rets := [] } }
  let s := { s with tg := { s.tg with spCells := none, ctxs := mmap (fun c =>
    { c with latch := 0, valid := false, updated := false, latchCh := 0, pendK := none }) s.tg.ctxs } }
  let s := s.modBdp fun b => { b with due := [], own := [], answers := [], echoes := [] }
  let s := { s with dx := { s.dx with recs := [], pend := [], rxEpoch := none, committed := 0,
                                      commitBuf := [], commits := [], replays := [], ref := none,
                                      refFor := none, sendBad := false, bufBad := false, commitBad := false, txNow := none,
                                      txWait := [], linkUp := false, lane0 := false, lane1 := false } }
  let s := { s with mp := { s.mp with cur := [], last := [], delays := [], senders := [], chDly := [] } }
  let s := s.modVx fun v => { v with alivePin := false }
  s.modSq fun q => { q with linkUp := false, linkWidth := 0, linkSpeed := false, stgCells := 0 }

/-- The posted writes drain: the completions that wait for their entries are written (R489). -/
def drainPosted (s : State) : State := (List.range 4).foldl (fun s r => writeCompletion r s) s

/-- ENTRY_COMPLETE (R415, R416): posted writes drain (R489), the time base is stored (R253) and the core is gated; for HIBERNATE PWR_HOLD falls. Every
channel is asleep, so a participant's commitment is fulfilled (R431, R432). A latch bit set during entry is served as soon
as entry completes. -/
def execEntryComplete (s : State) : Host.Outcome State Fault Refusal :=
  .next (
    match s.pw.mode with
    | .entering hib =>
      let s := drainPosted s
      let s := s.modRet fun r => { r with time := s.tm.now }
      let s := (sleepLoses (dropFrames s)).modPw fun p => { p with committed := false }
      let wake := s.pw.latch ≠ 0
      s.modPw fun p => { p with
        mode := if hib then .hibernate else if wake then .waking else .sleep
        pwrHold := !hib || wake }
    | _ => s)

/-- ENTRY_TIMEOUT (R415, R421): `step` (0 to 4) is the step of R416, less one, that had not completed; past the third, frames that
waited for their commit are gone. In
RUN again, the awake timer is set (R433) and wakes latched meanwhile are served (R422). -/
def execEntryTimeout (step : Fin 5) (s : State) : Host.Outcome State Fault Refusal :=
  .next (
    match s.pw.mode with
    | .entering _ =>
      let s := if 3 ≤ step.val then dropFrames s else s
      serveLatch (awakeRestart
        (vxAssert 39 (packW [(0, 16, 0), (16, 16, step.val + 1)]) (s.modPw fun p => { p with mode := .run })))
    | _ => s)

/-! ## Exit (R417, R420, R421) -/

/-- The retention's fields that hold byte `b` take their cleared values (R420), and the claim in force with its field. -/
def retClear (b : Nat) (s : State) : State :=
  let s := if b = 8 ∨ b = 9 then { s with dx := { s.dx with claim := 0 } } else s
  s.modRet fun r =>
    if b < 8 then { r with time := 0 }
    else if b < 0xA then { r with claim := 0 }
    else if b < 0xC then { r with devAddr := none }
    else if b = 0xC then { r with last3 := 0 }
    else if 0x10 ≤ b ∧ b < 0x14 then { r with last3Info := 0 }
    else if 0x14 ≤ b ∧ b < 0x16 then { r with ballotNo := 0 }
    else if 0x20 ≤ b ∧ b < 0x40 then { r with fwCount := mdel r.fwCount ((b - 0x20) / 2) }
    else if 0x40 ≤ b then { r with scratch := mdel r.scratch ((b - 0x40) / 4) }
    else r

/-- Parity errors found in the retention: the fields take their cleared values, source 39 asserts with kind RETENTION
and the first failing byte (R420, R421). -/
def retCheck (bad : List (Fin 128)) (s : State) : State :=
  match leastOf (bad.map (·.val)) with
  | some b =>
    vxAssert 39 (packW [(0, 16, 1), (16, 16, b)]) (bad.foldl (fun s b => retClear b.val s) s)
  | none => s

/-- PW_WAKE's causes from the latch (R437). -/
def wakeCauses (latch : Nat) : Word := w32 (latch % 2 ^ 19)

/-- The time base at an exit from SLEEP goes on from the retained value, `ticks` AO ticks later, or at 0 where
a parity error has cleared it (R420), the last PPS edge at its distance (R257); a slave is in holdover (R417). -/
def exitTime (ticks : Nat) (bad : List (Fin 128)) (s : State) : State :=
  let now : DWord :=
    if bad.any (fun b => decide (b.val < 8)) then 0 else BitVec.ofNat 64 (s.ret.time.toNat + ticks * 1953125 / 64)
  let moved : Int := now.toNat - (s.tm.now.toNat + (ticks * 1953125 / 64 : Nat))
  let s := s.modTm fun t => { t with now := now, sync := [], preStep := none
                                     lastEdge := if bad.any (fun b => decide (b.val < 8)) then t.lastEdge.map (· + moved) else t.lastEdge }
  if servoRuns s ∧ s.tm.state ≠ 3 then raise 0x53 0 [] (servoTo 3 s) else s

/-- A flush whose marked items the sleep has discarded is over (R190, R191): the queue is OPEN at the exit (DEDUCED, log entry
134). -/
def reopen (u : Queue) : Queue :=
  match u.flush with
  | some f => if f.repair then u else { u with state := .opened, flush := none }
  | none => u

/-- What else an exit from SLEEP finds anew (R191, R417): flushes that the sleep has ended, full token buckets, a locked GL_KEY, a
paired unit in PAIRING (R345). -/
def exitBlocks (s : State) : State :=
  { s with
    pool := { s.pool with queues := mmap reopen s.pool.queues }
    cd := { s.cd with routes := mmap (fun t => { t with tokens := fld t.rate 16 8 }) s.cd.routes }
    gl := { s.gl with unlocked := false, armed := false }
    dx := if s.dx.pairEn then { s.dx with state := 1, startRun := true, heard := false, partner := none, busLost := false, swap := none }
          else s.dx }

/-- The one channel whose wake alone ended the sleep, without a frame (R425). -/
def onlyWake (p : Pw) : Option Nat := (List.range 16).find? fun n => p.latch == 2 ^ n && !p.byFrame.contains n

/-- The mode at the end of an exit from SLEEP: the wake causes are recorded and the latch is served (R417, R422). -/
def exitMode (s : State) : State :=
  let only := onlyWake s.pw
  let s := awakeRestart (s.modPw fun p => { p with mode := .run, wake := wakeCauses p.latch })
  (modeEvent (if s.pw.doze then 1 else 0) (serveLatch s)).modPw fun p => { p with reenter := only }

/-- EXIT_COMPLETE (R417): `ticks` AO ticks after entry; `bad`: retention bytes with a parity error. -/
def execExitComplete (ticks : Nat) (bad : List (Fin 128)) (s : State) : Host.Outcome State Fault Refusal :=
  .next (if s.pw.mode = .waking then exitMode (exitBlocks (exitTime ticks bad (retCheck bad s))) else s)

/-! ## Wakes (R422 to R426) -/

/-- BUS_WAKE (R423): CHn_RXD has stayed low past the filter. Outside RUN, and on a channel of a committed group, the
latch keeps it; in HIBERNATE VDD_IO is off and no wake is seen (R418). -/
def execBusWake (ch : Fin 16) (s : State) : Host.Outcome State Fault Refusal :=
  let n := ch.val
  .next (
    if !bitOf (chWake s n) 0 ∨ !asleep s n ∨ (s.chan n).state = .safe ∨ s.vx.safe ∨ s.pw.mode = .hibernate then s
    else
      let s := s.modPw fun p => { p with reenter := none }
      if s.pw.mode ≠ .run ∨ groupCommitted s n then latchWake n s
      else wakeChannel n 0 false s)

/-- HOST_WAKE_PIN (R422): a filtered falling edge on GPIO15. In RUN nothing waits for it and the bit is served at once.
-/
def execHostWakePin (s : State) : Host.Outcome State Fault Refusal :=
  .next (if bitOf s.pw.cfg 2 then serveLatch (latchWake 16 (s.modPw fun p => { p with reenter := none })) else s)

/-- WAKE_TIMER (R422): wake_timer_s have passed since entry to SLEEP or HIBERNATE. -/
def execWakeTimer (s : State) : Host.Outcome State Fault Refusal :=
  .next (if fld s.pw.timer 0 16 ≠ 0 ∧ (s.pw.mode = .sleep ∨ s.pw.mode = .hibernate) then latchWake 17 s else s)

/-- CONFIRM_TIMEOUT (R425, R426): confirm_ms have passed without a frame. -/
def execConfirmTimeout (ch : Fin 16) (s : State) : Host.Outcome State Fault Refusal :=
  let n := ch.val
  .next (
    match s.pw.confirm.find? fun e => e.1 == n with
    | some (_, group) =>
      let back := s.pw.reenter
      let s := s.modPw fun p => { p with confirm := mdel p.confirm n, winOpen := if p.winOpen.contains n then p.winOpen else p.winOpen ++ [n], reenter := none }
      let s := s.modRet fun r => { r with fwCount := mset r.fwCount n (satInc 0xFFFF (mget 0 r.fwCount n)) }
      let w := mget 0 s.pw.winCount n + 1
      let s := if fld (chWake s n) 16 8 ≤ w then
          s.modPw fun p => { p with winCount := mset p.winCount n 0, filtLong := if p.filtLong.contains n then p.filtLong else p.filtLong ++ [n] }
        else s.modPw fun p => { p with winCount := mset p.winCount n w }
      let s := s.modPw fun p => { p with wakeInput := mdel p.wakeInput n }
      let s := (n :: group).foldl (fun s m => putAsleep m s) s
      let s := raise 0x7A n [(8, n), (16, mget 0 s.ret.fwCount n), (8, filtNow s n)] s
      if back = some n ∧ s.pw.latch = 0 ∧ entryRefused s = 0 ∧ s.pw.awake then
        startEntry false none s
      else s
    | none => s)

/-- FW_WINDOW_CLOSE (R426): the window of 3 600 s of channel ch closes. -/
def execFwWindowClose (ch : Fin 16) (s : State) : Host.Outcome State Fault Refusal :=
  let n := ch.val
  .next (
    if s.pw.winOpen.contains n then
      s.modPw fun p => { p with
        winOpen := p.winOpen.filter (· != n)
        filtLong := if mget 0 p.winCount n = 0 then p.filtLong.filter (· != n) else p.filtLong
        winCount := mdel p.winCount n }
    else s)

/-! ## Commands (R438) -/

/-- 0x78 PW_SLEEP_PREPARE. -/
def sleepPrepareBody (r : Nat) (ws : List Word) (s : State) : State :=
  let mask := if fld (wd ws 1) 0 16 = 0 then ballotMask s else fld (wd ws 1) 0 16
  let chans := (List.range 16).filter fun n => mask.testBit n
  let window := if fld (wd ws 2) 0 16 = 0 then fld s.pw.ballotReg 16 16 else fld (wd ws 2) 0 16
  let delay := if fld (wd ws 2) 16 16 = 0 then fld s.pw.ballot2 0 16 else fld (wd ws 2) 16 16
  if s.pw.ballot ≠ 0 ∨ isStandby s ∨ (chans.any fun n => (s.chan n).state != .active || !bdpEn s n) then
    complete r eState 0 0 s
  else if window < 5 ∨ chans.isEmpty then complete r eParam 0 0 s
  else openBallot { chans := chans, extra := [], window := window, delay := delay, cause := 0,
                    auto := bitOf (wd ws 0) 8, sent := [], ring := some r, ring2 := none } s

/-- PW_SLEEP_PREPARE. -/
def execPwSleepPrepare (r : Fin 4) (s : State) : Host.Outcome State Fault Refusal :=
  .next (beginOp r.val 0x78 (sleepPrepareBody r.val) s)

/-- PW_SLEEP_COMMIT: commits the ballot of that number in READY; E_TIMEOUT where it has lapsed (R429, R438). -/
def sleepCommitBody (r : Nat) (ws : List Word) (s : State) : State :=
  let no := fld (wd ws 1) 0 16
  match s.pw.bal with
  | some b =>
    if s.pw.ballot = 2 ∧ s.pw.ballotNo = no then complete r stOk (w32 no) 0 (commitBallot b s)
    else complete r eNotFound (w32 no) 0 s
  | none => complete r (if s.pw.lapsed = no ∧ no ≠ 0 then eTimeout else eNotFound) (w32 no) 0 s

/-- PW_SLEEP_COMMIT. -/
def execPwSleepCommit (r : Fin 4) (s : State) : Host.Outcome State Fault Refusal :=
  .next (beginOp r.val 0x79 (sleepCommitBody r.val) s)

/-- A PW_CH_WAKE and PW_CH_CONF image is in range (R437, R438). -/
def chWakeOk (w c : Word) : Bool :=
  let short := fld w 4 3
  let long := fld w 8 3
  decide (1 ≤ short ∧ short ≤ 5) && decide (1 ≤ long ∧ long ≤ 5) && fld w 16 8 != 0
  && fld w 7 1 == 0 && fld w 11 5 == 0 && fld w 24 8 == 0 && decide (10 ≤ fld c 0 16) && fld c 16 16 == 0

/-- The global power images are in range (R437, R438). -/
def pwGlobalOk (cfg bal bal2 timer : Word) : Bool :=
  fld cfg 0 2 != 3 && fld cfg 3 5 == 0 && fld cfg 16 16 != 0
  && decide (5 ≤ fld bal 16 16)
  && decide (100 ≤ fld bal2 16 16) && decide (fld bal2 16 16 < fld cfg 16 16 * 1000)
  && fld timer 16 16 == 0

/-- ballot_mask would change while a ballot is open or the group is committed (R438). -/
def maskBusy (s : State) (bal : Word) : Bool :=
  fld bal 0 16 != ballotMask s && (s.pw.ballot != 0 || s.pw.committed)

/-- Sets the wake configuration of channel n. -/
def setChWake (n : Nat) (w c : Word) (s : State) : State :=
  s.modPw fun p => { p with chWake := mset p.chWake n w, chConf := mset p.chConf n c }

/-- Sets the global power configuration; app_codes is not written. -/
def setPwGlobal (cfg bal bal2 timer : Word) (s : State) : State :=
  wakeTidy (s.modPw fun p => { p with cfg := putFld cfg 8 8 0, ballotReg := bal, ballot2 := bal2, timer := timer })

/-- 0x7A PW_WAKE_CONFIG. -/
def wakeConfigBody (r : Nat) (ws : List Word) (s : State) : State :=
  if bitOf (wd ws 1) 4 then
    if !pwGlobalOk (wd ws 2) (wd ws 3) (wd ws 4) (wd ws 5) then complete r eParam (pwCfg s) 0 s
    else if maskBusy s (wd ws 3) then complete r eState (pwCfg s) 0 s
    else
      let s := setPwGlobal (wd ws 2) (wd ws 3) (wd ws 4) (wd ws 5) s
      complete r stOk (pwCfg s) 0 s
  else
    let n := fld (wd ws 1) 0 4
    if !chWakeOk (wd ws 2) (wd ws 3) then complete r eParam (chWake s n) 0 s
    else
      let s := setChWake n (wd ws 2) (wd ws 3) s
      let s := if bitOf (wd ws 0) 8 then
          (s.modRet fun t => { t with fwCount := mdel t.fwCount n }).modPw fun p => { p with
            winCount := mdel p.winCount n, winOpen := p.winOpen.filter (· != n), filtLong := p.filtLong.filter (· != n) }
        else s
      complete r stOk (chWake s n) 0 s

/-- PW_WAKE_CONFIG. -/
def execPwWakeConfig (r : Fin 4) (s : State) : Host.Outcome State Fault Refusal :=
  .next (beginOp r.val 0x7A (wakeConfigBody r.val) s)

/-- A 0x7B PW_MODE packet whose op satisfies `f`. -/
def isPwMode (f : Nat → Bool) (ws : List Word) : Bool := pOpcode ws == 0x7B && f (fld (wd ws 1) 0 3)

/-- DOZE_ON (R414, R415). -/
def execDozeOn (r : Fin 4) (s : State) : Host.Outcome State Fault Refusal :=
  .next (beginWhen r.val (isPwMode (· == 1)) (fun _ s =>
    let s := s.modPw fun p => { p with doze := true }
    complete r.val stOk (pwStat s) 0 s) s)

/-- DOZE_OFF (R415); the row also takes the refused ops 6 and 7 (R438). -/
def execDozeOff (r : Fin 4) (s : State) : Host.Outcome State Fault Refusal :=
  .next (beginWhen r.val (isPwMode fun op => op == 0 || op == 6 || op == 7) (fun ws s =>
    if fld (wd ws 1) 0 3 ≠ 0 then complete r.val eParam (pwStat s) 0 s
    else
      let s := s.modPw fun p => { p with doze := false }
      complete r.val stOk (pwStat s) 0 s) s)

/-- PW_MODE op SLEEP or HIBERNATE (R416, R419). -/
def pwModeEnter (r : Nat) (hib : Bool) (s : State) : State :=
  let e := entryRefused s
  if e ≠ 0 then complete r e (pwStat s) 0 s else startEntry hib (some r) s

/-- PW_MODE_SLEEP. -/
def execPwModeSleep (r : Fin 4) (s : State) : Host.Outcome State Fault Refusal :=
  .next (beginWhen r.val (isPwMode (· == 2)) (fun _ s => pwModeEnter r.val false s) s)
/-- PW_MODE_HIBERNATE. -/
def execPwModeHibernate (r : Fin 4) (s : State) : Host.Outcome State Fault Refusal :=
  .next (beginWhen r.val (isPwMode (· == 3)) (fun _ s => pwModeEnter r.val true s) s)

/-- A reason code that PW_MODE takes: HOST, or an APPLICATION code (R427, R438). -/
def reasonCodeOk (c : Nat) : Bool := c == 2 || decide (0x80 ≤ c)

/-- REASON_SET (R427, R428). -/
def execReasonSet (r : Fin 4) (s : State) : Host.Outcome State Fault Refusal :=
  .next (beginWhen r.val (isPwMode (· == 4)) (fun ws s =>
    let c := fld (wd ws 2) 0 8
    if !reasonCodeOk c then complete r.val eParam (pwStat s) 0 s
    else
      let before := s
      let s := s.modPw fun p =>
        if c = 2 then { p with hostHeld := true }
        else { p with appCodes := if p.appCodes.contains c then p.appCodes else p.appCodes ++ [c] }
      let s := if c = 2 then noteReasons before s
        else if before.pw.appCodes.contains c then s else reasonArose s
      complete r.val stOk (pwStat s) 0 s) s)

/-- REASON_CLEAR (R427). -/
def execReasonClear (r : Fin 4) (s : State) : Host.Outcome State Fault Refusal :=
  .next (beginWhen r.val (isPwMode (· == 5)) (fun ws s =>
    let c := fld (wd ws 2) 0 8
    if !reasonCodeOk c then complete r.val eParam (pwStat s) 0 s
    else
      let s := s.modPw fun p =>
        if c = 2 then { p with hostHeld := false } else { p with appCodes := p.appCodes.filter (· != c) }
      complete r.val stOk (pwStat s) 0 s) s)

end Sys2Proof.Machine
end

