-- ==== Sys2Proof/Machine/Chord.lean ====
section
/-!
DEFINITION. Chord (chapter 8): the route table, the rewrite of a copy's header, the two slots of a channel's pair, the
commit of cut-through copies, and the recharge of R179, which the check units share.
-/
namespace Sys2Proof.Machine

/-! ## Recharge (R179) -/

/-- Charges a cell without events, for the test of a recharge. -/
def chargeRaw (c q : Nat) (s : State) : State := s.modPool fun p => { p with owner := mset p.owner c q }

/-- The allocations of a recharge one after the other (R172). -/
def rechargeFrom (q : Nat) : List Nat → Bool → State → Bool
  | [], _, _ => true
  | c :: t, first, s => allocOk s q first && rechargeFrom q t false (chargeRaw c q s)

/-- A recharge of an item's cells to queue q is allowed: judged as if its cells were returned first (R179). -/
def rechargeOk (s : State) (q : Nat) (cells : List Nat) : Bool :=
  rechargeFrom q cells true (s.modPool fun p => { p with owner := p.owner.filter fun e => !cells.contains e.1 })

/-- The cells of an item are charged to queue q instead. -/
def recharge (q : Nat) (cells : List Nat) (s : State) : State :=
  let src := mget 0 s.pool.owner (cells.headD 0)
  poolLow (fullRearm src (cells.foldl (fun s c => chargeOne c q s) s))

/-! ## Routes (R232) -/

/-- out_queue of a route. -/
def rtQueue (e : Route) : Nat := fld e.cfg 8 8
/-- Class of a route. -/
def rtClass (e : Route) : Nat := fld e.cfg 16 4
/-- A route waits for a token: it has a limit and none is left (R235). -/
def rtEmpty (e : Route) : Bool := fld e.rate 0 16 != 0 && e.tokens == 0
/-- A forward consumes a token (R235). -/
def takeToken (r : Nat) (s : State) : State :=
  s.modRoute r fun e => { e with tokens := if fld e.rate 0 16 = 0 then e.tokens else e.tokens - 1 }

/-! ## Translation and conversion (R233, R234) -/

/-- The output format. -/
def outFormat (e : Route) (inF : Nat) : Nat :=
  let m := fld e.cfg 2 2
  if m = 0 then inF else m - 1

/-- The identifier and IDE after translation (R233). -/
def translate (e : Route) (w1 : Word) : Nat × Bool :=
  let m := fld e.ident 30 2
  let id := fld w1 0 29
  let ide := bitOf w1 31
  if m = 1 then (if bitOf e.ident 29 then (fld e.ident 0 29, true) else (fld e.ident 0 11, false))
  else if m = 2 then
    (if ide then ((id + fld e.ident 0 29) % 2 ^ 29, true) else ((id % 2048 + fld e.ident 0 11) % 2048, false))
  else (id, ide)

/-- The reason for which the conversion is impossible, or none (R234). -/
def conversionFault (e : Route) (ws : List Word) : Option Nat :=
  let inF := dFormat (wd ws 0)
  let outF := outFormat e inF
  let keep := fld e.cfg 2 2 == 0
  let len := dLength (wd ws 0)
  let remote := inF == 0 && bitOf (wd ws 1) 30
  if !keep ∧ inF = 3 then some 0x4
  else if outF = 0 ∧ 8 < len ∧ !remote then some 0x5
  else if (outF = 1 ∨ outF = 2) ∧ remote then some 0x4
  else if outF = 1 ∧ 64 < len then some 0x5
  else if outF = 2 ∧ len = 0 then some 0x5
  else if outF = 2 ∧ (translate e (wd ws 1)).2 then some 0x6
  else none

/-- The outbound descriptor (R234, R205) of a copy of route r. -/
def rewrite (r : Nat) (e : Route) (ws : List Word) : List Word :=
  let w0 := wd ws 0
  let w1 := wd ws 1
  let w2 := wd ws 2
  let inF := dFormat w0
  let outF := outFormat e inF
  let keep := fld e.cfg 2 2 == 0
  let id := translate e w1
  let own := inF == 2 && !bitOf e.xl 17
  let w2' := if outF = 2 then
      (if own then packW [(0, 8, fld w2 0 8), (8, 8, fld w2 8 8), (16, 1, fld w2 16 1)]
       else packW [(0, 8, fld e.xl 0 8), (8, 8, fld e.xl 8 8), (16, 1, fld e.xl 16 1)])
    else if outF = 1 then packW [(17, 1, fld e.cfg 7 1)]
    else if outF = 3 then packW [(17, 1, fld w2 17 1), (19, 1, fld w2 19 1)]
    else 0#32
  [putFld (putFld (putFld w0 28 3 outF) 20 4 (rtClass e)) 31 1 1,
   packW [(0, 29, id.1), (31, 1, b1 id.2), (30, 1, if keep then fld w1 30 1 else 0)],
   w2', if inF = 2 ∧ outF = 2 then wd ws 3 else 0#32, wd ws 4, wd ws 5, packW [(16, 16, r)], wd ws 7]

/-! ## Drops and completion of CD_ROUTE_REMOVE (R237, R243) -/

/-- A copy of route r received on channel n is dropped (R237, R249, R250). -/
def routeDrop (r n reason : Nat) (s : State) : State :=
  let s := rtCount r 1 s
  let s := rtCount r (if reason = 0x2 then 4 else if reason = 0x1 then 5 else if reason = 0x3 then 6 else 7) s
  raise 0x48 r [(16, r), (8, n), (8, reason)] s

/-- The hold of channel n. -/
def holdOf (s : State) (n : Nat) : Option Hold := (s.cd.holds.find? fun e => e.1 == n).map (·.2)

/-- Some hold carries a copy of route r. -/
def routeHeld (s : State) (r : Nat) : Bool := s.cd.holds.any fun e => e.2.route == r

/-- The entry of route r is cleared (R243): its counters stay. -/
def clearRoute (r : Nat) (s : State) : State := s.modRoute r fun e => { Route.reset with cnt := e.cnt }

/-- 0x49 CD_ROUTE_REMOVE completes once no hold carries a copy of its route (R243). -/
def removeCheck (r : Nat) (s : State) : State :=
  if routeHeld s r then s
  else (waiting s 0x49 fun ws => fld (wd ws 1) 0 10 == r).foldl (fun s ring =>
    let aux := match (s.cr ring).cmd with | some c => c.aux | none => []
    let s := if bitOf (pkt s ring 0) 8 then s else clearRoute r s
    complete ring stOk (w32 (aux.headD 0 + 2 * aux.getD 1 0)) 0 s) s

/-- A copy of route r was forwarded out of a hold: CD_ROUTE_REMOVE reports it. -/
def noteForward (r : Nat) (s : State) : State :=
  (waiting s 0x49 fun ws => fld (wd ws 1) 0 10 == r).foldl (fun s ring =>
    s.modCmd ring fun c => { c with aux := [c.aux.headD 0, 1] }) s

/-- The hold of channel n is empty again. -/
def emptyHold (n : Nat) (s : State) : State := s.modCd fun c => { c with holds := mdel c.holds n }

/-- Takes the copy of a hold out with a drop; `late`: its cells wait for the next pair's first slot (R230, step 6). -/
def dropHeld (n : Nat) (h : Hold) (reason : Nat) (late : Bool) (s : State) : State :=
  let s := routeDrop h.route n reason (emptyHold n s)
  let s := if late then s.modCd fun c => { c with rets := mset c.rets n h.cells } else freeCells h.cells s
  removeCheck h.route s

/-! ## The first slot (R229) -/

/-- The queue of lane k of channel n, when the lane is enabled (R226, R247). -/
def laneQueue (s : State) (n k : Nat) : Option Nat :=
  if (mget 0 s.cd.laneEn n).testBit k then some (fld (mget 0#32 s.cd.chIn n) (8 * k) 8) else none

/-- The heads of the enabled lanes of channel n: (class, place among commit records, lane, queue). -/
def laneHeads (s : State) (n : Nat) : List (Nat × Nat × Nat × Nat) :=
  (List.range 4).filterMap fun k =>
    match laneQueue s n k with
    | some q => (headItem s q).map fun i => (i.cls, i.seq, k, q)
    | none => none

/-- Lower class first, then the earlier commit record, then the lower lane (R229). The list is in lane order. -/
def firstHead : List (Nat × Nat × Nat × Nat) → Option (Nat × Nat × Nat × Nat)
  | [] => none
  | a :: t =>
    match firstHead t with
    | none => some a
    | some b => if b.1 < a.1 ∨ (b.1 = a.1 ∧ b.2.1 < a.2.1) then some b else some a

/-- The copy in cells `cells` popped from lane k of channel n goes into the hold, rewritten (R229, R234). -/
def fillHold (n k : Nat) (cells : List Nat) (s : State) : State :=
  let ws := (readItem s cells).words
  let r := fld (wd ws 6) 16 10
  let e := s.route r
  let h : Hold := { lane := k, cells := cells, route := r, words := rewrite r e ws, fail := conversionFault e ws,
                    disabled := !bitOf e.cfg 0, kept := false, bad := false }
  s.modCd fun c => { c with holds := mset c.holds n h }

/-- What the first slot of channel n's pair carries: a pending return, or the copy popped into an empty hold. -/
def chordPop (n : Nat) (s : State) : State :=
  match mget [] s.cd.rets n with
  | c :: t => freeCells (c :: t) (s.modCd fun d => { d with rets := mdel d.rets n })
  | [] =>
    if (holdOf s n).isSome then s
    else match firstHead (laneHeads s n) with
      | none => s
      | some (_, _, k, q) =>
        let x := takeHead q s
        match x.2 with
        | some i => fillHold n k i.cells x.1
        | none => x.1

/-- This round's pair A or B serves channel n (R228). -/
def pairServes (s : State) (n : Nat) : Bool := ringsUsable s && s.round % 8 == n / 2

/-- The slots of channel n's pair: 2 and 14, or 26 and 38 (R228). -/
def pairSlot (n : Nat) (second : Bool) : Nat := 2 + 24 * (n % 2) + (if second then 12 else 0)

/-- CHORD_SELECT: the first slot of channel ch's pair, in the round that serves ch. A pending return uses the slot's commit lane, so
that nothing is popped in it (log entry 19). -/
def execChordSelect (ch : Fin 16) (s : State) : Host.Outcome State Fault Refusal :=
  .next (
    if forcedSafe s .chord || !pairServes s ch.val then s
    else if (mget [] s.cd.rets ch.val).isEmpty && ((holdOf s ch.val).isSome || (laneHeads s ch.val).isEmpty) then s
    else inSlotAt (· == pairSlot ch.val false) (chordPop ch.val) s)

/-! ## The second slot (R230) -/

/-- The outbound channel counts as asleep (R236). -/
def outAsleep (s : State) (m : Nat) : Bool := lowTrx (s.chan m).trx || lowTrx (s.chan m).trxTgt

/-- A parity error in a route entry or in the hold (R245). -/
def chordParity (r n : Nat) (inHold : Bool) (s : State) : State :=
  let s := if bitOf s.cd.perr 15 then s else
    s.modCd fun c => { c with perr := packW [(0, 10, r), (10, 4, n), (14, 1, b1 inHold), (15, 1, 1)] }
  vxAssert 18 (w32 r) (raise 0x4C r [] s)

/-- Chord asks the wake controller to wake channel m for a copy of route r (R236). -/
def wakeRequest (r m : Nat) (s : State) : State :=
  let s := raise 0x4B r [(16, r), (8, m)] s
  noteReasons s (askWake m (wakeTrx s m) 3 none s)

/-- Channel m is waking (R423, R427): its transceiver settles out of STANDBY or SLEEP. -/
def waking (s : State) (m : Nat) : Bool := (s.chan m).settling && (s.chan m).trx == (s.chan m).trxTgt && !asleep s m

/-- An item of a route with wake_permit = 1 waits for channel m: asked of the wake controller while the channel is asleep, and
while it wakes the reason TRAFFIC is held (R236, R427; log entry 157). -/
def wakeWait (r m : Nat) (permit asleepOut : Bool) (s : State) : State :=
  if asleepOut then wakeRequest r m s
  else if permit && waking s m then
    noteReasons s (s.modPw fun p => { p with traffic := if p.traffic.contains m then p.traffic else p.traffic ++ [m] })
  else s

/-- The copy is forwarded: cell 0 takes the rewritten header, the cells are recharged, the item is committed (R229). -/
def forwardHeld (n : Nat) (h : Hold) (e : Route) (s : State) : State :=
  let q := rtQueue e
  let m := (s.queue q).txCh
  let asleepOut := outAsleep s m
  let s := takeToken h.route (emptyHold n s)
  let s := s.modPool fun p => { p with mem := memWrite p.mem (64 * h.cells.headD 0) (bytesOfWords h.words) }
  let s := commitItem q (rtClass e) h.cells (recharge q h.cells s)
  let s := noteForward h.route (rtCount h.route 0 s)
  let s := wakeWait h.route m (bitOf e.cfg 5) asleepOut s
  removeCheck h.route s

/-- The judgement of a held copy (R230). -/
def judgeHeld (n : Nat) (h : Hold) (s : State) : State :=
  let e := s.route h.route
  let q := rtQueue e
  let m := (s.queue q).txCh
  let drop := bitOf e.cfg 6
  let keep := s.modCd fun c => { c with holds := mset c.holds n { h with kept := true } }
  if e.bad ∨ h.bad then
    let s := chordParity h.route n (!e.bad) s
    dropHeld n h 0x7 false s
  else if h.disabled then dropHeld n h 0x0 false s
  else match h.fail with
    | some f => dropHeld n h f false s
    | none =>
      if outAsleep s m ∧ !bitOf e.cfg 5 then dropHeld n h 0x1 false s
      else if rtEmpty e then (if drop then dropHeld n h 0x2 false s else keep)
      else if !rechargeOk s q h.cells then
        if drop then dropHeld n h 0x3 true (refuse q (refusedByMax s q true) s)
        else refuse q (refusedByMax s q true) keep
      else forwardHeld n h e s

/-- CHORD_JUDGE: the second slot of channel ch's pair, in the round that serves ch. -/
def execChordJudge (ch : Fin 16) (s : State) : Host.Outcome State Fault Refusal :=
  .next (
    if forcedSafe s .chord || !pairServes s ch.val then s
    else match holdOf s ch.val with
      | some h => inSlotAt (· == pairSlot ch.val true) (judgeHeld ch.val h) s
      | none => s)

/-- CD_STALL (R246, R249): a copy has been kept for stall_us. -/
def execCdStall (ch : Fin 16) (s : State) : Host.Outcome State Fault Refusal :=
  .next (match holdOf s ch.val with
    | some h =>
      if h.kept && s.cd.stallUs != 0 then raise 0x4A ch.val [(8, ch.val), (16, h.route)] s else s
    | none => s)

/-- TOKEN_ADD (R235): period_us passes. -/
def execTokenAdd (r : Fin 1024) (s : State) : Host.Outcome State Fault Refusal :=
  let e := s.route r.val
  .next (
    if bitOf e.cfg 1 && fld e.rate 0 16 != 0 && decide (e.tokens < fld e.rate 16 8) then
      s.modRoute r.val fun e => { e with tokens := e.tokens + 1 }
    else s)

/-! ## Cut-through copies (R240) -/

/-- The frame that channel n receives is written no further for its cut-through copy. -/
def forgetCut (n : Nat) (s : State) : State :=
  s.modChan n fun c => { c with rx := c.rx.map fun (f : RxFrame) => { f with chains := f.chains.filter fun k => !isCut k } }

/-- Channel n's cut-through copy is committed with the cells written so far; one that a flush has marked reaches its
boundary and is discarded (R187). -/
def cutCommit (n : Nat) (c : Chain) (s : State) : State :=
  if c.marked then discardMarked c.queue c.cells (forgetCut n s)
  else
    let seq := s.pool.nextSeq
    let s := s.modChan n fun c => { c with rx := c.rx.map fun (f : RxFrame) => { f with ctSeq := some seq } }
    commitItem c.queue c.cls c.cells (rtCount (chainRoute c) 2 s)

/-- CUT_THROUGH_COMMIT: at t_start the copy is committed, in the channel's slot (R35, R240). -/
def execCutThroughCommit (ch : Fin 16) (s : State) : Host.Outcome State Fault Refusal :=
  let n := ch.val
  .next (match (s.chan n).rx with
    | some f =>
      match ctChain f, f.ctSeq with
      | some c, none =>
        if c.cells.isEmpty then s
        else inSlot (.channel n) (cutCommit n c) s
      | _, _ => s
    | none => s)

/-! ## Commands (R248, R250) -/

/-- The parameters of CD_ROUTE_ADD are acceptable (R248). -/
def routeParamsOk (s : State) (cfg ident xl rate : Word) : Bool :=
  let q := fld cfg 8 8
  let m := fld ident 30 2
  (s.queue q).state != .none && (s.queue q).consumer == 5 && m != 3
  && !(m == 1 && !bitOf ident 29 && fld ident 11 18 != 0)
  && !(m == 1 && bitOf ident 29 && fld cfg 2 2 == 3)
  && !(fld rate 0 16 != 0 && fld rate 16 8 == 0)
  && fld cfg 20 12 == 0 && fld xl 18 14 == 0

/-- A route is added, enabled, with a full bucket. -/
def addRoute (r : Nat) (cfg ident xl rate : Word) (s : State) : State :=
  s.modRoute r fun e => { cfg := putFld cfg 0 2 3, ident := ident, xl := xl, rate := rate &&& 0x00FFFFFF#32,
                          tokens := fld rate 16 8, bad := false, cnt := e.cnt }

/-- The commands 0x48 with the reenable flag as given. -/
def isRouteAdd (re : Bool) (ws : List Word) : Bool := pOpcode ws == 0x48 && bitOf (wd ws 0) 8 == re

/-- CD_ROUTE_ADD. -/
def routeAddBody (r : Nat) (ws : List Word) (s : State) : State :=
  let n := (wd ws 1).toNat
  if 1023 < n ∨ !routeParamsOk s (wd ws 2) (wd ws 3) (wd ws 4) (wd ws 5) then complete r eParam 0 0 s
  else if bitOf (s.route n).cfg 1 then complete r eState 0 0 s
  else
    let s := addRoute n (wd ws 2) (wd ws 3) (wd ws 4) (wd ws 5) s
    complete r stOk (s.route n).cfg 0 s

/-- CD_ROUTE_ADD. -/
def execCdRouteAdd (r : Fin 4) (s : State) : Host.Outcome State Fault Refusal :=
  .next (beginWhen r.val (isRouteAdd false) (routeAddBody r.val) s)

/-- CD_ROUTE_ADD with reenable = 1 (R243, R248). -/
def routeReenableBody (r : Nat) (ws : List Word) (s : State) : State :=
  let n := (wd ws 1).toNat
  if 1023 < n then complete r eParam 0 0 s
  else if !bitOf (s.route n).cfg 1 ∨ bitOf (s.route n).cfg 0 then complete r eState 0 0 s
  else
    let s := s.modRoute n fun e => { e with cfg := putFld e.cfg 0 1 1 }
    complete r stOk (s.route n).cfg 0 s

/-- CD_ROUTE_REENABLE. -/
def execCdRouteReenable (r : Fin 4) (s : State) : Host.Outcome State Fault Refusal :=
  .next (beginWhen r.val (isRouteAdd true) (routeReenableBody r.val) s)

/-- CD_ROUTE_REMOVE (R243, R244): the route is disabled at once; the entry is cleared when the command completes. -/
def routeRemoveBody (r : Nat) (ws : List Word) (s : State) : State :=
  let n := fld (wd ws 1) 0 10
  if !bitOf (s.route n).cfg 1 then complete r eNotFound 0 0 s
  else if !bitOf (wd ws 0) 8 ∧ ((List.range 16).any fun c => listNames s (activeHalf s c) c 2 n) then
    complete r eState 0 0 s
  else
    let held := routeHeld s n
    let s := s.modRoute n fun e => { e with cfg := putFld e.cfg 0 1 0 }
    let s := s.modCmd r fun c => { c with aux := [b1 held, 0] }
    let s := if bitOf (wd ws 0) 9 then
        s.cd.holds.foldl (fun s e => if e.2.route = n then dropHeld e.1 e.2 0x0 false s else s) s
      else s
    removeCheck n s

/-- CD_ROUTE_REMOVE. -/
def execCdRouteRemove (r : Fin 4) (s : State) : Host.Outcome State Fault Refusal :=
  .next (beginOp r.val 0x49 (routeRemoveBody r.val) s)

/-- The two result words of a counter group, and the counters it holds (R250). -/
def statsGroup (g : Nat) (e : Route) : Word × Word × List Nat :=
  let c := mget 0 e.cnt
  if g = 0 then (packW [(0, 16, c 0), (16, 16, c 1)], 0, [0, 1])
  else if g = 1 then (packW [(0, 16, c 2), (16, 16, c 3)], 0, [2, 3])
  else (packW [(0, 16, c 4), (16, 16, c 5)], packW [(0, 16, c 6), (16, 16, c 7)], [4, 5, 6, 7])

/-- 0x4A CD_STATS. -/
def cdStatsBody (r : Nat) (ws : List Word) (s : State) : State :=
  let n := fld (wd ws 1) 0 10
  let g := fld (wd ws 2) 0 2
  if g = 3 then complete r eParam 0 0 s
  else if !bitOf (s.route n).cfg 1 then complete r eNotFound 0 0 s
  else
    let x := statsGroup g (s.route n)
    let s := if bitOf (wd ws 0) 8 then
        s.modRoute n fun e => { e with cnt := e.cnt.filter fun c => !x.2.2.contains c.1 }
      else s
    complete r stOk x.1 x.2.1 s

/-- CD_STATS. -/
def execCdStats (r : Fin 4) (s : State) : Host.Outcome State Fault Refusal :=
  .next (beginOp r.val 0x4A (cdStatsBody r.val) s)

end Sys2Proof.Machine
end

