-- ==== Sys2Proof/Machine/Check.lean ====
section
/-!
DEFINITION. The check units (chapter 12): what a unit covers, the sequence test, results and their records, generation
on transmission, and the commands.
-/
namespace Sys2Proof.Machine

/-! ## Settings (R339) -/

/-- mode of CK_CFG. -/
def ckMode (cfg : Word) : Nat := fld cfg 0 2
/-- poly of CK_CFG. -/
def ckPoly (cfg : Word) : Nat := fld cfg 2 2
/-- seq_en of CK_CFG. -/
def ckSeqEn (cfg : Word) : Bool := bitOf cfg 4
/-- chk_off of CK_CFG. -/
def ckOff (cfg : Word) : Nat := fld cfg 16 11
/-- seq_off of CK_CFG2. -/
def ckSeqOff (cfg2 : Word) : Nat := fld cfg2 16 11
/-- seq_win of CK_CFG2. -/
def ckSeqWin (cfg2 : Word) : Nat := fld cfg2 27 4

/-! ## The CRC (R324 to R326) -/

/-- Width in bits of a poly. -/
def ckWidth (p : Nat) : Nat := if p = 0 then 8 else if p = 1 then 16 else 32
/-- Width in bytes of a check field. -/
def ckBytes (p : Nat) : Nat := ckWidth p / 8
/-- Polynomial. -/
def ckPolynomial (p : Nat) : Nat := if p = 0 then 0x2F else if p = 1 then 0x1021 else if p = 2 then 0x04C11DB7 else 0x1EDC6F41
/-- Reflected: CRC32 and CRC32C. -/
def ckReflected (p : Nat) : Bool := decide (2 ≤ p)
/-- Initial register. -/
def ckInit (p : Nat) : Nat := 2 ^ ckWidth p - 1
/-- xorout. -/
def ckXor (p : Nat) : Nat := if p = 1 then 0 else 2 ^ ckWidth p - 1
/-- A run of bytes folded into a register. -/
def ckFold (p reg : Nat) (l : List Byte) : Nat := crcBytes (ckWidth p) (ckPolynomial p) (ckReflected p) reg l
/-- The register as CK_RUN shows it, and back (R336): reflected for CRC32 and CRC32C. -/
def ckShow (p reg : Nat) : Nat := if ckReflected p then reflect 32 reg else reg
/-- The final value of a register. -/
def ckFinal (p reg : Nat) : Nat := ckShow p reg ^^^ ckXor p

/-- Payload bytes 0 to chk_off - 1 without byte seq_off (R325, step 4). -/
def ckCovered (cfg cfg2 : Word) (data : List Byte) : List Byte :=
  (List.range (ckOff cfg)).filterMap fun i => if i = ckSeqOff cfg2 then none else some (byteAt data i)

/-- The preamble of R325: data ID and sequence byte. -/
def ckPreamble (did : Nat) (seq : Byte) : List Byte := [BitVec.ofNat 8 (did / 256), BitVec.ofNat 8 did, seq]

/-- The value over a payload (R325). -/
def ckValue (cfg cfg2 : Word) (did : Nat) (seq : Byte) (data : List Byte) : Nat :=
  let p := ckPoly cfg
  ckFinal p (ckFold p (ckInit p) (ckPreamble did seq ++ ckCovered cfg cfg2 data))

/-- The data ID of a frame or item with this identifier (R325). -/
def ckDataId (cfg cfg2 : Word) (ident : Nat) : Nat :=
  (fld cfg2 0 16 + (if bitOf cfg 5 then ident % 16 else 0)) % 65536

/-- The sequence byte of a payload (R325, step 3). -/
def ckSeqByte (cfg cfg2 : Word) (data : List Byte) : Byte := if ckSeqEn cfg then byteAt data (ckSeqOff cfg2) else 0#8

/-- The check field a payload carries, most significant byte first (R326). -/
def ckCarried (cfg : Word) (data : List Byte) : Nat :=
  (List.range (ckBytes (ckPoly cfg))).foldl (fun a i => a * 256 + (byteAt data (ckOff cfg + i)).toNat) 0

/-- The payload is too short for the check field or the sequence byte (R330, R332). -/
def ckShort (cfg cfg2 : Word) (n : Nat) : Bool :=
  decide (n < ckOff cfg + ckBytes (ckPoly cfg)) || (ckSeqEn cfg && decide (n < ckSeqOff cfg2 + 1))

/-! ## Results (R327, R328, R334, R335, R340) -/

/-- Statuses of R165. -/
def ckPass : Nat := 1
/-- CHECK_FAIL. -/
def ckFail : Nat := 2
/-- ENGINE_FAULT. -/
def ckEngineFault : Nat := 3

/-- Last sequence of stream k of unit u. -/
def ckLast (u : Unit') (k : Nat) : Nat := mget 0 u.seqs k

/-- The sequence test (R327). -/
def ckSeqPasses (u : Unit') (win k seq : Nat) : Bool :=
  win == 0 || !u.seqV.testBit k ||
    (let d := (seq + 256 - ckLast u k) % 256
     decide (1 ≤ d ∧ d ≤ win))

/-- The stream takes the sequence of a correct value (R327). -/
def ckStream (u k seq : Nat) (s : State) : State :=
  s.modUnit u fun x => { x with seqs := mset x.seqs k seq, seqV := x.seqV ||| 2 ^ k }

/-- The engines disagree (R335): eng_seen, 0x61 and source 21, which is not asserted again while a reaction makes the
units behave so. -/
def ckDisagree (u : Nat) (genuine : Bool) (s : State) : State :=
  let s := raise 0x61 u [(8, u)] (s.modUnit u fun x => { x with engSeen := true })
  if genuine then vxAssert 21 (w32 u) s else s

/-- The engines count as disagreeing: a fault, or a reaction against the check units (R335, R392). -/
def ckEngBad (s : State) (fault : Bool) : Bool := fault || forcedSafe s .check

/-- The engines of unit u have shown over some bytes whether they agree (R335). While a reaction makes the units behave as if
they disagreed, source 21 is not asserted again. -/
def ckFaultSeen (u : Nat) (fault : Bool) (s : State) : State :=
  if ckEngBad s fault then ckDisagree u (!forcedSafe s .check) s else s

/-- Records a result of unit u: last result, PASS count, mismatch count. -/
def ckRecord (u res reason : Nat) (s : State) : State :=
  s.modUnit u fun x => { x with last := res, reason := reason,
                                passes := if res = ckPass then wrapInc x.passes else x.passes,
                                mism := if res = ckPass then x.mism else satInc 0xFFFF x.mism }

/-- A result other than PASS over a frame or item: the first is recorded, and 0x60 tells it with irq_en = 1 (R334,
R339). -/
def ckMismatch (u ch reason : Nat) (ident : Nat) (ide : Bool) (cval carried : Word) (irq : Bool) (s : State) : State :=
  let s := if (s.unit u).misSeen then s else
    s.modUnit u fun x => { x with misSeen := true, channel := ch, calcd := cval, carried := carried,
                                  lastId := packW [(0, 29, ident), (29, 1, b1 ide)] }
  if irq then raise 0x60 u [(8, u), (8, reason), (8, ch), (32, ident + (if ide then 2 ^ 31 else 0))] s else s

/-- A value the manual leaves unknown. -/
def ckFree (s : State) : State × Word := (s.freshTick, Config.ckUnknown s.freeCtr)

/-- The check of a payload by unit u under settings `cfg`, `cfg2` (R325 to R328, R330, R335): `fault` says that the
engines count as having disagreed over it (`ckFaultSeen` says it to Vertex), `seqTest` that the sequence test runs. Answers the state after it, with the stream updated and
the result recorded, and the status. -/
def ckRun (u : Nat) (cfg cfg2 : Word) (ch : Nat) (ident : Nat) (ide : Bool) (data : List Byte) (fault seqTest : Bool)
    (s : State) : State × Nat :=
  let irq := bitOf cfg 7
  let seq := ckSeqByte cfg cfg2 data
  if fault then
    let v := ckFree s
    let w := ckFree v.1
    (ckMismatch u ch 4 ident ide v.2 w.2 irq (ckRecord u ckEngineFault 4 w.1), ckEngineFault)
  else if ckShort cfg cfg2 data.length then
    let v := ckFree s
    let w := ckFree v.1
    (ckMismatch u ch 3 ident ide v.2 w.2 irq (ckRecord u ckFail 3 w.1), ckFail)
  else
    let cval := ckValue cfg cfg2 (ckDataId cfg cfg2 ident) seq data
    let carried := ckCarried cfg data
    let win := if seqTest then ckSeqWin cfg2 else 0
    let pass := ckSeqPasses (s.unit u) win (ident % 16) seq.toNat
    if cval ≠ carried then
      (ckMismatch u ch 1 ident ide (w32 cval) (w32 carried) irq (ckRecord u ckFail 1 s), ckFail)
    else
      let s := if win = 0 then s else ckStream u (ident % 16) seq.toNat s
      if pass then (ckRecord u ckPass 0 s, ckPass)
      else (ckMismatch u ch 2 ident ide (w32 cval) (w32 carried) irq (ckRecord u ckFail 2 s), ckFail)

/-! ## Generation on transmission (R332) -/

/-- The unit in TX mode that serves queue q, with its settings. -/
def ckTxUnit (s : State) (q : Nat) : Option (Nat × Word × Word) :=
  (s.units.find? fun u => ckMode u.2.cfg == 2 && fld u.2.cfg 8 8 == q).map fun u => (u.1, u.2.cfg, u.2.cfg2)

/-- `l` with byte i replaced. -/
def putByte (l : List Byte) (i : Nat) (v : Byte) : List Byte := l.set i v

/-- `l` with the bytes of `v` at offset i, most significant first, n bytes. -/
def putBytesBE (l : List Byte) (i n v : Nat) : List Byte :=
  (List.range n).foldl (fun l k => putByte l (i + k) (BitVec.ofNat 8 (v / 256 ^ (n - 1 - k)))) l

/-- The payload that an attempt of channel n's item sends with unit u bound (R332, R335), and its effects. -/
def ckGenerate (u : Nat) (cfg cfg2 : Word) (i : TxItem) (fault : Bool) (s : State) : State × List Byte :=
  if ckShort cfg cfg2 i.data.length then (raise 0x62 u [(8, u), (16, itTag i)] s, i.data)
  else
    let w7 := wd i.words 7
    let seq : Byte := if ckSeqEn cfg then byteOf w7 2 else 0#8
    let did := if bitOf cfg 6 then fld w7 0 16 else ckDataId cfg cfg2 (fld (wd i.words 1) 0 29)
    let data := if ckSeqEn cfg then putByte i.data (ckSeqOff cfg2) seq else i.data
    let n := ckBytes (ckPoly cfg)
    let v := ckValue cfg cfg2 did seq data
    let bad := ckEngBad s fault
    let v := if bad then v ^^^ (256 ^ n - 1) else v
    (ckFaultSeen u fault s, putBytesBE data (ckOff cfg) n v)

/-! ## CK_CONFIG (R341, R342) -/

/-- The frames already bound to unit u: n for the frame that channel n receives, 16 + n for the one it sends. -/
def ckBound (s : State) (u : Nat) : List Nat :=
  (List.range 16).filter (fun n => match (s.chan n).rx with
    | some f => !f.valid && (match f.check with | some k => k.1 == u | none => false)
    | none => false)
  ++ ((List.range 16).filter (fun n => match (s.chan n).latch with
    | some l => (match l.check with | some k => k.1 == u | none => false)
    | none => false)).map (· + 16)

/-- Another ring's FEED_HOST for unit u waits for its buffer (R333); `r`: the ring that asks. -/
def ckFeedWaits (s : State) (u r : Nat) : Bool :=
  (waiting s 0x61 fun ws => fld (wd ws 1) 0 5 == u && fld (wd ws 1) 5 3 == 2).any (· != r)

/-- A CMD job of unit u is in progress (R339, R341): a FEED_QUEUE job, or a FEED_HOST that waits for its buffer. -/
def ckBusy (s : State) (u : Nat) : Bool := (s.unit u).job.isSome || ckFeedWaits s u 4

/-- The settings of CK_CONFIG are refused with E_PARAM (R341). -/
def ckConfigBad (s : State) (cfg cfg2 : Word) : Bool :=
  decide (2048 < ckOff cfg + ckBytes (ckPoly cfg)) || (ckSeqEn cfg && decide (ckOff cfg ≤ ckSeqOff cfg2))
  || (ckMode cfg == 2 && (!queueExists s (fld cfg 8 8) || (s.queue (fld cfg 8 8)).consumer != 5 || ckSeqWin cfg2 != 0))
  || fld cfg 27 5 != 0 || bitOf cfg2 31

/-- tx_queue is served by another unit. -/
def ckServed (s : State) (u q : Nat) : Bool := s.units.any fun x => x.1 != u && ckMode x.2.cfg == 2 && fld x.2.cfg 8 8 == q

/-- 0x60 CK_CONFIG. -/
def ckConfigBody (r : Nat) (ws : List Word) (s : State) : State :=
  let u := fld (wd ws 1) 0 5
  let cfg := wd ws 2
  let cfg2 := wd ws 3
  if ckConfigBad s cfg cfg2 then complete r eParam 0 0 s
  else if ckMode cfg = 2 ∧ ckServed s u (fld cfg 8 8) then complete r eState 0 0 s
  else if ckBusy s u then complete r eBusy 0 0 s
  else
    let bound := ckBound s u
    let s := s.modUnit u fun x => { x with cfg := cfg, cfg2 := cfg2,
                                           seqV := if bitOf (wd ws 0) 8 then x.seqV else 0 }
    if bound.isEmpty then complete r stOk cfg 0 s else s.modCmd r fun c => { c with aux := bound }

/-- CK_CONFIG. -/
def execCkConfig (r : Fin 4) (s : State) : Host.Outcome State Fault Refusal :=
  .next (beginOp r.val 0x60 (ckConfigBody r.val) s)

/-! ## CK_CONTEXT (R333, R336, R341) -/

/-- The opcode and op of a CK_CONTEXT packet. -/
def isCkContext (f : Nat → Bool) (ws : List Word) : Bool := pOpcode ws == 0x61 && f (fld (wd ws 1) 5 3)

/-- CK_SEQ k of a unit. -/
def ckSeqWord (u : Unit') (k : Nat) : Word :=
  packW ((List.range 4).map fun j => (8 * j, 8, ckLast u (4 * k + j)))

/-- The context image (R336). -/
def ckImage (u : Unit') : List Word :=
  [u.run, w32 u.cnt, w32 (ckPoly u.cfg), w32 u.seqV, ckSeqWord u 0, ckSeqWord u 1, ckSeqWord u 2, ckSeqWord u 3]

/-- SAVE; ops 4 to 7 are refused. -/
def ckSaveBody (r : Nat) (ws : List Word) (s : State) : State :=
  let u := fld (wd ws 1) 0 5
  if 4 ≤ fld (wd ws 1) 5 3 ∨ !addrOk s r (wd ws 2) (wd ws 3) 32 then complete r eParam 0 0 s
  else complete r stOk 0 0 (dataOut r (wd ws 2) (wd ws 3) (ckImage (s.unit u)) s)

/-- CK_SAVE. -/
def execCkSave (r : Fin 4) (s : State) : Host.Outcome State Fault Refusal :=
  .next (beginWhen r.val (isCkContext fun op => op == 0 || decide (4 ≤ op)) (ckSaveBody r.val) s)

/-- RESTORE takes the image (R336). -/
def ckRestoreData (r : Nat) (data : List Byte) (s : State) : State :=
  let u := fld (pkt s r 1) 0 5
  let w := wordsOf data 8
  if fld (wd w 2) 0 2 ≠ ckPoly (s.unit u).cfg then complete r eParam 0 0 s
  else
    let seqs := (List.range 16).map fun k => (k, fld (wd w (4 + k / 4)) (8 * (k % 4)) 8)
    complete r stOk 0 0 (s.modUnit u fun x => { x with run := wd w 0, cnt := (wd w 1).toNat, seqV := fld (wd w 3) 0 16,
                                                       seqs := seqs })

/-- RESTORE: only in CMD mode with no job, or in OFF. -/
def ckRestoreBody (r : Nat) (ws : List Word) (s : State) : State :=
  let x := s.unit (fld (wd ws 1) 0 5)
  let m := ckMode x.cfg
  if !(m = 0 ∨ (m = 3 ∧ !ckBusy s (fld (wd ws 1) 0 5))) then complete r eState 0 0 s
  else if !addrOk s r (wd ws 2) (wd ws 3) 32 then complete r eParam 0 0 s
  else dataIn r (wd ws 2) 32 (ckRestoreData r) s

/-- CK_RESTORE. -/
def execCkRestore (r : Fin 4) (s : State) : Host.Outcome State Fault Refusal :=
  .next (beginWhen r.val (isCkContext fun op => op == 1) (ckRestoreBody r.val) s)

/-- The packet of ring r's command. -/
def packetOf (s : State) (r : Nat) : List Word := match (s.cr r).cmd with | some c => c.words | none => []

/-- The bytes that a FEED_HOST folds (R333): with start = 1 and raw = 0 the preamble first. -/
def feedBytes (x : Unit') (ws : List Word) (data : List Byte) : List Byte :=
  (if bitOf (wd ws 0) 8 && !bitOf (wd ws 0) 10 then ckPreamble (fld x.cfg2 0 16) (byteOf (wd ws 4) 2) else [])
  ++ data.take (fld (wd ws 4) 0 16)

/-- The unit's register after a FEED_HOST has folded its data. -/
def feedReg (x : Unit') (ws : List Word) (data : List Byte) : Nat :=
  let p := ckPoly x.cfg
  ckFold p (if bitOf (wd ws 0) 8 then ckInit p else ckShow p (x.run.toNat % 2 ^ ckWidth p)) (feedBytes x ws data)

/-- A FEED_HOST's data goes through its unit: CK_RUN and CK_CNT follow. -/
def feedFold (ws : List Word) (data : List Byte) (s : State) : State :=
  s.modUnit (fld (wd ws 1) 0 5) fun x => { x with
    run := w32 (ckShow (ckPoly x.cfg) (feedReg x ws data))
    cnt := ((if bitOf (wd ws 0) 8 then 0 else x.cnt) + (feedBytes x ws data).length) % 2 ^ 32 }

/-- A read of a FEED_HOST's buffer has failed (R496): the bytes taken before it are folded and reported. -/
def ckFeedCut (r st : Nat) (info : Word) (before : List Byte) (s : State) : State :=
  let ws := packetOf s r
  let k := Nat.min before.length (fld (wd ws 4) 0 16)
  complete r st (w32 k) info (if k = 0 then s else feedFold ws before s)

/-- FEED_HOST folds the buffer (R333); the engine fault of this job stands in the command's second count. -/
def ckFeedData (r : Nat) (data : List Byte) (s : State) : State :=
  let ws := packetOf s r
  let fault := match (s.cr r).cmd with | some c => c.aux.getD 1 0 == 1 | none => false
  let u := fld (wd ws 1) 0 5
  let p := ckPoly (s.unit u).cfg
  let reg := feedReg (s.unit u) ws data
  let s := feedFold ws data s
  let last := bitOf (wd ws 0) 9
  if ckEngBad s fault then
    let v := if last then ckFree (ckFaultSeen u fault s) else (ckFaultSeen u fault s, w32 (ckShow p reg))
    complete r eCheck v.2 (packW [(4, 3, 4)]) (ckRecord u ckEngineFault 4 v.1)
  else if !last then complete r stOk (w32 (ckShow p reg)) 0 s
  else if ckFinal p reg = (wd ws 5).toNat then complete r stOk (w32 (ckFinal p reg)) 0 (ckRecord u ckPass 0 s)
  else complete r eCheck (w32 (ckFinal p reg)) (packW [(4, 3, 1)]) (ckRecord u ckFail 1 s)

/-- FEED_HOST. -/
def ckFeedHostBody (r : Nat) (fault : Bool) (ws : List Word) (s : State) : State :=
  let x := s.unit (fld (wd ws 1) 0 5)
  let n := fld (wd ws 4) 0 16
  if ckMode x.cfg ≠ 3 then complete r eState 0 0 s
  else if x.job.isSome || ckFeedWaits s (fld (wd ws 1) 0 5) r then complete r eBusy 0 0 s
  else if n = 0 ∨ !addrOk s r (wd ws 2) (wd ws 3) n then complete r eParam 0 0 s
  else dataIn r (wd ws 2) n (ckFeedData r) (s.modCmd r fun c => { c with aux := [0, b1 fault] })

/-- CK_FEED_HOST: `fault`, the engines disagree over this buffer. -/
def execCkFeedHost (r : Fin 4) (fault : Bool) (s : State) : Host.Outcome State Fault Refusal :=
  .next (beginWhen r.val (isCkContext fun op => op == 2) (ckFeedHostBody r.val fault) s)

/-- FEED_QUEUE begins its job. -/
def ckFeedQueueBody (r : Nat) (ws : List Word) (s : State) : State :=
  let u := fld (wd ws 1) 0 5
  let x := s.unit u
  let inQ := fld (wd ws 2) 0 8
  let outQ := fld (wd ws 2) 8 8
  let n := fld (wd ws 3) 0 16
  if ckMode x.cfg ≠ 3 then complete r eState 0 0 s
  else if x.job.isSome || ckFeedWaits s (fld (wd ws 1) 0 5) r then complete r eBusy 0 0 s
  else if n = 0 ∨ !queueExists s inQ ∨ (s.queue inQ).consumer ≠ 4 ∨ !queueExists s outQ then complete r eParam 0 0 s
  else s.modUnit u fun x => { x with job := some { ring := r, inQ := inQ, outQ := outQ, dropFail := bitOf (wd ws 2) 16,
                                                   noSeq := bitOf (wd ws 2) 17, left := n, passed := 0, failed := 0,
                                                   hand := none, eng := false } }

/-- CK_FEED_QUEUE. -/
def execCkFeedQueue (r : Fin 4) (s : State) : Host.Outcome State Fault Refusal :=
  .next (beginWhen r.val (isCkContext fun op => op == 3) (ckFeedQueueBody r.val) s)

/-- The job of unit u ends. -/
def ckJobEnd (u : Nat) (j : CkJob) (s : State) : State :=
  complete j.ring (if j.eng then eCheck else stOk) (w32 j.passed) (w32 j.failed) (s.modUnit u fun x => { x with job := none })

/-- After an item has left the unit: the job ends at its count or with an engine fault, or goes on. -/
def ckJobNext (u : Nat) (j : CkJob) (s : State) : State :=
  if j.left = 0 ∨ j.eng then ckJobEnd u j s else s.modUnit u fun x => { x with job := some { j with hand := none } }

/-- The item in hand is committed to out_queue, or held under back-pressure (R176, R333). -/
def ckDeliver (u : Nat) (j : CkJob) (cells : List Nat) (cls : Nat) (s : State) : State :=
  if rechargeOk s j.outQ cells then ckJobNext u j (commitItem j.outQ cls cells (recharge j.outQ cells s))
  else refuse j.outQ (refusedByMax s j.outQ true) (s.modUnit u fun x => { x with job := some { j with hand := some (cells, cls) } })

/-- The result of a checked item goes into its descriptor: the status into word 0 [19:16], word 7 (R333). -/
def ckStore (c : Nat) (w0 w7 : Word) (status : Nat) (s : State) : State :=
  s.modPool fun p => { p with mem := memWrite (memWrite p.mem (64 * c) (bytesOf (putFld w0 16 4 status))) (64 * c + 28) (bytesOf w7) }

/-- A popped item of a job is checked, and delivered or dropped (R333). -/
def ckJudge (u : Nat) (j : CkJob) (fault : Bool) (i : Item) (s : State) : State :=
  let x := s.unit u
  let it := readItem s i.cells
  let w0 := wd it.words 0
  let w1 := wd it.words 1
  let id := fld w1 0 29
  let out := ckRun u x.cfg x.cfg2 (fld w0 24 4) id (bitOf w1 31) it.data (ckEngBad s fault) (!j.noSeq)
    (ckFaultSeen u fault s)
  let w7 := packW [(0, 16, ckDataId x.cfg x.cfg2 id), (16, 8, (ckSeqByte x.cfg x.cfg2 it.data).toNat)]
  let s := ckStore (i.cells.headD 0) w0 w7 out.2 out.1
  let ok := out.2 == ckPass
  let j := { j with left := j.left - 1, passed := j.passed + b1 ok, failed := j.failed + b1 (!ok),
                    eng := out.2 == ckEngineFault }
  if j.dropFail && !ok then ckJobNext u j (freeCells i.cells s) else ckDeliver u j i.cells (dClass w0) s

/-- One item of unit u's job (R333): popped, checked, its result written into cell 0, then committed or dropped. -/
def ckItem (u : Nat) (j : CkJob) (fault : Bool) (s : State) : State :=
  let x := takeHead j.inQ s
  match x.2 with
  | none => ckJobEnd u j x.1
  | some i => ckJudge u j fault i x.1

/-- The units with a pending access to the pool, in ascending order. -/
def ckPending (s : State) : List Nat := (List.range 32).filter fun u => (s.unit u).job.isSome

/-- The unit that a check-unit slot serves (R34): the lowest pending one not served yet since every pending unit was. -/
def ckTurn (s : State) : Option Nat :=
  match (ckPending s).find? fun u => !s.ckRound.contains u with
  | some u => some u
  | none => (ckPending s).head?

/-- Unit u is served, and goes behind the other pending units (R34). -/
def ckTaken (u : Nat) (s : State) : State :=
  { s with ckRound := if (ckPending s).all s.ckRound.contains then [u] else s.ckRound ++ [u] }

/-- A slot serves unit u's job. A job whose command has been ended returns what it holds. -/
def ckServe (u : Nat) (fault : Bool) (s : State) : State :=
  match (s.unit u).job with
  | none => s
  | some j =>
    if !inProgress s j.ring then
      let s := s.modUnit u fun x => { x with job := none }
      match j.hand with
      | some h => freeCells h.1 s
      | none => s
    else match j.hand with
      | some h => ckDeliver u j h.1 h.2 s
      | none => ckItem u j fault s

/-- CK_FEED_ITEM: a check-unit slot serves unit u, when it is u's turn. -/
def execCkFeedItem (u : Fin 32) (fault : Bool) (s : State) : Host.Outcome State Fault Refusal :=
  .next (if s.pw.awake && decide (ckTurn s = some u.val) then
      inSlot .check (ckServe u.val fault) (ckTaken u.val s)
    else s)

end Sys2Proof.Machine
end

