-- ==== Sys2Proof/Machine/Confine.lean ====
section
/-!
DEFINITION. Error confinement (chapter 4): the error counters with ISO 11898-1's counting rules (R80; the manual names
that standard's rules without repeating them, log entry 21), error states, bus-off, the ceiling, recovery.
-/
namespace Sys2Proof.Machine

/-! ## Counters and error states (R80 to R84) -/

/-- The counters change: not in RESTRICTED or LISTEN_ONLY (R69), not while the transceiver is not NORMAL (R108), only
on a channel that takes part (R81). -/
def countsLive (s : State) (n : Nat) : Bool :=
  opMode s n != 1 && opMode s n != 2 && (s.chan n).trx == 0
  && ((s.chan n).state == .active || (s.chan n).state == .stopping)

/-- Error passive (R81). -/
def errPassive (c : Chan) : Bool := decide (127 < c.tecCnt ∨ 127 < c.recCnt)

/-- CH_ERRC warn (R82, R84). -/
def errWarn (c : Chan) : Bool := decide (96 ≤ c.tecCnt ∨ 96 ≤ c.recCnt)

/-- CH_ERRC (R84). A channel that R103 stops, or that CH_STOP or SAFE takes out of BUS_OFF, holds a TEC above 255 outside BUS_OFF, of
which the manual gives no reading: tec reads 255 and err_state ERROR_PASSIVE (DESIGN CHOICE, log entry 126). -/
def errcWord (c : Chan) : Word :=
  let off := c.state == .busOff
  packW [(0, 9, if off then 0x100 else Nat.min 255 c.tecCnt), (16, 8, c.recCnt),
         (24, 2, if off then 2 else b1 (errPassive c)), (26, 1, b1 (errWarn c))]

/-- The sub-state that rec_mode gives a channel in BUS_OFF, with the backoff of an entry counted `n` in its window
(R86, R88, R91): a backoff of 0 ms starts the sequence at once. -/
def boffPolicy (cfg : Word) (n : Nat) (c : Chan) : Chan :=
  let ms := fld cfg 16 16
  let wait := if bitOf cfg 2 then Nat.min 65535 (ms * 2 ^ (n - 1)) else ms
  if fld cfg 0 2 = 1 then { c with boff := .waitHost, seqCnt := 0 }
  else if fld cfg 0 2 = 2 ∧ wait ≠ 0 then { c with boff := .backoff, backoff := wait, seqCnt := 0 }
  else { c with boff := .recovering, seqCnt := 0 }

/-- TEC has passed 255 (R81, R89 to R91, R103): the entry is counted, above the ceiling the channel latches and source
41 asserts; a STOPPING channel goes on to STOPPED instead of BUS_OFF. In the reduced service
recovery is AUTOMATIC with no ceiling (R447). The count as boff_cnt shows it is compared, which saturates at 255, so that a ceiling of
255 is never passed (DESIGN CHOICE, log entry 164). -/
def busOffEntry (n : Nat) (s : State) : State :=
  let cfg := if reduced s n then 0#32 else (s.chan n).boffCfg
  let s := s.modChan n fun c => { c with tecCnt := 256, boffCnt := satInc 255 c.boffCnt, window := true }
  let cnt := (s.chan n).boffCnt
  let s := chEvent 0x13 n [(16, cnt)] (bump n 0x08 s)
  let stopping := (s.chan n).state == .stopping
  let s := if stopping then s else s.modChan n fun c => { c with state := .busOff, dataPh := false }
  if fld cfg 8 8 ≠ 0 ∧ fld cfg 8 8 < cnt then
    let s := s.modChan n fun c => { c with ceil := true, seqCnt := 0, boff := if stopping then .none else .latched }
    vxAssert 41 (w32 n) (chEvent 0x15 n [] s)
  else if stopping then s
  else s.modChan n fun c => boffPolicy cfg cnt c

/-- New counter values, with the events of the warning level and of the error states (R81, R82). -/
def setCounters (n tec rc : Nat) (s : State) : State :=
  let old := s.chan n
  let s := s.modChan n fun c => { c with tecCnt := Nat.min 256 tec, recCnt := Nat.min 255 rc }
  let new := s.chan n
  let s := if errWarn new && !errWarn old then chEvent 0x10 n [] s else s
  let s := if errPassive new && !errPassive old then chEvent 0x11 n [] s
    else if errPassive old && !errPassive new then chEvent 0x12 n [] s else s
  if 255 < tec then busOffEntry n s else s

/-- TEC rises k times by 8, until TEC passes 255 (R80). -/
def tecEights (n : Nat) : Nat → State → State
  | 0, s => s
  | k + 1, s =>
    if countsLive s n && decide ((s.chan n).tecCnt ≤ 255) then
      tecEights n k (setCounters n ((s.chan n).tecCnt + 8) (s.chan n).recCnt s)
    else s

/-- REC rises by k (R80), saturating at 255 (R84). -/
def recAdd (n k : Nat) (s : State) : State :=
  if countsLive s n then setCounters n (s.chan n).tecCnt ((s.chan n).recCnt + k) s else s

/-- An error in the data phase of a CAN XL frame with error signalling off (R61, R80): no error flag is started, and neither
counter changes (PRESUMED with ISO 11898-1's rules, log entry 21). -/
def errSilent (s : State) (n : Nat) (fmt : BusFmt) : Bool :=
  fmt == .xl && (s.chan n).dataPh && !(s.chan n).xlErrsig

/-- An error flag of the transmitter: tx_err (R116), TEC + 8 where the rules count the error, and + 8 for each bit error
in the flag and each further run of 8 dominant bits. -/
def txError (n : Nat) (counted : Bool) (e : ErrInfo) (s : State) : State :=
  if countsLive s n then tecEights n (b1 counted + e.flagBitErrors + e.dominantRuns) (bump n 0x00 s) else s

/-- An error flag of a receiver: rx_err (R116), REC + 1, and + 8 for a dominant bit after the flag, each bit error in the
flag and each further run of 8 dominant bits. -/
def rxError (n : Nat) (e : ErrInfo) (s : State) : State :=
  if countsLive s n then
    recAdd n (1 + 8 * (b1 e.dominantAfterFlag + e.flagBitErrors + e.dominantRuns)) (bump n 0x04 s)
  else s

/-- A receiver's NACK (R66, R116). -/
def rxNack (n : Nat) (s : State) : State := if countsLive s n then recAdd n 1 (bump n 0x04 s) else s

/-- An overload flag that the channel sends (R80): its counter rises by 8 for each bit error in the flag and each further run
of 8 dominant bits; TEC as the transmitter of the frame before it, else REC. -/
def overloadFlag (n : Nat) (transmitter : Bool) (e : ErrInfo) (s : State) : State :=
  if transmitter then tecEights n (e.flagBitErrors + e.dominantRuns) s
  else recAdd n (8 * (e.flagBitErrors + e.dominantRuns)) s

/-- A frame sent: TEC falls by 1 (R80). -/
def txGood (n : Nat) (s : State) : State :=
  if countsLive s n then setCounters n ((s.chan n).tecCnt - 1) (s.chan n).recCnt s else s

/-- A frame received: REC falls by 1, or from above 127 to a value of 119 to 127 that ISO 11898-1 leaves open (log entry
9). -/
def rxGood (n : Nat) (s : State) : State :=
  if countsLive s n then
    if (s.chan n).recCnt ≤ 127 then setCounters n (s.chan n).tecCnt ((s.chan n).recCnt - 1) s
    else
      let v := 119 + Nat.min 8 (Config.recAfter s.freeCtr).toNat
      setCounters n (s.chan n).tecCnt v s.freshTick
  else s

/-! ## Recovery (R86 to R92) -/

/-- The recovery sequence of channel n starts (R91). -/
def startRecovery (n : Nat) (s : State) : State := s.modChan n fun c => { c with boff := .recovering, seqCnt := 0 }

/-- Source 41 has been cleared, and channel n had latched (R90, R91; log entry 142): the window and the count are reset, ceil_latched clears, and a
channel still in BUS_OFF leaves LATCHED as rec_mode says. -/
def ceilClear (n : Nat) (s : State) : State :=
  if !(s.chan n).ceil then s
  else
    let s := s.modChan n fun c => { c with ceil := false, boffCnt := 0, window := false }
    if (s.chan n).state == .busOff && (s.chan n).boff == .latched then
      s.modChan n fun c => boffPolicy c.boffCfg 1 c
    else s

/-- CH_BOFF_STAT (R94). -/
def boffStatWord (c : Chan) : Word :=
  packW [(0, 8, c.seqCnt), (8, 8, c.boffCnt), (16, 1, b1 (c.boff == .waitHost)), (17, 1, b1 (c.boff == .backoff)),
         (18, 1, b1 c.ceil)]

/-- The core runs and the channel samples its bus: not with the transceiver in STANDBY or SLEEP (R108). -/
def samples (s : State) (n : Nat) : Bool := s.pw.awake && !asleep s n

/-- BACKOFF_ELAPSED (R88, R91). -/
def execBackoffElapsed (ch : Fin 16) (s : State) : Host.Outcome State Fault Refusal :=
  .next (if (s.chan ch.val).boff == .backoff then startRecovery ch.val s else s)

/-- RECOVERY_OCCURRENCE (R87, R94): seq_cnt rises, up to the 127th occurrence. -/
def execRecoveryOccurrence (ch : Fin 16) (s : State) : Host.Outcome State Fault Refusal :=
  let c := s.chan ch.val
  .next (if c.boff == .recovering && samples s ch.val && decide (c.seqCnt < 127) then
    s.modChan ch.val fun c => { c with seqCnt := c.seqCnt + 1 } else s)

/-- RECOVERY_DONE (R81, R87, R91): the 128th occurrence; the channel is ACTIVE and ERROR_ACTIVE, and its candidates
compete. -/
def execRecoveryDone (ch : Fin 16) (s : State) : Host.Outcome State Fault Refusal :=
  let n := ch.val
  let c := s.chan n
  .next (
    if c.boff == .recovering && samples s n && c.seqCnt == 127 then
      let s := s.modChan n fun c => { c with state := .active, boff := .none, seqCnt := 0, tecCnt := 0, recCnt := 0 }
      recheck n (chEvent 0x14 n [] (bump n 0x0C s))
    else s)

/-- BOFF_WINDOW_CLOSE (R89). -/
def execBoffWindowClose (ch : Fin 16) (s : State) : Host.Outcome State Fault Refusal :=
  .next (if (s.chan ch.val).window then s.modChan ch.val fun c => { c with window := false, boffCnt := 0 } else s)

/-! ## Duplicate identifiers (R95 to R98) -/

/-- The picker has started a frame of source `src` (R95): another frame's count returns to 0. `fresh`: it is not the
frame of the previous attempt. -/
def dupStart (n src : Nat) (fresh : Bool) (s : State) : State :=
  s.modChan n fun c => if fresh || c.dupSrc != src then { c with dupSrc := src, dupCnt := 0 } else c

/-- An attempt has ended otherwise than by lost arbitration (R95): `counted` adds to the count and to dup_id (R116), any
other end returns it to 0; at dup_thresh 0x16 CH_DUP_ID names source and identifier, and the source's policy applies
(R96); HOLD sets the source's bit also where the item itself is over, single-shot or cut (DESIGN CHOICE, log entry 165). -/
def dupEnd (n src : Nat) (i : TxItem) (counted : Bool) (s : State) : State :=
  if !counted then s.modChan n fun c => { c with dupCnt := 0 }
  else
    let s := bump n 0x10 (s.modChan n fun c => { c with dupCnt := c.dupCnt + 1 })
    let c := s.chan n
    let th := fld c.dup 0 4
    if th = 0 ∨ c.dupCnt % th ≠ 0 then s
    else
      let s := chEvent 0x16 n [(8, src), (32, itIdent i)] s
      if bitOf c.dup (8 + src) then
        s.modChan n fun c => { c with dupStat := c.dupStat ||| w32 (2 ^ src), dupCnt := 0,
                                      loaded := if c.loaded = some src then none else c.loaded }
      else s

/-- A write of CH_DUP_STAT (R97): a 1 in a source's bit releases it, its frame competes again with its count at 0. -/
def dupRelease (n : Nat) (v : Word) (s : State) : State :=
  let s := s.modChan n fun c => { c with
    dupStat := c.dupStat &&& ~~~v
    dupCnt := if bitOf c.dupStat c.dupSrc && bitOf v c.dupSrc then 0 else c.dupCnt }
  recheck n s

/-- DUP_HOLD_RELEASE. -/
def execDupHoldRelease (i : Iface) (ch : Fin 16) (v : Word) (s : State) : Host.Outcome State Fault Refusal :=
  .next (regAccess i 0x10030 (dupRelease ch.val v) s)

end Sys2Proof.Machine
end

