-- ==== Sys2Proof/Machine/Channel.lean ====
section
/-!
DEFINITION. The channel commands (R519): configuration, start and stop, transceiver states, recovery, counters; the
limits of 0x11 CH_START (R54 and its companions); prime buffers (R206 to R208).
-/
namespace Sys2Proof.Machine

/-! ## The RWC registers of a channel (R540) -/

/-- Offset, RWC bits and reserved bits of each register of a CH block that has RWC fields. -/
def chRegs : List (Nat × Word × Word) :=
  [(0x04, 0x000003FF#32, 0xFFFFFC00#32), (0x08, 0xFFFFFDFF#32, 0x00000200#32), (0x0C, 0x3F3F7F1F#32, 0xC0C080E0#32),
   (0x10, 0x3F3F7F1F#32, 0xC0C080E0#32), (0x14, 0x00FFFF01#32, 0x000000FE#32), (0x18, 0x00FFFF01#32, 0x000000FE#32),
   (0x1C, 0x003F3F3F#32, 0xFFC0C0C0#32), (0x24, 0xFFFFFF07#32, 0x000000F8#32), (0x2C, 0x07FFFF0F#32, 0xF80000F0#32),
   (0x38, 0x3F3F3F3F#32, 0xC0C0C0C0#32), (0x3C, 0x0000FFFF#32, 0xFFFF0000#32), (0x40, 0x00000001#32, 0xFFFFFFFE#32),
   (0x48, 0x000FFF07#32, 0xFFF000F8#32)]

/-- The configuration word of channel n at a register offset. -/
def chCfgWord (c : Chan) (off : Nat) : Word :=
  match off with
  | 0x04 => c.mode
  | 0x08 => c.nom
  | 0x0C => c.dat
  | 0x10 => c.xl
  | 0x14 => c.tdcFd
  | 0x18 => c.tdcXl
  | 0x1C => c.pwm
  | 0x24 => c.boffCfg
  | 0x2C => c.dup
  | 0x38 => c.trxEnc
  | 0x3C => c.trxTim
  | 0x40 => c.txCfg
  | 0x48 => c.bdpCfg
  | _ => 0#32

/-- The channel with the configuration word at a register offset replaced. -/
def chCfgSet (off : Nat) (v : Word) (c : Chan) : Chan :=
  match off with
  | 0x04 => { c with mode := v }
  | 0x08 => { c with nom := v }
  | 0x0C => { c with dat := v }
  | 0x10 => { c with xl := v }
  | 0x14 => { c with tdcFd := v }
  | 0x18 => { c with tdcXl := v }
  | 0x1C => { c with pwm := v }
  | 0x24 => { c with boffCfg := v }
  | 0x2C => { c with dup := v }
  | 0x38 => { c with trxEnc := v }
  | 0x3C => { c with trxTim := v }
  | 0x40 => { c with txCfg := v }
  | 0x48 => { c with bdpCfg := v }
  | _ => c

/-- MP_CH_PLAN of channel n (R473). -/
def mpPlan (s : State) (n : Nat) : Word := mget 0x12601260#32 s.mp.chPlan n
/-- MP_CH_STAT of channel n (R473). -/
def mpStat (s : State) (n : Nat) : Word := mget 0x7FFF0000#32 s.mp.chStat n

/-- A host write of a data-phase timing or of a tdc_offset sets the planner's plan for it, and its offset to 0 (R468): a step
of the item that still waited is for a value that is gone, and a later refusal of it is told anew (R467). -/
def planWritten (n off : Nat) (s : State) : State :=
  let c := s.chan n
  let put := fun (item : Nat) (plan stat : Word) => { s with mp := { s.mp with
    chPlan := mset s.mp.chPlan n plan, chStat := mset s.mp.chStat n stat
    steps := s.mp.steps.filter fun (t : MpStep) => !(t.ch == n && t.item == item)
    told := s.mp.told.filter fun e => e != (n, item) } }
  let st := mpStat s n
  match off with
  | 0x0C => put 0 (putFld (mpPlan s n) 16 8 (fld c.dat 8 7 + 2)) (putFld st 0 8 0)
  | 0x10 => put 1 (putFld (mpPlan s n) 24 8 (fld c.xl 8 7 + 2)) (putFld st 8 8 0)
  | 0x14 => put 2 (putFld (mpPlan s n) 0 8 (fld c.tdcFd 8 8)) st
  | 0x18 => put 3 (putFld (mpPlan s n) 8 8 (fld c.tdcXl 8 8)) st
  | _ => s

/-- A host write of an RWC register of channel n, which acts in STOPPED alone (R9, R74). A change of CH_TRX_ENC drives
the pins, a change of pick_mode is a change among the candidates (R211). -/
def chCfgWrite (n off : Nat) (v : Word) (s : State) : State :=
  match chRegs.find? fun e => e.1 == off with
  | some (_, m, _) =>
    if (s.chan n).state == .stopped then
      planWritten n off (s.modChan n fun c => chCfgSet off (maskMerge (chCfgWord c off) v m) c)
    else s
  | none => s

/-! ## CH_CONFIGURE (R519) -/

/-- The host's image of a channel has arrived: every RWC field is taken from it, unless it sets a reserved bit. -/
def chConfigData (r : Nat) (data : List Byte) (s : State) : State :=
  let n := fld (pkt s r 1) 0 4
  let w := fun off => wordAt data off
  if (s.chan n).state != .stopped then complete r eState 0 0 s
  else if chRegs.any fun e => w e.1 &&& e.2.2 != 0#32 then complete r eParam 0 0 s
  else
    let s := chRegs.foldl (fun s e => chCfgWrite n e.1 (w e.1) s) s
    complete r stOk (s.chan n).mode (s.chan n).nom (recheck n s)

/-- Word 1 of a channel command: [31:4] must be 0 (R519). -/
def chanWordBad (ws : List Word) : Bool := fld (wd ws 1) 4 28 != 0

/-- CH_CONFIGURE begins. -/
def chConfigBody (r : Nat) (ws : List Word) (s : State) : State :=
  if chanWordBad ws || !addrOk s r (wd ws 2) (wd ws 3) 256 then complete r eParam 0 0 s
  else if (s.chan (fld (wd ws 1) 0 4)).state != .stopped then complete r eState 0 0 s
  else dataIn r (wd ws 2) 256 (chConfigData r) s

/-- CH_CONFIGURE. -/
def execChConfigure (r : Fin 4) (s : State) : Host.Outcome State Fault Refusal :=
  .next (beginOp r.val 0x10 (chConfigBody r.val) s)

/-! ## CH_START (R54, R61, R69, R83, R86, R98, R105, R227, R277) -/

/-- Bit length in protocol clock periods of a data-phase register (R53). -/
def datBits (w : Word) : Nat := (fld w 0 5 + 1) * (1 + (fld w 8 7 + 1) + (fld w 16 6 + 1))

/-- Bit length in protocol clock periods of CH_BTIM_NOM (R52). -/
def nomBits (w : Word) : Nat := (fld w 0 9 + 1) * (1 + (fld w 10 8 + 1) + (fld w 18 7 + 1))

/-- The nominal bit timing of the reduced service, from the straps GPIO1:GPIO0 (R447): brp, tseg1, tseg2 and sjw, in periods of
the 40 MHz reference. -/
def reducedTiming (rate : Nat) : Nat × Nat × Nat × Nat :=
  ((if rate = 0 then 2 else if rate = 1 then 4 else if rate = 2 then 8 else 1), 31, 8, 8)

/-- The nominal bit length in force on channel n, in periods of its protocol clock (R52), or of the 40 MHz reference in the reduced
service (R447). -/
def nominalBits (s : State) (n : Nat) : Nat :=
  if reduced s n then
    let (brp, tseg1, tseg2, _) := reducedTiming s.boot.straps.b1Rate.val
    brp * (1 + tseg1 + tseg2)
  else nomBits (s.chan n).nom

/-- A judged data phase keeps the limits of R54: at least `low` periods, at most the nominal bit, sjw, 6 tq. -/
def datOk (w : Word) (low nom : Nat) : Bool :=
  decide (low ≤ datBits w ∧ datBits w ≤ nom) && decide (fld w 24 6 ≤ fld w 8 7 ∧ fld w 24 6 ≤ fld w 16 6)
  && decide (6 ≤ 3 + fld w 8 7 + fld w 16 6)

/-- The settings of channel n keep the limits of R54, R69, R86, R98 and R105. -/
def settingsOk (c : Chan) : Bool :=
  let m := c.mode
  let nom := nomBits c.nom
  let trunk := bitOf m 3
  decide (fld m 0 3 ≤ 4)
  && decide (240 ≤ nom ∧ nom ≤ 24000) && decide (1 ≤ fld c.nom 10 8)
  && decide (fld c.nom 25 7 ≤ fld c.nom 10 8 ∧ fld c.nom 25 7 ≤ fld c.nom 18 7)
  && (!bitOf m 5 || datOk c.dat 30 nom)
  && (!(bitOf m 6 || trunk) || datOk c.xl (if trunk then 6 else 12) nom)
  && (!(trunk || (bitOf m 6 && bitOf m 9)) ||
      (fld c.pwm 0 6 + fld c.pwm 8 6 == datBits c.xl && fld c.pwm 0 6 != 0 && fld c.pwm 8 6 != 0))
  && fld c.boffCfg 0 2 != 3 && fld c.dup 0 4 != 0 && !((List.range 4).any (encBad c.trxEnc))

/-- The BDP settings of channel n (R277). -/
def bdpSettingsOk (s : State) (n : Nat) : Bool :=
  let c := s.chan n
  !bdpEn s n ||
    ((bdpQueue s n).isSome && (bitOf c.mode 3 || (if bitOf c.bdpCfg 1 then bitOf c.mode 5 else bitOf c.mode 4)))

/-- The enabled lanes of channel n, as queues. -/
def laneList (s : State) (n : Nat) : List Nat :=
  (List.range 4).filterMap fun k =>
    if (mget 0 s.cd.laneEn n).testBit k then some (fld (mget 0#32 s.cd.chIn n) (8 * k) 8) else none

/-- The cells of the largest frame channel n can receive (R227). -/
def largestFrame (c : Chan) : Nat := if bitOf c.mode 6 || bitOf c.mode 3 then 35 else if bitOf c.mode 5 then 2 else 1

/-- The status of R227's checks on the lanes of channel n. -/
def laneStatus (s : State) (n : Nat) : Nat :=
  let mine := laneList s n
  let all := (List.range 16).flatMap (laneList s)
  if mine.any fun q => (s.queue q).consumer != 2 || !queueExists s q || decide (1 < (all.filter (· == q)).length) then
    eParam
  else if mine.any fun q => decide ((s.queue q).min < largestFrame (s.chan n)) then eCap
  else stOk

/-- The checks of CH_START that follow the state checks, as a status. -/
def startStatus (s : State) (n : Nat) : Nat :=
  if !settingsOk (s.chan n) || !bdpSettingsOk s n then eParam else laneStatus s n

/-- CH_STATE (R77). -/
def chStateCode : ChState → Nat
  | .stopped => 0
  | .integrating => 1
  | .active => 2
  | .stopping => 3
  | .busOff => 4
  | .safe => 5

/-- CH_STATE (R77). -/
def chStateWord (s : State) (n : Nat) : Word :=
  let c := s.chan n
  packW [(0, 3, chStateCode c.state), (3, 1, b1 c.xlErrsig), (4, 1, b1 c.xlFast), (5, 1, b1 (frameOnWire s n)),
         (6, 1, b1 c.dataPh)]

/-- The channel starts (R61, R74, R83). -/
def startChannel (n : Nat) (s : State) : State :=
  recheck n (s.modChan n fun c => { c with
    state := .integrating, tecCnt := 0, recCnt := 0, boff := .none, seqCnt := 0
    xlErrsig := bitOf c.mode 6 && bitOf c.mode 8 && !bitOf c.mode 9
    xlFast := bitOf c.mode 6 && bitOf c.mode 9 })

/-- CH_START. -/
def chStartBody (r : Nat) (ws : List Word) (s : State) : State :=
  let n := fld (wd ws 1) 0 4
  if chanWordBad ws then complete r eParam 0 0 s
  else if (s.chan n).state != .stopped || (s.chan n).ceil then complete r eState 0 0 s
  else
    let st := startStatus s n
    if st ≠ stOk then complete r st 0 0 s
    else
      let s := startChannel n s
      complete r stOk (chStateWord s n) 0 s

/-- CH_START. -/
def execChStart (r : Fin 4) (s : State) : Host.Outcome State Fault Refusal :=
  .next (beginOp r.val 0x11 (chStartBody r.val) s)

/-- INTEGRATION_DONE (R74, R108): 11 recessive bits in INTEGRATING, with a transceiver that receives and has settled. -/
def execIntegrationDone (ch : Fin 16) (s : State) : Host.Outcome State Fault Refusal :=
  let c := s.chan ch.val
  .next (if c.state == .integrating && samples s ch.val && !(c.settling && c.trx == c.trxTgt) then
    recheck ch.val (s.modChan ch.val fun c => { c with state := .active }) else s)

/-! ## CH_STOP (R75, R102) -/

/-- CH_STOP: in ACTIVE with a frame on the wire the channel finishes it (R74). -/
def chStopBody (r : Nat) (ws : List Word) (s : State) : State :=
  let n := fld (wd ws 1) 0 4
  if chanWordBad ws then complete r eParam 0 0 s
  else match (s.chan n).state with
    | .stopped =>
      let w := stopResult s n 0
      complete r stOk w.1 w.2 s
    | .safe =>
      let w := stopResult s n 0
      complete r stOk w.1 w.2 s
    | .stopping => s
    | .active =>
      if frameOnWire s n then recheck n (s.modChan n fun c => { c with state := .stopping })
      else finishStop n 0 (recheck n (s.modChan n fun c => { c with state := .stopped }))
    | _ => finishStop n 0 (recheck n (s.modChan n fun c => { c with state := .stopped, boff := .none, seqCnt := 0 }))

/-- CH_STOP. -/
def execChStop (r : Fin 4) (s : State) : Host.Outcome State Fault Refusal :=
  .next (beginOp r.val 0x12 (chStopBody r.val) s)

/-! ## CH_SET_STATE (R105, R107, R109, R110, R424) -/

/-- CH_SET_STATE: its refusals in R110's order, the request for the state in force, a local wake of an asleep channel
(R424), otherwise the change of R107. -/
def chSetStateBody (r : Nat) (ws : List Word) (s : State) : State :=
  let n := fld (wd ws 1) 0 4
  let t := fld (wd ws 2) 0 2
  let c := s.chan n
  if chanWordBad ws then complete r eParam 0 0 s
  else if c.forced then complete r eState 0 0 s
  else if c.settling then complete r eBusy 0 0 s
  else if encBad c.trxEnc t then complete r eParam 0 0 s
  else if t = c.trx then trxDone n r (s.modChan n fun c => { c with pinsDrv := true })
  else if lowTrx c.trx && !lowTrx t then askWake n t 2 (some r) s
  else trxRequest n t (some r) s

/-- CH_SET_STATE. -/
def execChSetState (r : Fin 4) (s : State) : Host.Outcome State Fault Refusal :=
  .next (beginOp r.val 0x13 (chSetStateBody r.val) s)

/-- TRX_CHANGE_APPLIED (R107). -/
def execTrxChangeApplied (ch : Fin 16) (s : State) : Host.Outcome State Fault Refusal := .next (trxApply ch.val s)

/-- TRX_SETTLED (R109). -/
def execTrxSettled (ch : Fin 16) (s : State) : Host.Outcome State Fault Refusal := .next (trxSettled ch.val s)

/-! ## CH_RECOVER and CH_COUNTERS (R92, R520) -/

/-- CH_RECOVER. -/
def chRecoverBody (r : Nat) (ws : List Word) (s : State) : State :=
  let n := fld (wd ws 1) 0 4
  let done := fun (s : State) => complete r stOk (boffStatWord (s.chan n)) 0 s
  if chanWordBad ws then complete r eParam 0 0 s
  else match (s.chan n).boff with
    | .waitHost => done (startRecovery n s)
    | .backoff => done (startRecovery n s)
    | .recovering => done s
    | _ => complete r eState 0 0 s

/-- CH_RECOVER. -/
def execChRecover (r : Fin 4) (s : State) : Host.Outcome State Fault Refusal :=
  .next (beginOp r.val 0x14 (chRecoverBody r.val) s)

/-- CH_COUNTERS. -/
def chCountersBody (r : Nat) (ws : List Word) (s : State) : State :=
  let n := fld (wd ws 1) 0 4
  if chanWordBad ws || !addrOk s r (wd ws 2) (wd ws 3) 256 then complete r eParam 0 0 s
  else
    let block := (List.range 64).map fun k => w32 (if k < 44 then mget 0 (s.chan n).cnt (4 * k) else 0)
    complete r stOk (errcWord (s.chan n)) (chStateWord s n) (dataOut r (wd ws 2) (wd ws 3) block s)

/-- CH_COUNTERS. -/
def execChCounters (r : Fin 4) (s : State) : Host.Outcome State Fault Refusal :=
  .next (beginOp r.val 0x15 (chCountersBody r.val) s)

/-! ## Prime buffers (R206, R207) -/

/-- CH_TXP_STAT of buffer b (R206). -/
def txpStat (s : State) (n b : Nat) : Word :=
  let p := primeOf s n b
  let wire := match (s.chan n).latch with | some l => l.source == b | none => false
  packW [(0, 1, b1 p.armed), (1, 1, b1 wire), (2, 3, p.outcome), (5, 1, b1 p.done), (6, 1, b1 p.armErr),
         (16, 16, p.lastTag)]

/-- The frame may not be armed (R207). -/
def armRefused (i : TxItem) : Bool :=
  let w0 := wd i.words 0
  decide (3 < dFormat w0) || lengthBad w0 (wd i.words 1) (wd i.words 2)
  || (decide (64 < dLength w0) && !dRemote w0 (wd i.words 1) (wd i.words 2)) || (itStamp i && dFormat w0 != 2)

/-- Buffer b becomes a candidate (R207, R211); its frame is a different one for R95's count. -/
def armPrime (n b : Nat) (s : State) : State :=
  let s := modPrime n b (fun p => { p with armed := true }) s
  recheck n (s.modChan n fun c => if c.dupSrc = b then { c with dupCnt := 0 } else c)

/-- A write of CH_TXP_ARM (R207): ignored while the buffer is armed; 0x44 TX_ARM_ERR on a refusal. -/
def armWrite (n b : Nat) (v : Word) (s : State) : State :=
  if !bitOf v 0 || (primeOf s n b).armed then s
  else if armRefused (primeItem (primeOf s n b)) then
    chEvent 0x44 n [] (modPrime n b (fun p => { p with armErr := true }) s)
  else armPrime n b s

/-- PRIME_ARM. -/
def execPrimeArm (i : Iface) (ch : Fin 16) (b : Fin 3) (v : Word) (s : State) : Host.Outcome State Fault Refusal :=
  .next (regAccess i 0x10154 (armWrite ch.val b.val v) s)

end Sys2Proof.Machine
end

