-- ==== Sys2Proof/Machine/Law.lean ====
section
/-!
DEFINITION. Tangent's numbers (R293, R294), its law (R303, R304), the frame an evaluation builds (R309), and a context's
input latch (R295 to R297).
-/
namespace Sys2Proof.Machine

/-! ## TGF (R293, R294) -/

/-- Mantissa of a TGF word. -/
def tgfMant (w : Word) : Int := signed (fld w 0 24) 24
/-- Exponent of a TGF word. -/
def tgfExp (w : Word) : Int := signed (fld w 24 5) 5

/-- The mantissa of m × 2^x at exponent e; a right shift rounds toward minus infinity. -/
def shiftTo (m x e : Int) : Int := if e ≤ x then m * 2 ^ (x - e).toNat else m / 2 ^ (e - x).toNat

/-- A mantissa fits its 24 bits. -/
def mantFits (m : Int) : Bool := decide (-8388608 ≤ m ∧ m ≤ 8388607)

/-- A TGF word from a mantissa and an exponent. -/
def tgfWord (m e : Int) : Word := packW [(0, 24, unsign m 24), (24, 5, unsign e 5)]

/-- m × 2^x in reduced form, and whether it saturated. -/
def tgfReduce (m x : Int) : Word × Bool :=
  match (List.range 32).find? fun (k : Nat) => mantFits (shiftTo m x ((k : Int) - 16)) with
  | some k => (tgfWord (shiftTo m x ((k : Int) - 16)) ((k : Int) - 16), false)
  | none => (tgfWord (if m < 0 then -8388608 else 8388607) 15, true)

/-- A TGF word in reduced form. -/
def tgfNorm (w : Word) : Word := (tgfReduce (tgfMant w) (tgfExp w)).1

/-- A raw value r as r × 2^0. -/
def tgfOfInt (v : Int) : Word := (tgfReduce v 0).1

/-- Zero. -/
def tgfZero : Word := 0x10000000#32

/-- The reserved bits of a TGF word are 0. -/
def tgfOk (w : Word) : Bool := fld w 29 3 == 0

/-- The value of a TGF word times 2^16, an integer: two words compare as these. -/
def tgfValue (w : Word) : Int := tgfMant w * 2 ^ (tgfExp w + 16).toNat

/-- The stage exponent of operands in reduced form. -/
def stageExp (ws : List Word) : Int := ws.foldl (fun a w => max a (tgfExp (tgfNorm w))) (-16)

/-- An operand's mantissa at the stage exponent. -/
def atStage (e : Int) (w : Word) : Int := shiftTo (tgfMant (tgfNorm w)) (tgfExp (tgfNorm w)) e

/-- A target clamped to sp_min and sp_max (R305). -/
def tgfClamp (lo hi v : Word) : Word := if tgfValue v < tgfValue lo then lo else if tgfValue hi < tgfValue v then hi else v

/-! ## Context words (R290) -/

/-- The words of a context as a function of their number. -/
abbrev CtxWords := Nat → Word

/-- The words of a context. -/
def Ctx.word (c : Ctx) : CtxWords := mget 0#32 c.words

/-- HOLD. -/
def outHold : Nat := 0
/-- RAISE. -/
def outRaise : Nat := 1
/-- LOWER. -/
def outLower : Nat := 2

/-! ## The law -/

/-- What an evaluation starts from: the values that a sample record holds (R311). -/
structure LawIn where
  outPrev : Nat
  auto    : Bool
  stale   : Bool
  manOut  : Nat
  pv      : Word
  target  : Word
  s       : Word
  i       : Word
deriving DecidableEq, Repr

/-- What it ends with. -/
structure LawOut where
  out    : Nat
  target : Word
  s      : Word
  i      : Word
  sat    : Bool
deriving DecidableEq, Repr

/-- The ramp stage: the target and s after it, and whether s saturated. -/
def rampStage (w : CtxWords) (x : LawIn) : Word × Word × Bool :=
  let e := stageExp [x.target, x.s, w 17, w 18, x.pv]
  let t := atStage e x.target
  let s := atStage e x.s
  let up := atStage e (w 17)
  let dn := atStage e (w 18)
  if !x.auto then
    let p := tgfReduce (atStage e x.pv) e
    (if bitOf (w 2) 11 then tgfClamp (w 19) (w 20) p.1 else x.target, p.1, p.2)
  else
    let v := if s < t then (if tgfMant (w 17) = 0 then t else min t (s + up))
      else if t < s then (if tgfMant (w 18) = 0 then t else max t (s - dn))
      else s
    let r := tgfReduce v e
    (x.target, r.1, r.2)

/-- The error stage: e = s - pv. -/
def errorStage (s pv : Word) : Word × Bool :=
  let e := stageExp [s, pv]
  tgfReduce (atStage e s - atStage e pv) e

/-- The integral stage: i + ki × e, limited to i_lim. -/
def integralStage (w : CtxWords) (i err : Word) : Word × Bool :=
  let ki := tgfNorm (w 15)
  let p := tgfReduce (tgfMant ki * tgfMant err) (tgfExp ki + tgfExp err)
  let e := stageExp [i, p.1, w 16]
  let lim := atStage e (w 16)
  let v := atStage e i + atStage e p.1
  if lim < v then ((tgfReduce lim e).1, true)
  else if v < -lim then ((tgfReduce (-lim) e).1, true)
  else
    let r := tgfReduce v e
    (r.1, r.2 || p.2)

/-- The transitions of R304, on mantissas at the decision stage's exponent. -/
def decide3 (outPrev : Nat) (u db hy : Int) : Nat :=
  if outPrev = outHold then (if db < u then outRaise else if u < -db then outLower else outHold)
  else if outPrev = outRaise then
    (if u < -db then outLower else if -db ≤ u ∧ u ≤ db - hy then outHold else outRaise)
  else if outPrev = outLower then
    (if db < u then outRaise else if hy - db ≤ u ∧ u ≤ db then outHold else outLower)
  else outPrev

/-- The evaluation of R303. -/
def evalLaw (w : CtxWords) (x : LawIn) : LawOut :=
  let ramp := rampStage w x
  let err := errorStage ramp.2.1 x.pv
  let int := if x.auto && !x.stale && x.outPrev == outHold then integralStage w x.i err.1 else (x.i, false)
  let e := stageExp [err.1, int.1, w 13, w 14]
  let u := atStage e err.1 + atStage e int.1
  let out := if !x.auto then x.manOut
    else if x.stale then (if bitOf (w 2) 8 then x.outPrev else outHold)
    else decide3 x.outPrev u (atStage e (w 13)) (atStage e (w 14))
  { out := out, target := ramp.1, s := ramp.2.1
    i := if x.auto && x.outPrev == outHold && out != outHold then tgfZero else int.1
    sat := ramp.2.2 || err.2 || int.2 }

/-! ## The frame (R309) -/

/-- The output code of an output state (R291). -/
def outCode (w : CtxWords) (out : Nat) : Byte :=
  let raise := BitVec.ofNat 8 (fld (w 3) 16 8)
  let lower := BitVec.ofNat 8 (fld (w 3) 24 8)
  if out = outRaise then (if bitOf (w 2) 9 then lower else raise)
  else if out = outLower then (if bitOf (w 2) 9 then raise else lower)
  else BitVec.ofNat 8 (fld (w 4) 0 8)

/-- The frame that context c builds for an output and a sequence number. -/
def tgFrame (w : CtxWords) (c out seq : Nat) : TxItem :=
  let words := [putFld (w 5) 20 4 (fld (w 2) 21 4), w 6, w 7, w 8, 0#32, 0#32,
                packW [(1, 1, fld (w 2) 10 1), (16, 16, c)], packW [(0, 16, fld (w 4) 16 16), (16, 8, seq)]]
  let d := (bytesOfWords [w 9, w 10, w 11, w 12]).set (fld (w 3) 0 4) (outCode w out)
  let d := if bitOf (w 3) 8 then d.set (fld (w 3) 4 4) (BitVec.ofNat 8 seq) else d
  { words := words, data := d.take (dBytes (wd words 0) (wd words 1) (wd words 2)) }

/-! ## The input latch (R295 to R297) -/

/-- Tangent context c. -/
def State.ctx (s : State) (c : Nat) : Ctx := mget Ctx.reset s.tg.ctxs c
/-- Changes Tangent's state. -/
def State.modTg (s : State) (f : Tg → Tg) : State := { s with tg := f s.tg }
/-- Changes context c. -/
def State.modCtx (s : State) (c : Nat) (f : Ctx → Ctx) : State :=
  { s with tg := { s.tg with ctxs := mset s.tg.ctxs c (f (s.ctx c)) } }
/-- The context with word k replaced. -/
def Ctx.put (k : Nat) (v : Word) (c : Ctx) : Ctx := { c with words := mset c.words k v }

/-- A field of `n` bytes at `off`, in the byte order and with the sign given. -/
def fieldOf (data : List Byte) (off n : Nat) (be sgn : Bool) : Int :=
  let bs := (List.range n).map fun k => byteAt data (off + (if be then k else n - 1 - k))
  let v := bs.foldl (fun a b => a * 256 + b.toNat) 0
  if sgn then signed v (8 * n) else v

/-- The bound field lies within the frame, and the check that the context asks for has passed (R296, R297). -/
def bindTakes (w0 : Word) (data : List Byte) (pass : Bool) : Bool :=
  !(decide (data.length < fld w0 0 11 + (fld w0 11 2 + 1)) || (bitOf w0 15 && !pass))

/-- A frame bound to context c is visible (R295 to R297): `w0` is word 0 of the context as it stood at the verdict,
`pass` whether the check passed. -/
def bindUpdate (n c : Nat) (w0 : Word) (data : List Byte) (pass : Bool) (s : State) : State :=
  let x := s.ctx c
  if x.state == .unconfigured then s
  else
    let off := fld w0 0 11
    let len := fld w0 11 2 + 1
    let w30 := x.word 30
    if !bindTakes w0 data pass then
      s.modCtx c (Ctx.put 30 (putFld w30 16 16 (satInc 0xFFFF (fld w30 16 16))))
    else
      let v := ws (fieldOf data off len (bitOf w0 14) (bitOf w0 13))
      s.modCtx c fun x =>
        Ctx.put 26 (putFld (x.word 26) 24 8 0) (Ctx.put 30 (putFld w30 0 16 (fld w30 0 16 + 1))
          { x with latch := v, valid := true, updated := true, latchCh := n })

/-- The raw value of a latch as the integer it stands for (R295). -/
def rawValue (w0 v : Word) : Int := if bitOf w0 13 then sw v else v.toNat

end Sys2Proof.Machine
end

