-- ==== Sys2Proof/Machine/DuplexCore.lean ====
section
/-!
DEFINITION. The duplex controller's decisions (chapter 13): claims and generations, becoming ACTIVE and demotion, the
link's state, the comparison of frames, the record store and the referee's verdict, and what a claim-bearing BDP frame
does to it.
-/
namespace Sys2Proof.Machine

/-- Changes the duplex controller. -/
def State.modDx (s : State) (f : Dx → Dx) : State := { s with dx := f s.dx }

/-! ## Claims (R347, R368) -/

/-- The claim in force becomes `v`, and the retention keeps it. -/
def setClaim (v : Nat) (s : State) : State :=
  (s.modDx fun d => { d with claim := v, highest := Nat.max v d.highest }).modRet fun r => { r with claim := v }

/-- A claim of the pair is recorded in highest. -/
def noteClaim (v : Nat) (s : State) : State := s.modDx fun d => { d with highest := Nat.max v d.highest }

/-- The claim rises by one generation over the highest known; at generation 0x7FFF it cannot, and 0x6F DX_CLAIM_SAT is
raised. -/
def raiseClaim (s : State) : State :=
  let g := Nat.max s.dx.claim s.dx.highest / 2
  if 0x7FFF ≤ g then raise 0x6F 0 [] (setClaim (0x7FFF * 2 + s.dx.unit) s)
  else setClaim ((g + 1) * 2 + s.dx.unit) s

/-- CLAIM frames fall due on every supervised channel with a reason of R273. -/
def claimFrames (reason : Nat) (s : State) : State :=
  (List.range 16).foldl (fun s n =>
    if s.dx.supMask.testBit n then bdpDue n kClaim [packW [(0, 16, s.dx.claim), (16, 4, reason)]] s else s) s

/-! ## The referee's end (R359 to R363) -/

/-- Context c is flagged divergent: what is pending for it is not compared. -/
def flagDivergent (c : Nat) (s : State) : State :=
  s.modDx fun d => { d with divergent := if d.divergent.contains c then d.divergent else d.divergent ++ [c]
                            pend := mset d.pend c [] }

/-- 0x6C DX_VERDICT. -/
def verdictEvent (c v : Nat) (s : State) : State := raise 0x6C 0 [(16, c), (8, v)] s

/-- The exchange in progress ends with verdict NONE; `late`: for want of an answer (R361). -/
def refereeNone (late : Bool) (s : State) : State :=
  match s.dx.ref with
  | some x =>
    let s := s.modDx fun d => { d with ref := none, replays := d.replays.filter fun r => decide (r.why ≠ .own) }
    let s := verdictEvent x.ctx 0 s
    if late then vxAssert 32 (w32 x.ctx) (flagDivergent x.ctx s) else s
  | none => s

/-- Source 33 asserts (R356, R362): a STANDBY unit enters STANDBY_FAULT, and comparison stops (R345); an exchange that runs
goes on to its verdict (R360). -/
def selfFault (detail : Nat) (s : State) : State :=
  let s := vxAssert 33 (w32 detail) s
  if s.dx.state = 4 then s.modDx fun d => { d with state := 5, pend := [] } else s

/-- An epoch is discarded (R365). -/
def discardEpoch (s : State) : State :=
  let run := s.dx.discRun + 1
  let s := s.modDx fun d => { d with discards := satInc 0xFFFF d.discards, discRun := satInc 0xFFFF d.discRun
                                     rxEpoch := d.rxEpoch.map fun (e : RxEpoch) => { e with bad := true } }
  let s := raise 0x6D 0 [] s
  if run = 8 then vxAssert 31 2#32 s else s

/-- A unit that is still receiving an epoch that has not been discarded. -/
def receiving (s : State) : Bool := match s.dx.rxEpoch with | some e => !e.bad | none => false

/-- A partial epoch is discarded (R365). -/
def dropPartial (s : State) : State := if receiving s then discardEpoch s else s

/-! ## Becoming ACTIVE (R370, R371) -/

/-- The unit becomes ACTIVE with a cause of R371, unless it is in a class-3 safe state or in STANDBY_FAULT. -/
def becomeActive (cause : Nat) (s : State) : State :=
  if s.vx.safe || s.dx.state == 5 || s.dx.state == 2 || !s.dx.pairEn then s
  else
    let s := raiseClaim (dropPartial (refereeNone false s))
    let s := s.modDx fun d => { d with
      state := 2, lastCause := cause, takeovers := satInc 0xFFFF d.takeovers, pend := [], divergent := [], awaitRec := []
      startRun := false, busLost := false, rxEpoch := none, swap := none
      replays := d.replays.filter fun r => decide (r.why ≠ .resync) }
    let s := claimFrames (if cause = 4 then 2 else 1) s
    raise 0x68 0 [(8, cause), (16, s.dx.claim)] s

/-! ## Demotion (R220, R278, R346) -/

/-- A latched attempt that carries a claim, in its stamp or as a CLAIM frame, is not retried. -/
def lastAttempt (s : State) (l : Latched) (cells : List Nat) : Latched :=
  if itStamp l.item || s.bdp.own.any (fun o => o.kind == kClaim && o.cell == cells.headD 0 && !cells.isEmpty) then { l with retry := false }
  else l

/-- The cells of channel n's latched item, when it was taken from a queue. -/
def latchedCells (c : Chan) : List Nat :=
  match c.latch with
  | some l => match c.taken.find? (fun e => e.1 + 3 == l.source) with
    | some e => e.2.cells
    | none => []
  | none => []

/-- The device enters a STANDBY role (R278, R279): BDP items that still wait are not committed, those committed end like any other
item, and a latched attempt that carries a claim is its item's last (R220). -/
def stopOwn (s : State) : State :=
  let s := { s with chans := mmap (fun (c : Chan) => { c with
    latch := c.latch.map fun (l : Latched) => lastAttempt s l (latchedCells c) }) s.chans }
  s.modBdp fun b => { b with due := [], answers := [], echoes := [] }

/-- The unit leaves ACTIVE for state `new`: claim-stamped candidates go, with 0x43 once for each channel (R220), no more of a
snapshot is sent (R364), 0x69 DX_DEMOTED carries the cause and the higher claim where one was observed. -/
def demote (new : Nat) (cause : Fin 3) (claim : Option Nat) (s : State) : State :=
  let s := s.modDx fun d => { d with state := new, commits := [], refFor := none, pend := [], divergent := [], awaitRec := []
                                     txWait := d.txWait.filter fun p => p.kind != 10 && p.kind != 11 }
  let s := stopOwn s
  let items := (8, (Config.demoteCause cause).toNat) :: (match claim with | some v => [(16, v)] | none => [])
  (List.range 16).foldl (fun s n => recheck n (purgeDemoted n s)) (raise 0x69 0 items s)

/-- RESYNC asks for a full resynchronisation (R367). -/
def sendResync (s : State) : State := linkSend { kind := 8, words := [1#32] } s

/-- The unit is in STANDBY_SYNC and asks for a full resynchronisation once the link is UP. -/
def enterSync (s : State) : State :=
  sendResync (s.modDx fun d => { d with state := 3, startRun := false, pend := [], divergent := [], awaitRec := []
                                        ref := none })

/-! ## The link (R348, R353) -/

/-- A referee exchange runs whose answer has not arrived (R361). -/
def unanswered (s : State) : Bool := match s.dx.ref with | some x => x.answer.isNone | none => false

/-- The link goes DOWN: 0x6A, source 31, an exchange without its answer ends (R361), what waits to be sent is dropped
(R378: no snapshot is being sent), an ACTIVE unit raises its claim (R353), a standby that has lost the bus heartbeat takes
over (R371). An epoch being received is discarded at the next boundary (R365). -/
def linkDown (s : State) : State :=
  if !s.dx.linkUp then s
  else
    let s := s.modDx fun d => { d with linkUp := false, downs := satInc 0xFFFF d.downs, txWait := [], commits := []
                                       refFor := none }
    let s := vxLevelOn 31 1#32 (raise 0x6A 0 [] s)
    let s := if unanswered s then refereeNone true s else s
    if s.dx.state = 2 then claimFrames 1 (raiseClaim s)
    else if (s.dx.state = 3 ∨ s.dx.state = 4) ∧ s.dx.busLost then becomeActive 1 s
    else s

/-- The link comes UP with a valid HB while both lanes are aligned: 0x6A, and a standby resynchronises (R345). -/
def linkComesUp (s : State) : State :=
  if s.dx.linkUp then s
  else
    let s := vxLevelOff 31 (raise 0x6A 0 [] (s.modDx fun d => { d with linkUp := true }))
    if s.dx.state = 3 ∨ s.dx.state = 4 then enterSync s else s

/-! ## Frames compared (R357, R358) -/

/-- A frame observed on the bus, as it is compared: length and format, identifier, acceptance field [15:0], payload bytes
0 to 15. -/
def frameImage (fmt len ident : Nat) (ide : Bool) (af : Nat) (data : List Byte) : List Word :=
  [packW [(0, 16, len), (28, 3, fmt)], packW [(0, 29, ident), (31, 1, b1 ide)], 0#32,
   w32 (if fmt = 2 then af % 65536 else 0), wordAt (data.take 16) 0, wordAt (data.take 16) 4, wordAt (data.take 16) 8,
   wordAt (data.take 16) 12]

/-- The image of a received frame. -/
def seenImage (f : Frame) : List Word :=
  let fmt := busFormat f
  frameImage fmt (rxLength f fmt false) (identOf f) f.ide f.af.toNat (rxData f fmt false)

/-- The image of a frame that Tangent has built, as the channel would send it (R44, R46); `trunk`: as a trunk frame, which
carries its length as it is. The acceptance field of a claim-stamped frame is that of R219. -/
def builtImage (trunk : Bool) (addr : Nat) (i : TxItem) : List Word :=
  let w0 := wd i.words 0
  let w1 := wd i.words 1
  let fmt := dFormat w0
  let ide := bitOf w1 31 && fmt != 2
  let len := if fmt = 1 ∧ !trunk then fdPadded i.data.length else i.data.length
  let remote := dRemote w0 w1 (wd i.words 2)
  let af := if itStamp i then addr / 2 * 2 * 16 else (wd i.words 3).toNat
  frameImage fmt (if remote then dLength w0 else len) (if ide then fld w1 0 29 else fld w1 0 11) ide af i.data

/-- The channel, identifier and IDE under which the frames of context c are observed: none where its out_queue is no
TRANSMIT queue. -/
def ctxKey (s : State) (c : Ctx) : Option (Nat × Nat × Bool) :=
  let q := s.queue (fld (c.word 2) 13 8)
  let ide := bitOf (c.word 6) 31 && dFormat (c.word 5) != 2
  if q.state != .none && q.consumer == 5 then
    some (q.txCh, if ide then fld (c.word 6) 0 29 else fld (c.word 6) 0 11, ide)
  else none

/-- The ENABLED contexts with their keys. -/
def ctxKeys (s : State) : List (Nat × Option (Nat × Nat × Bool)) :=
  (s.tg.ctxs.filter fun e => e.2.state == .enabled).map fun e => (e.1, ctxKey s e.2)

/-- Context c is compared: its key is its own among the ENABLED contexts. -/
def compared (s : State) (c : Nat) : Bool :=
  match (ctxKeys s).find? fun e => e.1 == c with
  | some (_, some k) => ((ctxKeys s).filter fun e => decide (e.2 = some k)).length == 1
  | _ => false

/-- The compared context whose frames have this channel, identifier and IDE. -/
def comparedOn (s : State) (n ident : Nat) (ide : Bool) : Option Nat :=
  match (ctxKeys s).filter fun e => decide (e.2 = some (n, ident, ide)) with
  | [(c, _)] => some c
  | _ => none

/-- DX_CMP2 uncompared. -/
def uncomparedCount (s : State) : Nat := ((ctxKeys s).filter fun e => !compared s e.1).length

/-! ## The referee exchange (R360) -/

/-- The low 32 bits of an instant's index. -/
def idx32 (k : Int) : Nat := unsign k 32

/-- The record of context c for an instant. -/
def findRec (s : State) (c index : Nat) : Option Rec := (mget [] s.dx.recs c).find? fun r => r.index == index

/-- A replay is asked of Tangent. -/
def askReplay (c : Nat) (r : Rec) (why : ReplayFor) (s : State) : State :=
  s.modDx fun d => { d with replays := d.replays ++ [{ ctx := c, rcd := r, why := why }] }

/-- The verdict (R362), once both units' self-consistency is known. -/
def judgeExchange (s : State) : State :=
  match s.dx.ref with
  | some x =>
    match x.selfOk, x.answer with
    | some mine, some theirs =>
      let s := s.modDx fun d => { d with ref := none }
      let v := if theirs then (if mine then 0 else 2) else (if mine then 1 else 3)
      let s := linkSend { kind := 3, words := [packW [(0, 2, v), (2, 9, x.ctx)]] } (verdictEvent x.ctx v s)
      if v = 0 then flagDivergent x.ctx s
      else if v = 1 then
        let s := vxAssert 32 (w32 x.ctx) s
        if s.dx.state = 4 then becomeActive 2 s else s
      else if v = 2 then selfFault x.ctx s
      else vxAssert 32 (w32 x.ctx) (s.modDx fun d => { d with state := 5, pend := [] })
    | _, _ => s
  | none => s

/-- The standby's own replay has been judged. -/
def selfJudged (ok : Bool) (s : State) : State :=
  judgeExchange (s.modDx fun d => { d with ref := d.ref.map fun (x : RefEx) => { x with selfOk := some ok } })

/-- A mismatch starts an exchange (R360): REF_REQ goes to the active, the own record is replayed; one that has left the
store or has a parity error is not self-consistent. -/
def startExchange (c kind index : Nat) (shown : Option (List Word)) (s : State) : State :=
  let img := shown.getD [0, 0, 0, 0, 0, 0, 0, 0]
  let s := s.modDx fun d => { d with ref := some { ctx := c, index := index, selfOk := none, answer := none } }
  let s := linkSend { kind := 4, words := [w32 c, w32 index] ++ img ++ [w32 kind, 0, 0, 0, 0, 0] } s
  match findRec s c index with
  | some r => if r.bad then selfJudged false (selfFault c s) else askReplay c r .own s
  | none => selfJudged false s

/-- A mismatch of context c (R359): 0 CONTENT, 1 MISSING, 2 EXTRA. -/
def mismatch (c kind index : Nat) (shown : Option (List Word)) (s : State) : State :=
  let s := s.modDx fun d => { d with mismatches := satInc 0xFFFF d.mismatches, lastCtx := c, lastKind := kind }
  let s := raise 0x6B 0 [(16, c), (8, kind)] s
  if s.dx.state = 4 ∧ s.dx.linkUp ∧ s.dx.ref.isNone then startExchange c kind index shown s else flagDivergent c s

/-- A frame received on channel n at its frame valid, whatever its verdict (R357, R358). -/
def observeFrame (n : Nat) (f : Frame) (s : State) : State :=
  if s.dx.state ≠ 4 then s
  else match comparedOn s n (identOf f) f.ide with
    | none => s
    | some c =>
      if s.dx.divergent.contains c then s
      else match mget [] s.dx.pend c with
        | [] => mismatch c 2 (idx32 (s.ctx c).lastK) (some (seenImage f)) s
        | p :: t =>
          let s := s.modDx fun d => { d with pend := mset d.pend c t }
          if p.frame = seenImage f then s else mismatch c 0 p.index (some (seenImage f)) s

/-! ## Claims observed (R352, R368, R369, R375) -/

/-- A BDP frame of the partner is heard on the bus: the start timer then finds a partner (R345). -/
def partnerHeard (sender : Nat) (s : State) : State :=
  if s.dx.state = 1 ∧ sender / 2 = devAddr s / 2 ∧ sender ≠ devAddr s then s.modDx fun d => { d with heard := true } else s

/-- A well-formed CLAIM or HEARTBEAT on channel n of another sender: a paired unit takes note of the claims of its pair,
the bus timer restarts, a higher claim demotes an ACTIVE unit, and the claim of a swap ends DX_SWAP. -/
def claimObserved (n kind sender claim : Nat) (s : State) : State :=
  if !s.dx.pairEn || sender / 2 != devAddr s / 2 then s
  else
    let own := s.dx.claim
    let sup := s.dx.supMask.testBit n
    let s := noteClaim claim s
    let s := if sup then s.modDx fun d => { d with busLost := false } else s
    let s := match s.dx.swap with
      | some w =>
        if w.mine && w.passed && sup && decide (own < claim) then
          let s := s.modDx fun d => { d with swap := none }
          match w.ring with | some r => complete r stOk 0 0 s | none => s
        else s
      | none => s
    if s.dx.state = 1 ∧ sup ∧ kind = kHeartbeat then enterSync s
    else if s.dx.state = 2 ∧ own < claim then enterSync (demote 3 0 (some claim) s)
    else s

/-! ## Contexts that stop (R292, R317, R367) -/

/-- A field of word 26 of context c. -/
def put26 (lo n v : Nat) (x : Ctx) : Ctx := Ctx.put 26 (putFld (x.word 26) lo n v) x

/-- The DX_RESYNC commands that wait complete: the unit is STANDBY again (R379). -/
def resyncDone (s : State) : State :=
  completeAll s.dx.resync stOk (w32 s.dx.committed) 0 (s.modDx fun d => { d with resync := [] })

/-- STANDBY is reached (R345, R367): 0x6E DX_SYNCED with the epoch number. -/
def standbyReached (s : State) : State :=
  resyncDone (raise 0x6E 0 [(32, s.dx.committed)] (s.modDx fun d => { d with state := 4 }))

/-- The frame of context c no longer waits. -/
def frameGone (c : Nat) (s : State) : State :=
  (s.modCtx c fun x => put26 6 1 0 { x with frame := none }).modTg fun t => { t with emitQ := t.emitQ.filter (· != c) }

/-- Context c is ENABLED no longer and awaits no record: a unit in STANDBY_SYNC whose last context this was is STANDBY
(R367). -/
def notAwaited (c : Nat) (s : State) : State :=
  let was := s.dx.awaitRec.contains c
  let s := s.modDx fun d => { d with awaitRec := d.awaitRec.filter (· != c) }
  if was && s.dx.state == 3 && s.dx.awaitRec.isEmpty then standbyReached s else s

/-- A context leaves DISABLING for DISABLED (R292): TG_DISABLE completes. -/
def ctxDisabled (c : Nat) (r0 : Word) (s : State) : State :=
  let ring := (s.ctx c).ring
  let s := notAwaited c (s.modCtx c fun x => { x with state := .disabled, ring := none, pendK := none, modeReq := none })
  match ring with | some r => complete r stOk r0 0 s | none => s

/-- An uncorrectable error found in context c (R292, R317). -/
def ctxFailed (c : Nat) (s : State) : State :=
  let ring := (s.ctx c).ring
  let s := (frameGone c s).modCtx c fun x => { x with state := .failed, ring := none, pendK := none, modeReq := none }
  let s := match ring with | some r => complete r eCheck 0 0 s | none => s
  let s := s.modTg fun t =>
    { t with ecc := if bitOf t.ecc 25 then t.ecc else putFld (putFld t.ecc 16 9 c) 25 1 1 }
  notAwaited c (vxAssert 19 (w32 c) (raise 0x5D c [(16, c), (8, 1)] s))

/-- One of the words `ks` of a context has a double-bit error. -/
def readsBad (ks : List Nat) (x : Ctx) : Bool := ks.any fun k => mget 0 x.bad k == 2

/-- The words `ks` of context c are read: a double-bit error fails it (R317), unless it is FAILED already or UNCONFIGURED (log entry
79). -/
def ctxCheck (c : Nat) (ks : List Nat) (s : State) : State :=
  let x := s.ctx c
  if x.state == .unconfigured || x.state == .failed || !readsBad ks x then s else ctxFailed c s

end Sys2Proof.Machine
end

