-- ==== Sys2Proof/Machine/Endpoint.lean ====
section
/-!
DEFINITION. The PCI Express function (R486, R487): its configuration, and what the configuration space shows of it. The table has
no row for a configuration request: it befalls the device as an operand (log entry 148).
-/
namespace Sys2Proof.Machine

/-- The base addresses as the function holds them: BAR0 of 1 MiB, BAR2 with BAR3 of 4 MiB (R486). -/
def endpointHeld (e : Endpoint) : Endpoint := { e with bar0 := e.bar0 &&& 0xFFF00000#32, bar2 := e.bar2 &&& 0xFFFFFFFFFFC00000#64 }

/-- The vectors whose pending messages may leave (R511). -/
def msixFree (s : State) : List Nat :=
  (List.range 64).filter fun v => bitOf64 s.sq.msixPend v && !bitOf (msixWord s v 3) 0

/-- The host has written the function's configuration: a fall of the function mask lets the pending vectors that no vector
control holds back send their messages (R511). -/
def setEndpoint (e : Endpoint) (s : State) : State :=
  let s := s.modSq fun q => { q with ep := endpointHeld e }
  if e.msixMask then s
  else (msixFree s).foldl (fun s v => msixSend v (s.modSq fun q => { q with msixPend := putBit64 q.msixPend v false })) s

/-- A dword of the function's configuration header (R486): the IDs, the class code with the silicon revision, the base addresses,
the subsystem IDs; the others, the expansion ROM's and the Interrupt Pin's among them, read 0. -/
def endpointWord (e : Endpoint) (off : Nat) : Word :=
  match off with
  | 0x00 => 0x16641F8C#32
  | 0x08 => 0x0C090001#32
  | 0x10 => e.bar0
  | 0x18 => lo32 e.bar2 ||| 0xC#32
  | 0x1C => hi32 e.bar2
  | 0x2C => 0x00011F8C#32
  | _ => 0#32

/-- The maximum payload of a request, and the maximum read request, in bytes (R486). -/
def maxPayload (e : Endpoint) : Nat := if e.payload256 then 256 else 128
/-- See `maxPayload`. -/
def maxReadRequest (e : Endpoint) : Nat := 128 <<< e.maxRead.val

end Sys2Proof.Machine
end

