-- ==== Sys2Proof/Machine/Jtag.lean ====
section
/-!
DEFINITION. The JTAG port (R546): the TAP of IEEE 1149.1 with BYPASS, IDCODE, SAMPLE/PRELOAD and EXTEST. The table has no row for a
JTAG pin: TRST_N and TCK befall the device as operands. The controller and what each instruction selects are those of the
standard that R546 names (PRESUMED, log entry 121); the codes of the instructions and the cells of the boundary register are
free values.
-/
namespace Sys2Proof.Machine

/-- The TAP is held in reset: TRST_N is low or undriven. -/
def tapHeld (s : State) : Bool := !s.tap.trstHigh

/-- The device's IDCODE. -/
def idcodeWord : Word := 0x1664A3F1#32

/-- The controller's next state. -/
def tapNext (c : TapState) (tms : Bool) : TapState :=
  match c with
  | .reset => if tms then .reset else .idle
  | .idle => if tms then .selectDr else .idle
  | .selectDr => if tms then .selectIr else .captureDr
  | .captureDr => if tms then .exit1Dr else .shiftDr
  | .shiftDr => if tms then .exit1Dr else .shiftDr
  | .exit1Dr => if tms then .updateDr else .pauseDr
  | .pauseDr => if tms then .exit2Dr else .pauseDr
  | .exit2Dr => if tms then .updateDr else .shiftDr
  | .updateDr => if tms then .selectDr else .idle
  | .selectIr => if tms then .reset else .captureIr
  | .captureIr => if tms then .exit1Ir else .shiftIr
  | .shiftIr => if tms then .exit1Ir else .shiftIr
  | .exit1Ir => if tms then .updateIr else .pauseIr
  | .pauseIr => if tms then .exit2Ir else .pauseIr
  | .exit2Ir => if tms then .updateIr else .shiftIr
  | .updateIr => if tms then .selectDr else .idle

/-- The instruction of a code: all ones is BYPASS, the other codes are not in the manual. -/
def tapInstr (ir : List Bool) : TapInstr :=
  if ir.all id then .bypass
  else match (Config.tapCode ir).toNat with
    | 0 => .bypass
    | 1 => .idcode
    | 2 => .samplePreload
    | _ => .extest

/-- What the data register that the instruction selects captures, first bit out first: the one bypass bit, the IDCODE, or the
boundary register's cells. -/
def tapCapture (s : State) : List Bool :=
  match s.tap.instr with
  | .bypass => [false]
  | .idcode => (List.range 32).map (bitOf idcodeWord)
  | .samplePreload => Config.boundaryCells s.freeCtr
  | .extest => Config.boundaryCells s.freeCtr

/-- A register shifts by one bit. -/
def tapShift (tdi : Bool) (l : List Bool) : List Bool := l.drop 1 ++ [tdi]

/-- What the rising edge of TCK does to the shift stages, in the state that it finds. -/
def tapMove (tdi : Bool) (s : State) : State :=
  match s.tap.ctl with
  | .captureDr => { s.freshTick with tap := { s.tap with dr := tapCapture s } }
  | .shiftDr => { s with tap := { s.tap with dr := tapShift tdi s.tap.dr } }
  | .captureIr => { s with tap := { s.tap with ir := true :: false :: Config.irCapture } }
  | .shiftIr => { s with tap := { s.tap with ir := tapShift tdi s.tap.ir } }
  | _ => s

/-- What the state that TCK has brought updates: the instruction, or the boundary register's outputs. -/
def tapUpdate (s : State) : State :=
  match s.tap.ctl with
  | .reset => { s with tap := { s.tap with instr := .idcode } }
  | .updateIr => { s with tap := { s.tap with instr := tapInstr s.tap.ir } }
  | .updateDr =>
    if s.tap.instr = .samplePreload ∨ s.tap.instr = .extest then { s with tap := { s.tap with bsr := s.tap.dr } } else s
  | _ => s

/-- A cycle of TCK, unless the TAP is held in reset. -/
def tapClock (tms tdi : Bool) (s : State) : State :=
  if tapHeld s then s
  else
    let c := tapNext s.tap.ctl tms
    let s := tapMove tdi s
    tapUpdate { s with tap := { s.tap with ctl := c } }

/-- The level of TRST_N changes; low resets the TAP. -/
def tapTrst (high : Bool) (s : State) : State :=
  { s with tap := if high then { s.tap with trstHigh := true } else Tap.reset }

/-- The output pins are driven from the boundary register: under EXTEST. -/
def tapOwnsPins (s : State) : Bool := !tapHeld s && s.tap.instr == .extest

end Sys2Proof.Machine
end

