-- ==== Sys2Proof/Machine/Upset.lean ====
section
/-!
DEFINITION. What a fault of the silicon does to the stored words, to a transfer of the slot wheel and to a channel engine (R35, R384),
and what befalls the ports for which the table has no row (R486, R534, R546).
-/
namespace Sys2Proof.Machine

/-- A word with SECDED after one more error: a single-bit error in a word that has one already is a double-bit error. -/
def eccWorse (old : Nat) (double : Bool) : Nat := if double || old != 0 then 2 else 1

/-- Record k of a context's store, oldest first, gets a parity error. -/
def markRec (k : Nat) (l : List Rec) : List Rec :=
  match l[k]? with
  | some r => l.set k { r with bad := true }
  | none => l

/-- A stored word changes, a slot's next transfer is disturbed, a channel engine's lock-step check finds a mismatch (R35, R151, R152,
R167, R196, R245, R317, R356, R377, R384), the levels at the GPIO pins, the strap pins or TRST_N change, TCK has a cycle, or the host writes
the function's configuration while the link is up. -/
def applyUpset (u : Upset) (s : State) : State :=
  match u with
  | .element i d flip => s.modLat fun l =>
      { l with elemErr := mset l.elemErr i.val (eccWorse (mget 0 l.elemErr i.val) d)
               elems := if d then mset l.elems i.val (mget 0#64 l.elems i.val ^^^ flip) else l.elems }
  | .gate g d => s.modLat fun l => { l with gateErr := mset l.gateErr g.val (eccWorse (mget 0 l.gateErr g.val) d) }
  | .context c w d flip => s.modCtx c.val fun x =>
      { x with bad := mset x.bad w.val (eccWorse (mget 0 x.bad w.val) d)
               words := if d then mset x.words w.val (x.word w.val ^^^ flip) else x.words }
  | .link c => s.modPool fun p => { p with linkBad := if p.linkBad.contains c.val then p.linkBad else p.linkBad ++ [c.val] }
  | .route r => s.modRoute r.val fun e => { e with bad := true }
  | .hold n => s.modCd fun c => { c with holds := c.holds.map fun e =>
      if e.1 = n.val then (e.1, ({ e.2 with bad := true } : Hold)) else e }
  | .record c k => s.modDx fun d => { d with recs := mset d.recs c.val (markRec k.val (mget [] d.recs c.val)) }
  | .snapshot b => s.modDx fun d => { d with
      sendBad := d.sendBad || b.val == 0, bufBad := d.bufBad || b.val == 1, commitBad := d.commitBad || b.val == 2 }
  | .transfer k lane => s.modGl fun g => { g with slotBad := g.slotBad ++ [(k.val, lane)] }
  | .poolByte a v => s.modPool fun p => { p with mem := memSet p.mem a.val v }
  | .lockstep n => if s.pw.awake && !s.boot.inReset then vxAssert n.val (w32 n.val) s else s
  | .gpio l => s.modGl fun g => { g with gpioPins := l.toNat }
  | .strap x => atStraps x s
  | .trst high => tapTrst high s
  | .tck tms tdi => tapClock tms tdi s
  | .config e => if coreLive s && s.sq.linkUp then setEndpoint e s else s

/-- The storage faults that a command meets, in order. -/
def applyUpsets (us : List Upset) (s : State) : State := us.foldl (fun s u => applyUpset u s) s

end Sys2Proof.Machine
end

