-- ==== Sys2Proof/Machine/Measure.lean ====
section
/-!
DEFINITION. The margin planner's measurements (chapter 17): edges of received and of transmitted frames, loop delays, the
senders seen.
-/
namespace Sys2Proof.Machine

/-- Changes the margin planner. -/
def State.modMp (s : State) (f : Mp → Mp) : State := { s with mp := f s.mp }
/-- MP_CH_CFG of channel n (R473). -/
def mpChCfg (s : State) (n : Nat) : Word := mget 0x00408204#32 s.mp.chCfg n
/-- MP_CH_LIM of channel n (R473). -/
def mpChLim (s : State) (n : Nat) : Word := mget 0x006400FA#32 s.mp.chLim n

/-- `num / den`, rounded to the nearest integer (R460): a tie goes as Config.edgeTieUp says. -/
def roundDiv (num : Int) (den : Nat) : Int :=
  if den = 0 then 0
  else
    let q := num / den
    let r := num % den
    if 2 * r < den then q else if (den : Int) < 2 * r then q + 1
    else if Config.edgeTieUp num den then q + 1 else q

/-- Periods to milli-bit-times for a bit of `n` periods (R460). -/
def milliBits (err : Int) (n : Nat) : Int := roundDiv (err * 1000) n

/-- The bin of a phase (R462). -/
def binOf (e : Int) : Nat :=
  if e < -250 then 0 else if e < -100 then 1 else if e < -25 then 2 else if e < 0 then 3
  else if e < 25 then 4 else if e < 100 then 5 else if e < 250 then 6 else 7

/-- A record takes one edge (R462). -/
def histAdd (h : Hist) (e : Int) : Hist :=
  { count := satInc 0xFFFF h.count
    eMin := if h.count = 0 then e else min h.eMin e
    eMax := if h.count = 0 then e else max h.eMax e
    bins := (List.range 8).map fun k => if k = binOf e then satInc 0xFFFF (h.bins.getD k 0) else h.bins.getD k 0 }

/-- The key of a record: channel, slot (256: own loop), phase (0 nominal, 1 FD, 2 XL or trunk). -/
def histKey (n slot phase : Nat) : Nat := (257 * n + slot) * 3 + phase

/-- The planner measures channel n: planning cycles run, the channel is not STOPPED, STOPPING or SAFE, and the device is
not in a class-3 safe state (R458). -/
def mpMeasures (s : State) (n : Nat) : Bool :=
  bitOf s.mp.cfg 0 && !s.vx.safe
  && (s.chan n).state != .stopped && (s.chan n).state != .stopping && (s.chan n).state != .safe

/-- The data phase of a format: 1 CAN FD, 2 CAN XL or trunk. -/
def dataPhaseOf (fmt : BusFmt) : Nat := if fmt == .fd then 1 else 2

/-- The bit length in periods of a phase of channel n. -/
def phaseBits (s : State) (n phase : Nat) : Nat :=
  if phase = 0 then nominalBits s n else if phase = 1 then datBits (s.chan n).dat else datBits (s.chan n).xl

/-- The edges of a received frame go into the record of its slot (R460, R461), and the sender of a well-formed BDP frame
of another device is noted (R274, R472). -/
def measureRx (n : Nat) (f : Frame) (bdp : Bool) (edges : List Edge) (s : State) : State :=
  if !mpMeasures s n then s
  else
    let slot := if bdp then bdpSender f.ident.toNat % 256 else (identOf f >>> fld (mpChCfg s n) 3 5) % 256
    let s := edges.foldl (fun s e =>
      let p := if e.dataPhase then dataPhaseOf f.fmt else 0
      let k := histKey n slot p
      s.modMp fun m => { m with cur := mset m.cur k (histAdd (mget Hist.reset m.cur k) (milliBits e.err (phaseBits s n p))) }) s
    let from' := (n, bdpSender f.ident.toNat)
    if bdp && bdpWellFormed f.ident.toNat f.data && bdpSender f.ident.toNat != devAddr s then s.modMp fun m => { m with
      senders := if m.senders.contains from' then m.senders else m.senders ++ [from'] }
    else s

/-- The edges returned in the data phase of a transmitted frame go into the own-loop record (R463). -/
def measureTx (n phase : Nat) (edges : List Int) (s : State) : State :=
  if !mpMeasures s n then s
  else edges.foldl (fun s e =>
    let k := histKey n 256 phase
    s.modMp fun m => { m with cur := mset m.cur k (histAdd (mget Hist.reset m.cur k) (milliBits e (phaseBits s n phase))) }) s

/-- A loop delay measured in a transmitted frame (R463). -/
def measureDelay (n d : Nat) (s : State) : State :=
  if !mpMeasures s n then s
  else s.modMp fun m => { m with
    delays := match m.delays.find? fun e => e.1 == n with
    | some (_, lo, hi, sum, cnt) => mset m.delays n (Nat.min lo d, Nat.max hi d, sum + d, cnt + 1)
    | none => mset m.delays n (d, d, d, 1) }

end Sys2Proof.Machine
end

