-- ==== Sys2Proof/Machine/RxBdp.lean ====
section
/-!
DEFINITION. What a received BDP frame does (R274, R280 to R284) and what a bring-up console request does (R448).
-/
namespace Sys2Proof.Machine

/-- An IDENTIFY_REQ on channel n asks this device for an answer, unless one is still uncommitted or unsent (R281). -/
def identifySeen (n : Nat) (w0 : Word) (s : State) : State :=
  let asked := bitOf w0 12 || fld w0 0 12 == devAddr s
  let owed := s.bdp.answers.contains n || bdpWaits s n kIdAns || s.bdp.own.any fun o => o.ch == n && o.kind == kIdAns
  if asked && !owed && !isStandby s then s.modBdp fun b => { b with answers := b.answers ++ [n] } else s

/-- A MARGIN_PROBE on channel n (R282): a device that may send no BDP frame on the channel answers none (R276, R278); a
probe while echoes of one are outstanding is ignored. -/
def probeSeen (n : Nat) (w0 : Word) (s : State) : State :=
  if fld w0 0 12 ≠ devAddr s ∨ !bdpSends s n then s
  else if mget 0 s.bdp.echoes n ≠ 0 ∨ (s.bdp.own.any fun o => o.ch == n && o.kind == kEcho) ∨ bdpWaits s n kEcho then
    bump n 0x58 s
  else s.modBdp fun b => { b with echoes := mset b.echoes n (fld w0 16 5) }

/-- A CLAIM or HEARTBEAT (R146, R280): the claim gates, and in service the duplex controller. -/
def claimFrame (n kind sender claim : Nat) (s : State) : State :=
  let s := if claim = 0 then s else claimSeen sender claim s
  if inService s then claimObserved n kind sender claim s else s

/-- A well-formed BDP frame of another device is acted on (R280); before the commit only CLAIM, HEARTBEAT and
IDENTIFY_REQ are (R284). -/
def bdpAct (n kind aux sender : Nat) (stamp : DWord) (w0 w1 : Word) (s : State) : State :=
  let slave := tmRole s == 2 && fld s.tm.role 4 4 == n
  let s := partnerHeard sender s
  if kind = kClaim ∨ kind = kHeartbeat then claimFrame n kind sender (fld w0 0 16) s
  else if kind = kIdReq then identifySeen n w0 s
  else if !inService s then s
  else if kind = kSync then (if slave then syncSeen aux sender stamp s else s)
  else if kind = kFollowUp then (if slave then followUpSeen n aux sender (join64 w0 w1) s else s)
  else if kind = kPrepare then prepareSeen n sender w0 s
  else if kind = kCommit then commitSeen n s
  else if kind = kKeepAwake then keepAwakeSeen n sender w0 s
  else if kind = kProbe then probeSeen n w0 s
  else s

/-- A BDP frame at its frame valid (R274, R286, R288, R289): a malformed one is counted and reported, and on one that
carries the device's own address no block acts (log entry 65). -/
def bdpReceived (n : Nat) (stamp : DWord) (ident : Nat) (data : List Byte) (s : State) : State :=
  if !bdpWellFormed ident data then
    let s := s.modBdp fun b => { b with malformed := satInc 0xFFFF b.malformed }
    chEvent 0x0C n [(32, ident + 2 ^ 31)] (bump n 0x58 s)
  else
    let s := s.modBdp fun b => { b with rx := (b.rx + 1) % 65536 }
    let s := bump n 0x54 s
    if bdpSender ident = devAddr s then s
    else bdpAct n (bdpKind ident) (bdpAux ident) (bdpSender ident) stamp (wordAt data 0) (wordAt data 4) s

/-- A console request of the reduced service (R448): an extended data frame of identifier 0x1FFE_0000 plus the device
address. -/
def consoleRequest (s : State) (f : Frame) : Bool :=
  f.fmt == .cc && f.ide && !f.rtr && f.ident.toNat == 0x1FFE0000 + devAddr s

/-- The payload of a console request is one aligned offset of the GL, VX or SQ block. -/
def consoleWell (data : List Byte) : Bool :=
  let off := (wordAt data 0).toNat
  data.length == 4 && off % 4 == 0
  && (decide (off < 0x100) || decide (0x1000 ≤ off ∧ off < 0x1C08) || decide (0x2000 ≤ off ∧ off < 0x204C))

/-- The fixed filter of the reduced service (R447) on a valid Classical CAN frame: BDP frames of the reset block that it
passes, and console requests. -/
def reducedValid (n : Nat) (stamp : DWord) (f : Frame) (s : State) : State :=
  let data := f.data.take 8
  if isBdp 0x10 f then
    let k := bdpKind f.ident.toNat
    if k = kClaim ∨ k = kHeartbeat ∨ k = kIdReq then bdpReceived n stamp f.ident.toNat data s else s
  else if consoleRequest s f then
    let c := (n, wordAt data 0, consoleWell data)
    { s with boot := { s.boot with console := s.boot.console ++ [c] } }
  else s

end Sys2Proof.Machine
end

