-- ==== Sys2Proof/Machine/Image.lean ====
section
/-!
DEFINITION. The configuration image (R449, R450): its header and sections, and the settings that a channel takes from it
at the commit (R448, R454).
-/
namespace Sys2Proof.Machine

/-- An entry of the section table (R449). -/
structure Sect where
  kind : Nat
  inst : Nat
  off  : Nat
  len  : Nat
  crc  : Word
deriving DecidableEq, Repr

/-- The number of sections that the header gives. -/
def imgSections (img : List Byte) : Nat := fld (wordAt img 0x10) 0 8

/-- Entry i of the section table. -/
def imgSect (img : List Byte) (i : Nat) : Sect :=
  let a := 0x40 + 16 * i
  { kind := fld (wordAt img a) 0 8, inst := fld (wordAt img a) 8 8, off := (wordAt img (a + 4)).toNat,
    len := (wordAt img (a + 8)).toNat, crc := wordAt img (a + 12) }

/-- The section table. -/
def imgTable (img : List Byte) : List Sect := (List.range (imgSections img)).map (imgSect img)

/-- The offset of the section of a type and instance, where the image has one. -/
def sectAt (img : List Byte) (kind inst : Nat) : Option Nat :=
  ((imgTable img).find? fun e => e.kind == kind && e.inst == inst).map (·.off)

/-- What is done with a section: `f` at its offset, nothing where it is absent. -/
def withOffset (f : Nat → State → State) : Option Nat → State → State
  | some o, s => f o s
  | none, s => s

/-- `f` on the section of a type and instance. -/
def onSection (img : List Byte) (kind inst : Nat) (f : Nat → State → State) (s : State) : State :=
  withOffset f (sectAt img kind inst) s

/-- Word k of the section at an offset. -/
def sectWord (img : List Byte) (off k : Nat) : Word := wordAt img (off + 4 * k)

/-- Type of a CHANNEL section. -/
def secChannel : Nat := 0x02

/-- A channel with its RWC registers as the image has them, or at their reset values where its section is absent. -/
def imageRegs (img : List Byte) (off : Option Nat) (c : Chan) : Chan :=
  chRegs.foldl (fun c e =>
    chCfgSet e.1 (match off with
      | some o => maskMerge (chCfgWord Chan.reset e.1) (wordAt img (o + e.1)) e.2.1
      | none => chCfgWord Chan.reset e.1) c) c

/-- The transceiver state of channel n at the commit (R454). -/
def imageTrx (img : List Byte) (off : Option Nat) (n : Nat) (s : State) : State :=
  match off with
  | some o =>
    let t := fld (wordAt img (o + 0xFC)) 2 2
    if (s.chan n).trx = t ∧ !(s.chan n).settling then s.modChan n fun c => { c with pinsDrv := true }
    else trxSet n t none s
  | none => s.modChan n fun c => { c with trx := 2, trxTgt := 2, settling := false, pinsDrv := false }

/-- Word k of a CHANNEL section that may be absent. -/
def offWord (img : List Byte) (off : Option Nat) (k : Nat) : Word :=
  match off with
  | some o => wordAt img (o + k)
  | none => 0#32

/-- The registers of channel n as the image has them (R450); a channel that is SAFE stays so. -/
def imageSettings (img : List Byte) (off : Option Nat) (n : Nat) (s : State) : State :=
  let s := s.modChan n fun c => { imageRegs img off c with
    state := if c.state == .safe then .safe else .stopped, boff := .none, seqCnt := 0 }
  let s := if off.isSome then [0x0C, 0x10, 0x14, 0x18].foldl (fun s o => planWritten n o s) s else s
  (s.modTm fun t => { t with chAdj := mset t.chAdj n (offWord img off 0xF0) }).modLat fun l =>
    { l with chDef := mset l.chDef n (offWord img off 0xF4 &&& 0x000FFF07#32) }

/-- The transceiver of channel n goes to the image's state, and the channel starts where the image says so (R454). -/
def imageBegin (img : List Byte) (off : Option Nat) (n : Nat) (s : State) : State :=
  if (s.chan n).state == .safe then s
  else if bitOf (offWord img off 0xFC) 0 then startChannel n (imageTrx img off n s)
  else recheck n (imageTrx img off n s)

/-- Channel n takes the settings of the image (R448, R450, R454). -/
def imageChan (img : List Byte) (n : Nat) (s : State) : State :=
  imageBegin img (sectAt img secChannel n) n (imageSettings img (sectAt img secChannel n) n s)

/-- The channel leaves the reduced service for the settings of the commit; after the commit of R565 it is STOPPED with the
settings its registers hold. -/
def takeCommit (j : CommitJob) (n : Nat) (s : State) : State :=
  if j.empty then
    if (s.chan n).state = .safe then s
    else recheck n (s.modChan n fun c => { c with state := .stopped, boff := .none, seqCnt := 0 })
  else imageChan j.image n s

/-- The channels that have still to take the commit's settings, without channel n. -/
def startDone (j : CommitJob) (n : Nat) : Option CommitJob :=
  let rest := j.start.filter (· != n)
  if rest.isEmpty then none else some { j with start := rest }

/-- A channel of the reduced service whose frame on the wire has ended takes the settings of the commit (R448). -/
def takeSettings (n : Nat) (s : State) : State :=
  match s.boot.commit with
  | some j =>
    if inService s && j.start.contains n && !frameOnWire s n then
      takeCommit j n { s with boot := { s.boot with commit := startDone j n } }
    else s
  | none => s

/-- The wire of channel n is free: a frame has ended, as `k` of R102 says. A change of the transceiver that waited is
applied (R107), a STOPPING channel is STOPPED (R74), a commit's settings are taken (R448). -/
def wireFree (n k : Nat) (s : State) : State :=
  if frameOnWire s n then s
  else takeSettings n (stoppingEnds n k (trxApply n s))

end Sys2Proof.Machine
end

