-- ==== Sys2Proof/Machine/Rx.lean ====
section
/-!
DEFINITION. A received frame (chapters 3 to 8): SOF, header and verdict with its cell chains, CRC, end, the writes of its
cells into the pool and its commit record.
-/
namespace Sys2Proof.Machine

/-- Changes the frame in channel n's receive path. -/
def modRx (n : Nat) (g : RxFrame → RxFrame) (s : State) : State := s.modChan n fun c => { c with rx := c.rx.map g }

/-! ## SOF (R74, R118, R155, R254) -/

/-- A frame begins on channel n: the stamp, the half of its region, the channel default and the BDP base are latched.
`own`: the channel receives its own frame (R51). -/
def rxOpen (n : Nat) (own : Bool) (stamp : DWord) (s : State) : State :=
  let x : RxFrame := {
    stamp := stamp, half := activeHalf s n, chDef := mget 0#32 s.lat.chDef n
    base := if reduced s n then 0x10 else bdpBase s
    frame := none, verdict := .pending, chains := [], binds := [], gates := [], owned := false, check := none
    ckCfg := 0, ckCfg2 := 0, engBad := false, result := 0, dataId := 0, seqNo := 0, crcDone := false, valid := false
    own := own, ctSeq := none, ctHead := [] }
  s.modChan n fun c => { c with rx := some x }

/-- The channel has won the arbitration with its own frame: what is on the wire is that. -/
def ownsWire (c : Chan) : Bool := match c.latch with | some l => l.deadline | none => false

/-- The SOF of another node's frame on channel n: an ACTIVE channel receives it, a STOPPING one only while its own attempt
still arbitrates (R74); the bus is not read in LOOP_INTERNAL. -/
def rxSof (n : Nat) (s : State) : State :=
  let c := s.chan n
  let takes := c.rx.isNone && samples s n && rxMode s n != 3 && !ownsWire c
    && (c.state == .active || (c.state == .stopping && c.latch.isSome))
  if takes then rxOpen n false (sofStamp s n) s else s

/-! ## Formats (R39 to R41, R46, R63) -/

/-- Channel n receives frames of this format; another is a protocol exception, or an error with pex = 0. -/
def formatTaken (s : State) (n : Nat) (f : Frame) : Bool :=
  if reduced s n then f.fmt == .cc
  else match f.fmt with
    | .cc => true
    | .fd => modeBit s n 5 && !f.res
    | .xl => modeBit s n 6 && !f.ide
    | .trunk => trunkEn s n

/-- Classical CAN frames are received on the bus and discarded (cc_en = 0). -/
def ccDiscarded (s : State) (n : Nat) (f : Frame) : Bool := f.fmt == .cc && !modeBit s n 4 && !reduced s n

/-- The format number of a received frame: 3 in the identifier block (R164). -/
def rxFormat (x : RxFrame) (f : Frame) : Nat := if isBdp x.base f then 3 else busFormat f

/-- The payload of a received frame. -/
def rxBytes (x : RxFrame) (f : Frame) : List Byte := rxData f (rxFormat x f) (bdpFd f)

/-- The descriptor of a copy of a received frame (R130, R163). -/
def rxWords (n : Nat) (x : RxFrame) (f : Frame) (cls check element route : Nat) (w7 : Word) : List Word :=
  let fmt := rxFormat x f
  let fd := bdpFd f
  [packW [(0, 16, rxLength f fmt fd), (16, 4, check), (20, 4, cls), (24, 4, n), (28, 3, fmt), (31, 1, 1)],
   rxWord1 f, rxWord2 f fmt fd, rxWord3 f fmt, lo32 x.stamp, hi32 x.stamp,
   packW [(0, 14, element), (16, 10, route)], w7]

/-! ## The verdict (R127 to R134, R226, R239) -/

/-- What the destinations of a frame become: the state, the chains, the Tangent bindings, the number of route copies so
far, and the header of a cut-through copy. -/
structure Build where
  st     : State
  chains : List Chain
  binds  : List (Nat × Word)
  copies : Nat
  head   : List Word
deriving DecidableEq, Repr

/-- A copy of route r is in channel n's lanes or hold, or on its way into a lane. -/
def routeQueued (s : State) (n r : Nat) : Bool :=
  (List.range 4).any (fun k => match laneQueue s n k with
    | some q => (s.queue q).items.any fun i => fld (poolWord s (itemId i) 6) 16 10 == r
    | none => false)
  || (match holdOf s n with | some h => h.route == r | none => false)
  || ((s.chan n).staged ++ (s.chan n).commits).any (fun x => x.chains.any fun c => decide (c.dest = .route r))

/-- The conditions of R239 for a copy of route r with descriptor `ws`, of which R479 shuts out a copy to a channel asleep; `had`: an earlier copy of the frame is cut
through. -/
def cutThrough (s : State) (n r : Nat) (f : Frame) (ws : List Word) (had : Bool) : Bool :=
  let e := s.route r
  let m := (s.queue (rtQueue e)).txCh
  bitOf e.cfg 4 && trunkEn s m && (f.fmt == .xl || f.fmt == .trunk)
  && decide (datBits (s.chan m).xl ≤ datBits (s.chan n).xl)
  && !routeQueued s n r && (s.queue (rtQueue e)).items.isEmpty && !had
  && !e.bad && bitOf e.cfg 0 && (conversionFault e ws).isNone && !outAsleep s m && !rtEmpty e
  && allocOk s (rtQueue e) true && !forcedSafe s .chord

/-- A chain that has taken no cell yet. -/
def newChain (d : Dest) (element q cls : Nat) : Chain :=
  { dest := d, element := element, queue := q, cls := cls, cells := [], final := false, marked := false }

/-- A route destination: cut through, into lane k, or dropped for want of the lane (R226, R239). -/
def addRouteCopy (n r element : Nat) (x : RxFrame) (f : Frame) (b : Build) : Build :=
  let s := b.st
  let e := s.route r
  let ws := rxWords n x f (rtClass e) 0 element r 0
  let k := b.copies
  let b := { b with copies := k + 1 }
  if cutThrough s n r f ws (b.chains.any isCut) then
    { b with st := takeToken r s
             chains := b.chains ++ [newChain (.cut r) element (rtQueue e) (rtClass e)]
             head := rewrite r e ws }
  else match laneQueue s n k with
    | some q => { b with chains := b.chains ++ [newChain (.route r) element q (rtClass e)] }
    | none => { b with st := routeDrop r n 0x8 s }

/-- A binding takes word 0 of its context at the verdict; one to an UNCONFIGURED context updates nothing (R295). A double-bit
error in the word read fails the context (R317). -/
def addBind (c : Nat) (b : Build) : Build :=
  let x := b.st.ctx c
  if x.state == .unconfigured then b
  else { b with st := ctxCheck c [0] b.st, binds := b.binds ++ [(c, x.word 0)] }

/-- One destination of the frame. -/
def addDest (n : Nat) (x : RxFrame) (f : Frame) (b : Build) (d : Dest × Nat) : Build :=
  match d.1 with
  | .queue q cls =>
    if queueExists b.st q then { b with chains := b.chains ++ [newChain d.1 d.2 q cls] } else b
  | .route r => addRouteCopy n r d.2 x f b
  | .bind c => addBind c b
  | .cut _ => b

/-- The effects of a resolution: chains, bindings, the check unit, 0x28 LT_FANOUT_CUT. A unit that is not in RX mode
checks nothing (R329). -/
def placeFrame (n : Nat) (x : RxFrame) (f : Frame) (w : Walk) (r : Resolution) (s : State) : State :=
  let s := if r.cut then raise 0x28 n [] (bump n 0x30 s) else s
  let b := r.dests.foldl (addDest n x f) { st := s, chains := [], binds := [], copies := 0, head := [] }
  let check := match r.check with
    | some (u, cfd) => if ckMode (s.unit u).cfg = 1 then some (u, cfd) else none
    | none => none
  let cfg := match check with | some (u, _) => (s.unit u).cfg | none => 0#32
  let cfg2 := match check with | some (u, _) => (s.unit u).cfg2 | none => 0#32
  modRx n (fun (x : RxFrame) => { x with
    verdict := r.ended, chains := b.chains, binds := b.binds, gates := r.gates, owned := w.owned
    check := check, ckCfg := cfg, ckCfg2 := cfg2, ctHead := b.head }) b.st

/-- The handover whose record stands (R125, R126, R151, R152): a walk that stops at eight candidates raises 0x27. -/
def handover (n : Nat) (half : Bool) (ide : Bool) (ident : Nat) (rtr : Bool) (s : State) : State :=
  let w := walk s half n ide ident rtr
  let s := walkEcc w s
  if w.limit then raise 0x27 n [] (bump n 0x2C s) else s

/-- The handovers of a frame (R42), which come before its format is known: an extended frame's base identifier has been
walked before its whole one is. Of that walk, withdrawn, only the errors met in the table show (R126, R151; log entry 64). -/
def handovers (n : Nat) (x : RxFrame) (f : Frame) (s : State) : State :=
  let s := if f.ide then walkEcc (walk s x.half n false (f.ident.toNat / 2 ^ 18) true) s else s
  handover n x.half f.ide (identOf f) f.rtr s

/-- The walk on which the verdict of a frame rests. -/
def lastWalk (n : Nat) (x : RxFrame) (f : Frame) (s : State) : Walk := walk s x.half n f.ide (identOf f) f.rtr

/-- The verdict (R127 to R134); fmask is judged on the format that the bus shows (R124). -/
def verdictOf (n : Nat) (x : RxFrame) (f : Frame) (s : State) : State :=
  let w := lastWalk n x f s
  let r := resolve w x.half n x.chDef f (busFormat f) s
  placeFrame n x f w r.2 r.1

/-- A protocol exception (R42): the channel integrates, its counters unchanged. -/
def protocolException (n : Nat) (s : State) : State :=
  let s := abandonRx n (chEvent 0x1A n [] s)
  let s := s.modChan n fun c => { c with state := if c.state == .active then .integrating else c.state }
  wireFree n 3 (recheck n s)

/-- The frame has a data phase that the channel follows. -/
def fastFrame (s : State) (n : Nat) (f : Frame) : Bool :=
  formatTaken s n f && (f.fmt == .xl || f.fmt == .trunk || (f.fmt == .fd && f.brs))

/-- The format of the frame is known: a frame that Lattice serves gets its verdict; a frame with this device's own address
is owned and goes nowhere (R150), in the reduced service too (R15); of a Classical CAN frame with cc_en = 0 the owned match alone is kept (R40, R149). -/
def rxVerdict (n : Nat) (x : RxFrame) (f : Frame) (s : State) : State :=
  if !formatTaken s n f then s
  else if isBdp x.base f && bdpSender f.ident.toNat == devAddr s then
    modRx n (fun (x : RxFrame) => { x with owned := true, verdict := .delivered }) s
  else if reduced s n then s
  else if ccDiscarded s n f then
    modRx n (fun (x : RxFrame) => { x with owned := (lastWalk n x f s).owned }) s
  else verdictOf n x f s

/-- The frame in channel n's receive path has the header `f`, its handovers done. -/
def rxKnown (n : Nat) (x : RxFrame) (f : Frame) (s : State) : State :=
  if !formatTaken s n f && modeBit s n 7 then protocolException n s
  else
    let fast := fastFrame s n f
    let s := modRx n (fun (x : RxFrame) => { x with frame := some f }) (s.modChan n fun c => { c with dataPh := fast })
    drainCheck n (rxVerdict n x f s)

/-- The header of the frame in channel n's receive path is known, with the storage faults met on the way. A reaction of
the walk may have forced the channel safe, which has cut the frame. -/
def rxHeader (n : Nat) (f : Frame) (ups : List Upset) (s : State) : State :=
  match (s.chan n).rx with
  | none => s
  | some x =>
    if x.frame.isSome then s
    else
      let s := applyUpsets ups s
      let s := if reduced s n then s else handovers n x f s
      if (s.chan n).rx.isSome then rxKnown n x f s else s

/-! ## CRC (R99, R328) -/

/-- The CRC field is past: the check's result stands for the final write of cell 0, and a disagreement of the unit's engines
has shown (R335). The data phase is over. -/
def rxCrc (n : Nat) (fault : Bool) (s : State) : State :=
  match (s.chan n).rx with
  | none => s
  | some x =>
    match x.frame with
    | none => s
    | some f =>
      if x.crcDone then s
      else
        let data := rxBytes x f
        let bad := ckEngBad s fault
        let s := match x.check with | some (u, _) => ckFaultSeen u fault s | none => s
        let st := match x.check with
          | some (u, _) => (ckRun u x.ckCfg x.ckCfg2 n (identOf f) f.ide data bad true s).2
          | none => 0
        let s := modRx n (fun (x : RxFrame) => { x with
          crcDone := true, engBad := bad, result := st
          dataId := if x.check.isSome then ckDataId x.ckCfg x.ckCfg2 (identOf f) else 0
          seqNo := if x.check.isSome then (ckSeqByte x.ckCfg x.ckCfg2 data).toNat else 0 }) s
        s.modChan n fun c => { c with dataPh := false }

/-! ## Cells (R22, R99) -/

/-- Word 7 of a checked frame's descriptor. -/
def rxWord7 (x : RxFrame) : Word :=
  if x.check.isSome then packW [(0, 16, x.dataId), (16, 8, x.seqNo)] else 0#32

/-- The header of a cut-through copy, with the check's result once it is final (R330). -/
def cutHead (x : RxFrame) (fin : Bool) : List Word :=
  if fin && x.check.isSome then
    (x.ctHead.set 0 (putFld (wd x.ctHead 0) 16 4 x.result)).set 7 (rxWord7 x)
  else x.ctHead

/-- The bytes of cell k of a chain; `fin`: cell 0 with the final descriptor. -/
def chainBytes (n : Nat) (x : RxFrame) (f : Frame) (c : Chain) (k : Nat) (fin : Bool) : List Byte :=
  let ws := if isCut c then cutHead x fin
    else rxWords n x f c.cls (if fin then x.result else 0) c.element (chainRoute c) (if fin then rxWord7 x else 0)
  cellBytes ws (rxBytes x f) k

/-- What chain c still has to write, of `total` cells: the number of its next cell, `total` for the final cell 0. A
one-cell frame waits for its CRC field, except as a cut-through copy. -/
def chainNeeds (x : RxFrame) (total : Nat) (c : Chain) : Option Nat :=
  if c.cells.length < total then
    (if total = 1 ∧ !x.crcDone ∧ !isCut c then none else some c.cells.length)
  else if !c.final && x.crcDone then some total
  else none

/-- The next write of a frame: cell by cell across the chains in frame order (R22, R99): chain and cell. -/
def nextWrite (x : RxFrame) (total : Nat) : Nat → List Chain → Option (Nat × Nat)
  | _, [] => none
  | i, c :: t =>
    match chainNeeds x total c, nextWrite x total (i + 1) t with
    | some k, some (j, m) => if m < k then some (j, m) else some (i, k)
    | some k, none => some (i, k)
    | none, r => r

/-- The cells of a frame. -/
def rxTotal (x : RxFrame) : Nat := match x.frame with | some f => cellsFor (rxBytes x f).length | none => 0

/-- Every cell of every chain has been written (R99). -/
def rxWritten (x : RxFrame) : Bool := x.chains.all fun c => c.final && c.cells.length == rxTotal x

/-- A cut-through copy that is listed or taken grows by a cell (R240). -/
def extendCut (q c0 cell : Nat) (s : State) : State :=
  let grow := fun (cs : List Nat) => if cs.headD 65536 = c0 then cs ++ [cell] else cs
  let m := (s.queue q).txCh
  let s := s.modQueue q fun u => { u with items := u.items.map fun (i : Item) => { i with cells := grow i.cells } }
  s.modChan m fun c => { c with taken := mmap (fun (t : Taken) => { t with cells := grow t.cells }) c.taken }

/-- Frame x of channel n with chain i replaced. -/
def setChain (x : RxFrame) (i : Nat) (c : Chain) : RxFrame := { x with chains := x.chains.set i c }

/-- The next cell of frame x is written, in cell `pick` of the free cells; a refused allocation is back-pressure
(R176). -/
def writeNext (n : Nat) (x : RxFrame) (pick : Nat) (s : State) : State × RxFrame :=
  match x.frame, nextWrite x (rxTotal x) 0 x.chains with
  | some f, some (i, k) =>
    match x.chains[i]? with
    | some c =>
      if k = rxTotal x then
        (writeCell (c.cells.headD 0) (chainBytes n x f c 0 true) s, setChain x i { c with final := true })
      else if allocOk s c.queue (k == 0) then
        let cell := freeCell s pick
        let one := k == 0 && (rxTotal x == 1 || isCut c)
        let s := writeCell cell (chainBytes n x f c k (one && (!isCut c || x.valid))) (charge cell c.queue (relinkLast c.cells s))
        let s := if isCut c && x.ctSeq.isSome then extendCut c.queue (c.cells.headD 0) cell s else s
        (s, setChain x i { c with cells := c.cells ++ [cell], final := c.final || one })
      else (refuse c.queue (refusedByMax s c.queue (k == 0)) s, x)
    | none => (s, x)
  | _, _ => (s, x)

/-! ## Frames that fail (R241) -/

/-- The frame in channel n's receive path ends without being delivered. -/
def rxFail (n : Nat) (x : RxFrame) (s : State) : State :=
  let s := s.modChan n fun c => { c with rx := none, dataPh := false }
  ckFinished n (drainCheck n (dropFrame n x s))

/-- The channel integrates after a frame (R67, R70). -/
def integrateAgain (n : Nat) (s : State) : State :=
  recheck n (s.modChan n fun c => { c with state := if c.state == .active then .integrating else c.state })

/-! ## Frame valid (R50) -/

/-- The counters of a verdict (R160). -/
def countVerdict (n : Nat) (v : Verdict) (s : State) : State :=
  match v with
  | .nomatch => bump n 0x20 s
  | .dropped => bump n 0x24 s
  | .uncorrectable => bump n 0x24 s
  | _ => s

/-- The check unit's run at frame valid (R328): the state, the frame with its result, and whether it is dropped under
cfd (R131). Cells 0 already written take the result. -/
def rxCheck (n : Nat) (x : RxFrame) (f : Frame) (s : State) : State × RxFrame × Bool :=
  match x.check with
  | none => (s, x, false)
  | some (u, cfd) =>
    let t := if x.engBad then s else ckFaultSeen u false s
    let r := ckRun u x.ckCfg x.ckCfg2 n (identOf f) f.ide (rxBytes x f) (ckEngBad s x.engBad) true t
    let x := { x with result := r.2 }
    let s := x.chains.foldl (fun s c =>
      if c.final && (!isCut c || cutLive s c || x.ctSeq.isNone) then writeCell (c.cells.headD 0) (chainBytes n x f c 0 true) s else s) r.1
    (s, x, cfd && r.2 != ckPass)

/-- The frame goes on to its commit, to a staging slot, or is dropped for want of one (R99, R100). A frame that goes to contexts alone
has no cells and needs no slot (DESIGN CHOICE, log entry 166). -/
def rxStage (n : Nat) (x : RxFrame) (s : State) : State :=
  if x.chains.isEmpty && x.binds.isEmpty then s
  else if rxWritten x then s.modChan n fun c => { c with commits := c.commits ++ [x] }
  else if (s.chan n).staged.length < 2 then s.modChan n fun c => { c with staged := c.staged ++ [x] }
  else dropFrame n x (chEvent 0x17 n [] (bump n 0x14 s))

/-- A frame with an owned match is reported, unless it is the channel's own or the duplex role is STANDBY (R149). -/
def ownedSeen (n : Nat) (x : RxFrame) (f : Frame) (s : State) : State :=
  if x.owned && !x.own && !isStandby s then reportOwned n f.ide (identOf f) s else s

/-- The inbound frame of a cut-through copy is valid: a copy withheld since an underrun competes again (R242). -/
def cutValid (x : RxFrame) (s : State) : State :=
  match ctChain x with
  | some c => recheck (s.queue c.queue).txCh s
  | none => s

/-- The planner measures a frame received to its end, one that is then discarded too (R460); not the channel's own. -/
def rxMeasure (n : Nat) (x : RxFrame) (edges : List Edge) (s : State) : State :=
  match x.frame with
  | some f => if x.own then s else measureRx n f (isBdp x.base f) edges s
  | none => s

/-- A frame valid in service: gates, owned report, counters, check, BDP, comparison, measurement, staging. The counters of the verdict
count a frame here and not one that fails before (DESIGN CHOICE, log entry 168). -/
def rxServed (n : Nat) (x : RxFrame) (f : Frame) (edges : List Edge) (s : State) : State :=
  let s := x.gates.foldl (fun s u => gateAtValid n u s) s
  let s := ownedSeen n x f s
  let s := countVerdict n x.verdict s
  let r := rxCheck n x f s
  let x := { r.2.1 with valid := true }
  let s := if r.2.2 then dropFrame n x (bump n 0x28 r.1) else r.1
  let bdp := isBdp x.base f
  let s := if bdp then bdpReceived n x.stamp f.ident.toNat f.data s else s
  let s := rxMeasure n x edges (if x.own then s else observeFrame n f s)
  if r.2.2 then s else rxStage n x s

/-- The frame in channel n's receive path is valid. -/
def rxValid (n : Nat) (x : RxFrame) (f : Frame) (edges : List Edge) (s : State) : State :=
  let s := pwFrameValid n (s.modChan n fun c => { c with rx := none, dataPh := false })
  let s := if x.own then s else rxGood n s
  let s := if ccDiscarded s n f then rxMeasure n x edges (ownedSeen n x f s)
    else if reduced s n then reducedValid n x.stamp f (ownedSeen n x f s)
    else rxServed n x f edges s
  ckFinished n (cutValid x s)

/-- A mismatch in the receive path or a staging slot (R101, R116). -/
def rxParity (n : Nat) (s : State) : State := vxAssert 24 (w32 n) (bump n 0x18 s)

/-- An error ends the frame (R70, R80); in a CAN XL data phase with error signalling off, without a flag (R61). -/
def rxErrorEnd (n : Nat) (x : RxFrame) (e : ErrInfo) (s : State) : State :=
  let silent := match x.frame with | some f => errSilent s n f.fmt | none => false
  let s := rxFail n x (if silent then s else rxError n e s)
  if rxMode s n = 1 then integrateAgain n s else s

/-- The end of the frame in channel n's receive path. -/
def rxEnd (n : Nat) (e : RxEnd) (edges : List Edge) (s : State) : State :=
  match (s.chan n).rx with
  | none => s
  | some x =>
    match e with
    | .valid =>
      match x.frame with
      | none => s
      | some f =>
        if formatTaken s n f then
          let s := rxCrc n false s
          wireFree n (if x.own then 1 else 2) (match (s.chan n).rx with | some x => rxValid n x f edges s | none => s)
        else wireFree n 3 (rxErrorEnd n x { dominantAfterFlag := false, flagBitErrors := 0, dominantRuns := 0 } s)
    | .error i => wireFree n 3 (rxErrorEnd n x i s)
    | .nack _ =>
      let s := rxFail n x (rxNack n s)
      wireFree n 3 (if rxMode s n = 1 then integrateAgain n s else s)
    | .trunkAbort => wireFree n 3 (integrateAgain n (rxFail n x (chEvent 0x1B n [] (bump n 0x1C s))))
    | .parity => wireFree n 3 (rxFail n x (rxParity n (rxMeasure n x edges (rxGood n s))))

/-- One part of a received frame. -/
def rxPart (n : Nat) (p : RxPart) (s : State) : State :=
  match p with
  | .sof => rxSof n s
  | .header f ups => rxHeader n f ups s
  | .crc bad => rxCrc n bad s
  | .finish e edges => rxEnd n e edges s
  | .whole f ups bad e edges =>
    if (s.chan n).rx.isSome then s
    else rxEnd n e edges (rxCrc n bad (rxHeader n f ups (rxSof n s)))
  | .overload e => overloadFlag n false e s

/-- RX_FRAME (R50): a frame on channel ch's bus, `waited` core cycles after the previous command. -/
def execRxFrame (ch : Fin 16) (waited : Nat) (p : RxPart) (s : State) : Host.Outcome State Fault Refusal :=
  let s := passCycles waited s
  .next (noteReasons s (returnsDue ch.val (rxPart ch.val p s)))

/-! ## Writes and commit (R28, R35, R36) -/

/-- The frame whose cells channel n writes now: the oldest staged one, or the one on the wire (R99). -/
def writing (s : State) (n : Nat) : Option (Bool × RxFrame) :=
  match (s.chan n).staged with
  | x :: _ => some (true, x)
  | [] => (s.chan n).rx.map fun x => (false, x)

/-- A cell write of channel n's receive path waits for the channel's slots, and its allocation would be granted (R30, R172). -/
def rxWriteDue (s : State) (n : Nat) : Bool :=
  match writing s n with
  | none => false
  | some (_, x) =>
    match nextWrite x (rxTotal x) 0 x.chains with
    | none => false
    | some (i, k) => x.frame.isSome && (k == rxTotal x || allocOk s (x.chains[i]?.elim 256 (·.queue)) (k == 0))

/-- The frame being written is discarded. -/
def dropWriting (n : Nat) (s : State) : State :=
  match writing s n with
  | some (true, x) => dropFrame n x (s.modChan n fun c => { c with staged := c.staged.drop 1 })
  | some (false, x) => wireFree n 3 (rxFail n x s)
  | none => s

/-- The cut-through chains whose committed item has ended by other means are written no further. -/
def cutTidy (s : State) : State :=
  let tidy := fun (x : RxFrame) =>
    if x.ctSeq.isSome then { x with chains := x.chains.filter fun c => !isCut c || cutLive s c } else x
  { s with chans := mmap (fun (c : Chan) => { c with rx := c.rx.map tidy, staged := c.staged.map tidy }) s.chans }

/-- The channel's slot writes one cell. -/
def cellWrite (n pick : Nat) (s : State) : State :=
  match writing s n with
  | some (true, _) =>
    match (s.chan n).staged with
    | x :: _ =>
      let r := writeNext n x pick s
      if rxWritten r.2 then
        r.1.modChan n fun c => { c with staged := c.staged.drop 1, commits := c.commits ++ [r.2] }
      else r.1.modChan n fun c => { c with staged := r.2 :: c.staged.drop 1 }
    | [] => s
  | some (false, x) =>
    let r := writeNext n x pick s
    modRx n (fun _ => r.2) r.1
  | none => s

/-- STAGED_CELL_WRITE (R99), in a slot that the fetch of a winning head leaves free (R30): a transfer with a parity mismatch is discarded and asserts source 22 (R35), a mismatch read
from staging discards the frame (R101). -/
def execStagedCellWrite (ch : Fin 16) (pick : Fin 65536) (fault : SlotFault) (s : State) :
    Host.Outcome State Fault Refusal :=
  let n := ch.val
  .next (
    if !s.pw.awake || (writing s n).isNone || (headAwaits s n).isSome then s
    else match fault with
      | .transfer second => dropWriting n (wheelFault (chanSlot n second) false s)
      | .staging => dropWriting n (rxParity n s)
      | .none => cellWrite n pick.val (cutTidy s))

/-- One chain becomes visible at its destination (R36), or reaches its boundary marked (R187). -/
def commitChain (x : RxFrame) (seq : Nat) (s : State) (c : Chain) : State :=
  if isCut c && x.ctSeq.isSome then s
  else if c.marked then discardMarked c.queue c.cells s
  else
    let s := if isCut c then rtCount (chainRoute c) 2 s else s
    commitAt c.queue { cls := c.cls, cells := c.cells, seq := seq } s

/-- A bound frame reaches context c, whose counters and age are read to be counted on (R295 to R297, R317). -/
def bindFrame (n c : Nat) (w0 : Word) (data : List Byte) (pass : Bool) (s : State) : State :=
  bindUpdate n c w0 data pass (ctxCheck c (if bindTakes w0 data pass then [26, 30] else [30]) s)

/-- The frame becomes visible at every destination: its copies share one commit record (R29, R229), its bindings are
latched (R296). -/
def commitFrame (n : Nat) (x : RxFrame) (s : State) : State :=
  let seq := s.pool.nextSeq
  let s := x.chains.foldl (commitChain x seq) (nextSeq s)
  match x.frame with
  | some f => x.binds.foldl (fun s b => bindFrame n b.1 b.2 (rxBytes x f) (x.result == ckPass) s) s
  | none => s

/-- RX_COMMIT (R36): the commit record of channel ch's oldest complete frame. A record with a parity mismatch is
discarded with its frame (R35). -/
def execRxCommit (ch : Fin 16) (fault : SlotFault) (s : State) : Host.Outcome State Fault Refusal :=
  let n := ch.val
  .next (
    match (s.chan n).commits with
    | [] => s
    | x :: rest =>
      if !s.pw.awake then s
      else
        let t := s.modChan n fun c => { c with commits := rest }
        returnsDue n (match fault with
        | .transfer second => dropRecord n x (wheelFault (chanSlot n second) true t)
        | _ => noteReasons s (commitFrame n x t)))

end Sys2Proof.Machine
end

