-- ==== Sys2Proof/Machine/Transmit.lean ====
section
/-!
DEFINITION. The transmit path (chapter 7): host submissions, prime loads, cancels, the fetch of the picker's head, and
attempts on the wire.
-/
namespace Sys2Proof.Machine

/-! ## Items from host memory (R222, R567) -/

/-- The longest payload an item in host memory can bring. -/
def itemBytes (w : List Word) : Nat := Nat.min 2048 (dBytes (wd w 0) (wd w 1) (wd w 2))

/-- The length of the item at a staging offset. -/
def stgItem (s : State) (lo : Word) : Nat := 32 + itemBytes (wordsOf (stgRead s lo.toNat 32) 8)

/-- The item can be read: over the serial port it lies in staging. -/
def itemOk (s : State) (r : Nat) (lo hi : Word) : Bool :=
  !ringSerial s r || (stgOk s lo hi 32 && stgOk s lo hi (stgItem s lo))

/-- An item is read from host memory: over the serial port it lies in staging, or the address is refused. -/
def itemIn (r : Nat) (lo hi : Word) (k : List Byte → State → State) (s : State) : State :=
  if !itemOk s r lo hi then complete r eParam 0 0 s
  else if ringSerial s r then k (stgRead s lo.toNat (stgItem s lo)) s
  else s.modCmd r fun c => { c with dma := true }

/-- The queue checks of 0x40 TX_SUBMIT: the status, or 0. -/
def submitQueue (s : State) (q : Nat) : Nat :=
  if (s.queue q).state = .none then eNotFound
  else if (s.queue q).consumer ≠ 5 ∨ (s.queue q).state = .broken then eState else 0

/-- What 0x40 TX_SUBMIT checks beside the item: under LEGACY the checks that come after the limit in the item (R506), then the
queue. -/
def submitCheck (s : State) (ws : List Word) : Nat :=
  match (if s.boot.profile then laterCheck s ws else none) with
  | some e => e.1
  | none => submitQueue s (fld (wd ws 1) 0 8)

/-- The item of a TX_SUBMIT has arrived: LEGACY's limit, the checks of the queue and of the descriptor, then the submission waits for its commit. Its words are
stored as sent, bits that R163 reserves included, but for the valid bit (DESIGN CHOICE, log entry 53). -/
def submitData (r : Nat) (data : List Byte) (s : State) : State :=
  let q := fld (pkt s r 1) 0 8
  let w := wordsOf data 8
  let s := s.modCmd r fun c => { c with dma := false }
  let it : TxItem := { words := w, data := (data.drop 32).take (itemBytes w) }
  let st := submitCheck s ((s.cr r).cmd.elim [] (·.words))
  if s.boot.profile && itStamp it then complete r eProfile 0 0x0B#32 s
  else if st ≠ 0 then complete r st 0 0 s
  else if 3 < dFormat (wd w 0) ∨ lengthBad (wd w 0) (wd w 1) (wd w 2) ∨ (itStamp it ∧ dFormat (wd w 0) ≠ 2) then
    complete r eParam 0 0 s
  else
    let w0 := putFld (wd w 0) 31 1 1
    s.modCmd r fun c => { c with
      sub := some { queue := q, cls := dClass (wd w 0), words := w.set 0 w0, data := it.data, cells := []
                    waited := false, marked := false, arr := s.pool.nextSeq } }

/-- 0x40 TX_SUBMIT: under LEGACY an item that can be read is read before any other check (R480). -/
def txSubmitBody (r : Nat) (ws : List Word) (s : State) : State :=
  let st := submitCheck s ws
  if st ≠ 0 && !(s.boot.profile && itemOk s r (wd ws 2) (wd ws 3)) then complete r st 0 0 s else itemIn r (wd ws 2) (wd ws 3) (submitData r) s

/-- TX_SUBMIT. -/
def execTxSubmit (r : Fin 4) (s : State) : Host.Outcome State Fault Refusal :=
  .next (beginOp r.val 0x40 (txSubmitBody r.val) s)

/-- Cells of a submission are allocated and written until none is missing or one is refused (R176, R177); `fuel` bounds
them. A refused one tries again behind the requests that have arisen meanwhile: R31 and R33 do not say whether it keeps its place
(DESIGN CHOICE, log entry 155). -/
def fillSub (pick : Nat) : Nat → Submission → State → State × Submission × Bool
  | 0, b, s => (s, b, true)
  | fuel + 1, b, s =>
    if cellsFor b.data.length ≤ b.cells.length then (s, b, true)
    else if allocOk s b.queue b.cells.isEmpty then
      let c := freeCell s pick
      let s := writeCell c (cellBytes b.words b.data b.cells.length) (charge c b.queue (relinkLast b.cells s))
      fillSub pick fuel { b with cells := b.cells ++ [c] } s
    else
      let s := nextSeq (refuse b.queue (refusedByMax s b.queue b.cells.isEmpty) s)
      (s, { b with waited := true, arr := s.pool.nextSeq }, false)

/-- The host DMA slots serve ring r's submission. -/
def submitCells (r pick : Nat) (b : Submission) (s : State) : State :=
  let x := fillSub pick 36 b s
  let b := x.2.1
  let s := x.1.modCmd r fun c => { c with sub := some b }
  if !x.2.2 then s
  else
    let s := s.modCmd r fun c => { c with sub := none }
    let n := w32 b.cells.length
    if b.marked then complete r eState n 1 (discardMarked b.queue b.cells s)
    else complete r stOk n 0 (commitItem b.queue b.cls b.cells s)

/-- HOST_ITEM_COMMIT (R33, R177, R190), when it is the submission's turn: the item of ring r's submission takes the cells it still needs and is committed; an
item that a flush has marked is discarded instead. -/
def execHostItemCommit (r : Fin 4) (pick : Fin 65536) (s : State) : Host.Outcome State Fault Refusal :=
  .next (
    match (s.cr r.val).cmd with
    | some c =>
      match c.sub with
      | some b =>
        if !s.pw.awake || c.comp.isSome || !hostFirst s (subKey c b) then s
        else inSlot .hostDma (submitCells r.val pick.val b) s
      | none => s
    | none => s)

/-- BP_TIMEOUT (R177, R203): bp_tmo_ms after its first refusal a submission ends. -/
def execBpTimeout (r : Fin 4) (s : State) : Host.Outcome State Fault Refusal :=
  .next (
    match (s.cr r.val).cmd with
    | some c =>
      match c.sub with
      | some b =>
        if b.waited && s.pool.bpTmo != 0 && c.comp.isNone then
          let s := raise 0x36 b.queue [(8, b.queue)] (dropSub r.val s)
          complete r.val eTimeout 0 0 s
        else s
      | none => s
    | none => s)

/-! ## 0x42 TX_PRIME (R207, R567) -/

/-- The item of a TX_PRIME has arrived. -/
def primeData (r : Nat) (data : List Byte) (s : State) : State :=
  let n := fld (pkt s r 1) 0 4
  let b := fld (pkt s r 1) 4 2
  let ctl := pkt s r 4 &&& 0xFFFF0007#32
  let w := (wordsOf data 8).set 6 ctl
  let s := s.modCmd r fun c => { c with dma := false }
  let it : TxItem := { words := w, data := (data.drop 32).take (itemBytes w) }
  if (primeOf s n b).armed then complete r eBusy 0 0 s
  else if armRefused it then complete r eParam 0 0 s
  else
    let s := modPrime n b (fun p => { p with
      desc := (List.range 4).map fun k => (k, wd w k)
      data := (List.range 16).map fun k => (k, wordAt it.data (4 * k))
      ctl := ctl }) s
    let s := armPrime n b s
    complete r stOk (txpStat s n b) 0 s

/-- 0x42 TX_PRIME. -/
def txPrimeBody (r : Nat) (ws : List Word) (s : State) : State :=
  let n := fld (wd ws 1) 0 4
  let b := fld (wd ws 1) 4 2
  if b = 3 then complete r eParam 0 0 s
  else if (primeOf s n b).armed then complete r eBusy 0 0 s
  else itemIn r (wd ws 2) (wd ws 3) (primeData r) s

/-- TX_PRIME. -/
def execTxPrime (r : Fin 4) (s : State) : Host.Outcome State Fault Refusal :=
  .next (beginOp r.val 0x42 (txPrimeBody r.val) s)

/-! ## 0x41 TX_CANCEL (R97, R216, R217) -/

/-- A cancel reaches the latched attempt. -/
def cancelLatched (n r : Nat) (s : State) : State :=
  s.modChan n fun c => { c with latch := c.latch.map fun (l : Latched) => { l with
    cancel := if l.cancel == .none then (if l.deadline then .late else .early) else l.cancel
    rings := l.rings ++ [r] } }

/-- 0x41 TX_CANCEL. -/
def txCancelBody (r : Nat) (ws : List Word) (s : State) : State :=
  let n := fld (wd ws 1) 0 4
  let src := fld (wd ws 1) 4 5
  if 18 < src then complete r eParam 0 0 s
  else match candOf s n src with
    | none => complete r eNotFound 0 0 s
    | some i =>
      if !bitOf (wd ws 2) 16 && itTag i != fld (wd ws 2) 0 16 then complete r eNotFound 0 0 s
      else if (match (s.chan n).latch with | some l => l.source == src | none => false) then cancelLatched n r s
      else
        let s := endItem n src 2 i s
        let s := s.modChan n fun c => { c with dupStat := c.dupStat &&& ~~~(w32 (2 ^ src)) }
        complete r stOk (packW [(0, 3, 2), (16, 16, itTag i)]) 0 (recheck n s)

/-- TX_CANCEL. -/
def execTxCancel (r : Fin 4) (s : State) : Host.Outcome State Fault Refusal :=
  .next (beginOp r.val 0x41 (txCancelBody r.val) s)

/-! ## TX_HEAD_FETCH (R28, R35, R37) -/

/-- The picker's winning head has its cell 0 fetched and becomes the loaded frame. -/
def headFetch (n : Nat) (s : State) : State :=
  if s.pw.awake then
    match headAwaits s n with
    | some w =>
      let t := if (s.chan n).taken.any fun e => e.1 == w - 3 then s else linkRead (candCell s n w) s
      if winner t n = some w then loadWinner n w t else recheck n t
    | none => s
  else s

/-- TX_HEAD_FETCH: a transfer with a parity mismatch is discarded (R35). -/
def execTxHeadFetch (ch : Fin 16) (fault : SlotFault) (s : State) : Host.Outcome State Fault Refusal :=
  .next (
    match fault with
    | .transfer second => if s.pw.awake then wheelFault (chanSlot ch.val second) false s else s
    | _ => headFetch ch.val s)

/-! ## Frames on the wire -/

/-- An item's format on channel n's bus (R63). -/
def wireFmt (s : State) (n : Nat) (i : TxItem) : BusFmt :=
  if trunkEn s n then .trunk
  else match dFormat (wd i.words 0) with
    | 0 => .cc
    | 1 => .fd
    | 2 => .xl
    | _ => if bitOf (wd i.words 2) 19 then .fd else .cc

/-- The frame has a data phase (R55). -/
def hasDataPhase (fmt : BusFmt) (i : TxItem) : Bool :=
  match fmt with
  | .cc => false
  | .fd => bitOf (wd i.words 2) 17
  | _ => true

/-- The data length code, or TLEN, of a frame of `n` bytes (R44, R65). -/
def wireDlc (fmt : BusFmt) (n : Nat) : Nat :=
  match fmt with
  | .fd => fdLengths.idxOf n
  | .xl => n - 1
  | _ => n

/-- The frame that channel n sends for an item (R44, R46 to R48, R63, R65), with its acceptance field and payload. -/
def wireFrame (s : State) (n : Nat) (i : TxItem) (af : Word) (data : List Byte) : Frame :=
  let w0 := wd i.words 0
  let w1 := wd i.words 1
  let w2 := wd i.words 2
  let fmt := wireFmt s n i
  let inner := dFormat w0
  let remote := dRemote w0 w1 w2
  let ide := bitOf w1 31 && inner != 2
  let fdInner := inner == 1 || (inner == 3 && bitOf w2 19 && fmt != .trunk)
  let len := if remote then dLength w0 else if fmt = .fd then fdPadded data.length else data.length
  { fmt := fmt, tfmt := ⟨inner % 4, by omega⟩, ide := ide
    ident := BitVec.ofNat 29 (if ide then fld w1 0 29 else fld w1 0 11)
    rtr := (inner == 0 || (inner == 3 && !bitOf w2 19)) && bitOf w1 30
    res := false, brs := fdInner && bitOf w2 17
    esi := (fmt == .fd || fmt == .trunk) && (bitOf w2 18 || errPassive (s.chan n))
    sec := inner == 2 && bitOf w2 16
    sdt := if inner = 2 then BitVec.ofNat 8 (fld w2 0 8) else 0#8
    vcid := if inner = 2 then BitVec.ofNat 8 (fld w2 8 8) else 0#8
    af := if inner = 2 then af else 0#32
    dlc := wireDlc fmt len
    data := if remote then [] else (List.range len).map (byteAt data) }

/-- The acceptance field in force (R219). -/
def stampedAf (s : State) (i : TxItem) : Word :=
  if itStamp i then packW [(16, 16, s.dx.claim), (4, 12, devAddr s / 2 * 2)] else wd i.words 3

/-! ## The latch (R211, R212, R255, R332) -/

/-- The channel that still receives the frame whose cut-through copy has cell 0 `c0`. -/
def cutSource (s : State) (c0 : Nat) : Option Nat :=
  (s.chans.find? fun e => (e.2.rx.toList ++ e.2.staged).any fun x =>
    x.chains.any fun c => isCut c && c.cells.headD 65536 == c0).map (·.1)

/-- The loaded source's item is taken from its queue at its first latch (R212): the state, and whether it was taken
now. -/
def takeLoaded (n src : Nat) (s : State) : State × Bool :=
  if src < 3 ∨ ((s.chan n).taken.any fun e => e.1 == src - 3) then (s, false)
  else match attached s n (src - 3) with
    | none => (s, false)
    | some q =>
      let x := takeHead q s
      match x.2 with
      | some i =>
        (x.1.modChan n fun c => { c with
          taken := mset c.taken (src - 3) { queue := q, cls := i.cls, cells := i.cells, flushed := false } }, true)
      | none => (x.1, false)

/-- The engine latches its loaded frame: at its own SOF, or (`joined`) at another node's. -/
def txLatch (n : Nat) (joined : Bool) (s : State) : State :=
  if !(maySend s n && s.pw.awake && (s.chan n).latch.isNone && (s.chan n).rx.isSome == joined) then s
  else match (s.chan n).loaded with
    | none => s
    | some src =>
     if !isLoaded s n src then recheck n s
     else
      let x := takeLoaded n src s
      let s := x.1
      match candOf s n src with
      | none => recheck n s
      | some i =>
        let cells := match (s.chan n).taken.find? fun e => e.1 + 3 == src with | some e => e.2.cells | none => []
        let q := match (s.chan n).taken.find? fun e => e.1 + 3 == src with | some e => e.2.queue | none => 256
        let l : Latched := {
          source := src, item := i, af := stampedAf s i, deadline := false, aborting := false, cancel := .none
          rings := [], retry := true, stamp := sofStamp s n
          ctFrom := cutSource s (cells.headD 65537), check := ckTxUnit s q, engBad := false, sent := [] }
        dupStart n src x.2 (s.modChan n fun c => { c with latch := some l })

/-! ## Deadline and header -/

/-- The cancel deadline passes (R216, R218): the channel has won, and what it had begun to receive was its own frame; an
early cancel finds it still transmitter, and the abort flag begins, an error flag started as transmitter (R116). -/
def txDeadline (n : Nat) (s : State) : State :=
  match (s.chan n).latch with
  | some l =>
    if l.deadline then s
    else
      let abort := l.cancel == .early
      let s := (abandonRx n s).modChan n fun c => { c with
        latch := c.latch.map fun (l : Latched) => { l with deadline := true, aborting := abort } }
      let s := if abort then bump n 0x00 s else s
      if abort && opMode s n != 3 then s.emit (.busFlag n) else s
  | none => s

/-- The TDC register of a frame's format. -/
def tdcOf (c : Chan) (fd : Bool) : Word := if fd then c.tdcFd else c.tdcXl

/-- The measured loop delay: 127 where no edge was found, one that the filter ignores counting as none (R56, R57). -/
def loopDelay (w : Word) (delay : Option Nat) : Nat :=
  match delay with
  | some d => if fld w 16 8 ≤ d ∧ d ≤ 127 then d else 127
  | none => 127

/-- An edge was found for the loop delay (R57). -/
def edgeFound (w : Word) (delay : Option Nat) : Bool :=
  match delay with | some d => decide (fld w 16 8 ≤ d ∧ d ≤ 127) | none => false

/-- The loop delay of a frame with a data phase is measured (R56, R57); without compensation no event is raised (R58). -/
def measureLoop (n : Nat) (fd : Bool) (delay : Option Nat) (s : State) : State :=
  let w := tdcOf (s.chan n) fd
  let meas := loopDelay w delay
  let sat := !edgeFound w delay || decide (255 < meas + fld w 8 8)
  let w := putFld w 24 7 meas
  let w := if sat then putFld w 31 1 1 else w
  let s := s.modChan n fun c => if fd then { c with tdcFd := w } else { c with tdcXl := w }
  let s := s.modChan n fun c => { c with latch := c.latch.map fun (l : Latched) => { l with delay := some meas } }
  if sat && bitOf w 0 then chEvent 0x18 n [] s else s

/-- Without compensation, data-phase bits are checked at the ordinary sample point: a loop delay beyond it makes the frame
fail (R58); where no edge comes within 127 periods, the delay is longer than those. The internal loop has no delay (R71). -/
def beyondSample (s : State) (n : Nat) (fd : Bool) (delay : Option Nat) : Bool :=
  let c := s.chan n
  let w := if fd then c.dat else c.xl
  let point := (fld w 0 5 + 1) * (1 + (fld w 8 7 + 1))
  !bitOf (tdcOf c fd) 0 && opMode s n != 3 && decide (point < delay.getD 128)

/-- The payload that the attempt sends is fixed (R332), and the loop delay measured. -/
def fixPayload (n : Nat) (delay : Option Nat) (fault : Bool) (l : Latched) (s : State) : State :=
  let g := match l.check with
    | some (u, cfg, cfg2) => ckGenerate u cfg cfg2 l.item fault s
    | none => (s, l.item.data)
  let fmt := wireFmt s n l.item
  let phase := hasDataPhase fmt l.item
  let s := g.1.modChan n fun c => { c with
    dataPh := phase
    latch := c.latch.map fun (l : Latched) => { l with
      sent := g.2, engBad := ckEngBad s fault, mistimed := phase && beyondSample s n (fmt == .fd) delay } }
  if phase && opMode s n != 3 then measureLoop n (fmt == .fd) delay s else s

/-- The cells of the latched item, when it was taken from a queue. -/
def sentCells (s : State) (n : Nat) (l : Latched) : List Nat :=
  match (s.chan n).taken.find? fun e => e.1 + 3 == l.source with
  | some e => e.2.cells
  | none => []

/-- The attempt has payload cells to read, and the channel's slots serve a head fetch or a receive cell write before them (R30). -/
def payloadWaits (s : State) (n : Nat) : Bool :=
  match (s.chan n).latch with
  | some l => decide (1 < (sentCells s n l).length) && ((headAwaits s n).isSome || rxWriteDue s n)
  | none => false

/-- The frame's header is on the wire; further cells are read in the channel's slots, when nothing that ranks before waits for them
(R30, R35). -/
def txHeader (n : Nat) (delay : Option Nat) (fault : Bool) (s : State) : State :=
  match (s.chan n).latch with
  | none => s
  | some l =>
    if l.aborting || !l.deadline || payloadWaits s n then s
    else if 1 < (sentCells s n l).length then inSlot (.channel n) (fixPayload n delay fault l) s
    else fixPayload n delay fault l s

/-- The data phase of the attempt is over (R65, R77). -/
def txDataEnd (n : Nat) (s : State) : State :=
  if (s.chan n).latch.isSome then s.modChan n fun c => { c with dataPh := false } else s

/-! ## Ends (R80, R95, R214 to R218, R242) -/

/-- A BDP item of this device has ended SENT (R260, R280, R289, R429); nothing follows from one that was withdrawn on the
wire. -/
def bdpSent (n c0 : Nat) (stamp : DWord) (s : State) : State :=
  match s.bdp.own.find? fun o => o.cell == c0 with
  | none => s
  | some o =>
    let s := bump n 0x5C s
    if 16 ≤ o.aux then s
    else if o.kind = kSync then (if syncSends s n then followUpDue n o.aux stamp s else s)
    else if o.kind = kPrepare ∨ o.kind = kCommit then ballotSent n o.kind o.word s
    else if o.kind = kKeepAwake then keepAwakeSent n o.word s
    else s

/-- The channel receives its own frame in a loopback mode (R51, R71). -/
def loopBack (n : Nat) (stamp : DWord) (f : Frame) (s : State) : State :=
  if opMode s n = 3 ∨ opMode s n = 4 then
    rxEnd n .valid [] (rxCrc n false (rxHeader n f [] (rxOpen n true stamp s)))
  else s

/-- The payload of the attempt: what the header fixed, or for a cut-through copy what the pool holds by now, with the check
field of a unit in TX mode (R329, R332). -/
def sentBytes (s : State) (n : Nat) (l : Latched) : List Byte :=
  if l.ctFrom.isSome then
    let i := readItem s (sentCells s n l)
    match l.check with
    | some (u, cfg, cfg2) => (ckGenerate u cfg cfg2 i l.engBad s).2
    | none => i.data
  else if l.sent.isEmpty then l.item.data else l.sent

/-- The attempt has reached the transmitter's frame valid. -/
def txSent (n : Nat) (l : Latched) (edges : List Int) (s : State) : State :=
  let cells := sentCells s n l
  let f := wireFrame s n l.item l.af (sentBytes s n l)
  let phase := hasDataPhase f.fmt l.item
  let s := s.modChan n fun c => { c with latch := none, dataPh := false }
  let s := if opMode s n = 3 then s else s.emit (.busFrame n f)
  let s := txStamp n l.stamp (itTag l.item) (txGood n s)
  let s := dupEnd n l.source l.item false s
  let s := if phase then measureTx n (dataPhaseOf f.fmt) edges s else s
  let s := match l.delay with | some d => measureDelay n d s | none => s
  let s := pwFrameValid n (pwFrameSent n s)
  let s := if cells.isEmpty then s else bdpSent n (cells.headD 0) l.stamp s
  let s := endItem n l.source 1 l.item s
  let s := if l.cancel == .none then s else finishCancel l 1 s
  loopBack n l.stamp f s

/-- An attempt fails: it is counted as `tec` says, its duplicate count and item as R95 and R215 say, also where the error itself
forces the channel out of service. In a CAN XL data phase with error signalling off no flag is started (R61). -/
def txFailed (n : Nat) (l : Latched) (tec dup : Bool) (e : ErrInfo) (s : State) : State :=
  let count := (s.chan n).dupCnt
  let t := if errSilent s n (wireFmt s n l.item) then s else txError n tec e s
  attemptFailed n 4 (dupEnd n l.source l.item dup (t.modChan n fun c => { c with dupCnt := count }))

/-- The abort pattern of R67 is sent; CHn_TXD stays recessive in LOOP_INTERNAL (R71). -/
def sendAbort (n : Nat) (l : Latched) (s : State) : State :=
  let s := if opMode s n = 3 then s else s.emit (.busAbort n)
  dupEnd n l.source l.item false (bump n 0x1C s)

/-- The item that channel n has taken for the latched attempt has met an underrun (R242). -/
def noteUnderrun (n : Nat) (l : Latched) (s : State) : State :=
  s.modChan n fun c => { c with taken := c.taken.map fun e =>
    if e.1 + 3 = l.source then (e.1, ({ e.2 with underrun := true } : Taken)) else e }

/-- A cut-through frame is aborted on the wire (R67, R241, R242): for its inbound frame's failure the item ends FAILED and
is not retried; at an underrun it stays the candidate of its position. The channel then integrates (R74). -/
def txCutAbort (n : Nat) (l : Latched) (s : State) : State :=
  let s := sendAbort n l s
  integrateAgain n (
    if l.ctGone then
      let s := s.modChan n fun c => { c with latch := none, dataPh := false }
      let s := endItem n l.source 4 l.item s
      if l.cancel == .none then s else finishCancel l 4 s
    else
      let r := fld (wd l.item.words 6) 16 10
      attemptFailed n 4 (noteUnderrun n l (raise 0x49 r [(16, r), (8, 1)] (rtCount r 3 s))))

/-- After an attempt that was not sent: a cut-through copy whose inbound frame has failed meanwhile is not retried
(R241). -/
def cutAfter (n : Nat) (l : Latched) (cells : List Nat) (s : State) : State :=
  if l.ctGone then cutRemove (mget 0 s.pool.owner (cells.headD 65537)) (cells.headD 65537) s
  else recheck n s

/-- A payload cell of the cut-through copy on the wire is not in the pool yet (R242). -/
def cutMissing (s : State) (n : Nat) (l : Latched) : Bool :=
  let cells := sentCells s n l
  l.ctFrom.isSome && decide (cells.length < cellsFor (readItem s cells).data.length)

/-- How an attempt past its arbitration field must end whatever the bus brings: a cut-through frame whose inbound frame
has failed, or of which a payload cell is missing, is aborted unless an error ends it first (R67, R241, R242); a frame checked before
its loop delay is over meets a bit error (R58). -/
def forcedEnd (s : State) (n : Nat) (l : Latched) (e : AttemptEnd) : AttemptEnd :=
  match e with
  | .bitError i => .bitError i
  | .otherError i => .otherError i
  | e =>
    if l.ctGone || cutMissing s n l then .ctAbort
    else if l.mistimed then .bitError { dominantAfterFlag := false, flagBitErrors := 0, dominantRuns := 0 } else e

/-- How an attempt that is past its arbitration field ends. A missing acknowledgement always counts on a trunk (R66). -/
def txOver (n : Nat) (l : Latched) (e : AttemptEnd) (edges : List Int) (s : State) : State :=
  match forcedEnd s n l e with
  | .sent => txSent n l edges s
  | .bitError i => txFailed n l true true i s
  | .ackError dom i =>
    if opMode s n = 3 ∨ opMode s n = 4 then s
    else txFailed n l (!errPassive (s.chan n) || dom || trunkEn s n) false i s
  | .nack i => txFailed n l true false i s
  | .otherError i => txFailed n l true false i s
  | .ctAbort => if l.ctGone || cutMissing s n l then txCutAbort n l s else s
  | _ => s

/-- The end of channel n's attempt; an error before the deadline ends what the channel had begun to receive as well. -/
def txEnd (n : Nat) (e : AttemptEnd) (edges : List Int) (s : State) : State :=
  match (s.chan n).latch with
  | none => s
  | some l =>
    let cells := sentCells s n l
    let whole := !l.aborting && l.deadline && forcedEnd s n l e == .sent
    let s :=
      if l.aborting then
        (if e = .flagEnd then
          finishCancel l 3 (endItem n l.source 3 l.item (s.modChan n fun c => { c with latch := none, dataPh := false }))
        else s)
      else if l.deadline then txOver n l e edges s
      else match e with
        | .lost => attemptFailed n 5 (bump n 0x40 s)
        | .arbStuff i => txFailed n l false false i (abandonRx n s)
        | .otherError i => txFailed n l true false i (abandonRx n s)
        | _ => s
    if (s.chan n).latch.isSome then s
    else
      let s := ckFinished (16 + n) s
      let s := cutAfter n l cells s
      recheck n (wireFree n (if whole then 1 else 3) s)

/-- One part of an attempt. -/
def txPart (n : Nat) (p : AttemptPart) (s : State) : State :=
  match p with
  | .latch joined => txLatch n joined s
  | .deadline => txDeadline n s
  | .header d bad => txHeader n d bad s
  | .dataEnd => txDataEnd n s
  | .ended e edges => txEnd n e edges s
  | .overload e => overloadFlag n true e s
  | .whole joined d bad e edges =>
    if (s.chan n).latch.isSome then s
    else
      let t := txLatch n joined s
      let early := match e with | .lost => true | .arbStuff _ => true | _ => false
      let late := match e with | .sent => true | .ackError _ _ => true | .nack _ => true | _ => false
      if early then txEnd n e edges t
      else if payloadWaits t n then s
      else
        let t := txHeader n d bad (txDeadline n t)
        txEnd n e edges (if late then txDataEnd n t else t)

/-- TX_ATTEMPT (R211): an attempt of channel ch, `waited` core cycles after the previous command. -/
def execTxAttempt (ch : Fin 16) (waited : Nat) (p : AttemptPart) (s : State) : Host.Outcome State Fault Refusal :=
  let s := passCycles waited s
  .next (noteReasons s (returnsDue ch.val (txPart ch.val p s)))

end Sys2Proof.Machine
end

