-- ==== Sys2Proof/Machine/Tangent.lean ====
section
/-!
DEFINITION. Tangent's contexts at work (chapter 11): sample instants and overruns, evaluations, emission, set-point items,
replays, and the Tangent commands, with the duplex controller's mirroring of changes (R354, R355).
-/
namespace Sys2Proof.Machine

/-! ## Registers of a context -/

/-- Tangent is frozen (R314). -/
def tgFrozen (s : State) : Bool := forcedSafe s .tangent

/-- Tangent works: neither frozen nor asleep (R314, R315). -/
def tgRuns (s : State) : Bool := !tgFrozen s && s.pw.awake

/-- The number of a context state (R320). -/
def ctxCode : CtxState → Nat
  | .unconfigured => 0
  | .disabled => 1
  | .enabled => 2
  | .disabling => 3
  | .failed => 4

/-- TG_CTX_STAT (R320). -/
def ctxStat (x : Ctx) : Word :=
  let w := x.word 26
  packW [(0, 3, ctxCode x.state), (3, 1, fld w 4 1), (4, 2, fld w 0 2), (6, 1, fld w 5 1), (7, 1, fld w 6 1),
    (8, 2, fld w 8 2), (16, 8, fld w 16 8), (24, 8, fld w 24 8)]

/-- A context event carries the context (R323). -/
def ctxEvent (code c : Nat) (s : State) : State := raise code c [(16, c)] s

/-! ## Sample instants (R299) -/

/-- The sample period in nanoseconds. -/
def ctxPeriod (x : Ctx) : Nat := fld (x.word 1) 0 16 * 10000
/-- The sample phase in nanoseconds. -/
def ctxPhase (x : Ctx) : Nat := fld (x.word 1) 16 16 * 10000

/-- The index of the latest instant at or before time `t`. -/
def indexAt (x : Ctx) (t : Nat) : Int := if ctxPeriod x = 0 then 0 else ((t : Int) - ctxPhase x) / (ctxPeriod x : Int)

/-- The time of instant k. -/
def instantTime (x : Ctx) (k : Int) : Int := k * ctxPeriod x + ctxPhase x

/-- An instant with the low index bits `i` is at or before instant k. -/
def indexReached (k : Int) (i : Nat) : Bool := unsign (k - i) 32 < 2 ^ 31

/-! ## Failure (R317) -/

/-- The first word of a context with a double-bit error. -/
def doubleBad (x : Ctx) : Option Nat := (List.range 32).find? fun k => mget 0 x.bad k == 2

/-! ## The commands' effect on a context (R292, R305, R306, R308) -/

/-- 0x59 TG_ENABLE reaches Tangent; `k`: the instant named by a mirrored change, which is then its first sample
(R354). -/
def enableCtx (c mode : Nat) (k : Option Int) (s : State) : State :=
  let x := s.ctx c
  let auto := if mode = 0 then bitOf (x.word 2) 12 else mode == 2
  let sp := if x.valid then tgfOfInt (rawValue (x.word 0) x.latch) else x.word 22
  let last := match k with | some k => k - 1 | none => indexAt x s.tm.now.toNat
  s.modCtx c fun x =>
    put26 0 2 outHold (put26 4 1 (b1 auto) (put26 8 2 0 (Ctx.put 25 tgfZero (Ctx.put 24 sp
      { x with state := .enabled, lastK := last, pendK := none, modeReq := none, bad := mdel (mdel x.bad 24) 25 }))))

/-- 0x5A TG_DISABLE reaches Tangent (R292, R313). -/
def disableCtx (c : Nat) (discard : Bool) (ring : Option Nat) (s : State) : State :=
  if (s.ctx c).frame.isSome then
    if discard then ctxDisabled c 2#32 (frameGone c (s.modCtx c fun x => { x with ring := ring }))
    else s.modCtx c fun x => { x with state := .disabling, ring := ring, pendK := none }
  else ctxDisabled c 0 (s.modCtx c fun x => { x with ring := ring })

/-- The status of a Tangent change that reaches Tangent (R322): ops of R355. -/
def ctlStatus (s : State) (c op : Nat) (param : Word) : Nat :=
  let x := s.ctx c
  if op = 0 then
    if x.state ≠ .disabled then eState
    else if (s.queue (fld (x.word 2) 13 8)).state = .none ∨ (s.queue (fld (x.word 2) 13 8)).consumer ≠ 5 then eParam
    else stOk
  else if op = 1 then (if x.state = .disabling then eBusy else if x.state ≠ .enabled then eState else stOk)
  else if op = 2 then (if x.state ≠ .enabled then eState else stOk)
  else if x.state = .unconfigured ∨ x.state = .failed then eState
  else if tgfValue param < tgfValue (x.word 19) ∨ tgfValue (x.word 20) < tgfValue param then eParam
  else stOk

/-- The words that a change reads of its context (R317): TG_ENABLE the words that give mode, conversion and target,
TG_SETPOINT the range of the target; a change that its context's state refuses reads none. -/
def ctlReads (x : Ctx) (op : Nat) : List Nat :=
  if op = 0 then (if x.state = .disabled then [0, 2, 22] else [])
  else if op = 3 ∨ op = 4 then (if x.state = .unconfigured ∨ x.state = .failed then [] else [19, 20])
  else []

/-- A change reads its context: a double-bit error fails it (R317). -/
def ctlRead (c op : Nat) (s : State) : State := if readsBad (ctlReads (s.ctx c) op) (s.ctx c) then ctxFailed c s else s

/-- A change reaches Tangent (R354): `k` is the instant named by a mirrored change, `ring` the command's. -/
def applyCtl (c op : Nat) (param : Word) (k : Option Int) (ring : Option Nat) (s : State) : State :=
  let s := ctlRead c op s
  let st := ctlStatus s c op param
  let done := fun (st : Nat) (r0 : Word) (s : State) =>
    match ring with | some r => complete r st r0 0 s | none => s
  if st ≠ stOk then done st 0 s
  else if op = 0 then
    let t := enableCtx c (fld param 0 2) k s
    done stOk (ctxStat (t.ctx c)) (noteReasons s t)
  else if op = 1 then disableCtx c (bitOf param 0) ring s
  else if op = 2 then
    let s := s.modCtx c fun x => { x with modeReq := some (fld param 0 1, fld param 1 2) }
    done stOk (ctxStat (s.ctx c)) s
  else
    let v := tgfNorm param
    done stOk v (s.modCtx c fun x => Ctx.put 22 v { x with bad := mdel x.bad 22 })

/-- Changes held for an instant at or before k of context c are passed to Tangent (R354). -/
def applyHeld (c : Nat) (k : Int) (s : State) : State :=
  let now := s.dx.held.filter fun h => h.ctx == c && indexReached k h.index
  let s := s.modDx fun d => { d with held := d.held.filter (fun (h : CtlChange) => !(h.ctx == c && indexReached k h.index)) }
  now.foldl (fun s h => applyCtl c h.op h.param (some k) h.ring s) s

/-- The first instant of context c at least 100 µs ahead (R354). -/
def ctlIndex (s : State) (c : Nat) : Int :=
  let x := s.ctx c
  indexAt x (s.tm.now.toNat + 100000 + (ctxPeriod x - 1))

/-- The duplex controller takes a change (R354): in SOLO it reaches Tangent; ACTIVE with the link UP, it is held for its
instant and sent as a CTL packet; with the link DOWN it is passed on at once and recorded as missed; a standby refuses
the command. A context without instants has none to hold it for. -/
def dxChange (c op : Nat) (param : Word) (ring : Option Nat) (s : State) : State :=
  if isStandby s then (match ring with | some r => complete r eState 0 0 s | none => s)
  else if s.dx.state = 2 ∧ s.dx.linkUp ∧ ctxPeriod (s.ctx c) ≠ 0 then
    let i := idx32 (ctlIndex s c)
    let p : Packet := { kind := 7, words := [packW [(0, 9, c), (9, 3, op), (16, 16, s.dx.ctlSent)], param, w32 i, 0#32] }
    let h : CtlChange := { ctx := c, op := op, param := param, index := i, ring := ring }
    linkSend p (s.modDx fun d => { d with held := d.held ++ [h], ctlSent := (d.ctlSent + 1) % 65536 })
  else
    let s := if s.dx.state = 2 ∧ !s.dx.linkUp then s.modDx fun d => { d with ctlMissed := true } else s
    applyCtl c op param none ring s

/-! ## TG_INSTANT (R298, R299, R301, R302) -/

/-- Source 20 asserts for context c: TG_OVR, 0x59 TG_OVERRUN_RUN. -/
def overrunRun (c : Nat) (s : State) : State :=
  let s := s.modTg fun t =>
    let o := if bitOf t.ovr 9 then t.ovr else putFld (putFld t.ovr 0 9 c) 9 1 1
    { t with ovr := putFld o 16 16 (satInc 0xFFFF (fld o 16 16)) }
  vxAssert 20 (w32 c) (ctxEvent 0x59 c s)

/-- The pending sample of context c, instant k, is skipped (R301, R302). -/
def skipSample (c : Nat) (k : Int) (s : State) : State :=
  let run := fld ((s.ctx c).word 26) 8 2
  let s := s.modCtx c fun x =>
    let w := x.word 29
    put26 8 2 (satInc 3 run) (Ctx.put 28 (w32 (idx32 k)) (Ctx.put 29 (putFld w 0 16 (satInc 0xFFFF (fld w 0 16)))
      { x with lastK := k, pendK := none, bad := mdel x.bad 28 }))
  let s := ctxEvent 0x58 c s
  if run = 2 then overrunRun c s else s

/-- The age of the latch of context c rises (R298). -/
def ageUp (c : Nat) (s : State) : State := s.modCtx c fun x => put26 24 8 (satInc 255 (fld (x.word 26) 24 8)) x

/-- The pending sample of a context, when the time base has reached its instant; after a step backward it has not, and the
sample is not due (R299). -/
def pendingAt (x : Ctx) (now : Nat) : Option (Int × DWord) :=
  match x.pendK with
  | some e => if instantTime x e.1 ≤ now then some e else none
  | none => none

/-- The latest instant passed is new to context c. -/
def newInstant (x : Ctx) (now : Nat) (k : Int) : Bool :=
  decide (x.lastK < k) && (match pendingAt x now with | some (p, _) => decide (p < k) | none => true)

/-- The words of a context that an instant counts on: the age, and of a sample that is skipped its count (R317). -/
def instantReads (s : State) (x : Ctx) : List Nat :=
  if x.state == .enabled && tgRuns s && (pendingAt x s.tm.now.toNat).isSome && !x.pendFroz then [26, 29] else [26]

/-- Context c has failed on the way from `s` to `t`. -/
def failedNow (s t : State) (c : Nat) : Bool := (t.ctx c).state == .failed && (s.ctx c).state != .failed

/-- Instant k of context c is detected. While Tangent is frozen the latest instant stands for those that it replaces, and
raises age once (R298, R314); a context that its words fail takes no part (R317). -/
def instantSeen (c : Nat) (k : Int) (s : State) : State :=
  let s := applyHeld c k s
  let x := s.ctx c
  let was := pendingAt x s.tm.now.toNat
  let t := ctxCheck c (instantReads s x) s
  if x.state = .unconfigured ∨ !newInstant x s.tm.now.toNat k then s
  else if failedNow s t c then t
  else if x.state ≠ .enabled then ageUp c (s.modCtx c fun x => { x with lastK := k })
  else
    let pend := (k, s.tm.now)
    if !tgRuns s then
      let s := if was.isSome && x.pendFroz then s else ageUp c s
      s.modCtx c fun x => { x with pendK := some pend, pendFroz := true }
    else
      let s := match was with | some (p, _) => if x.pendFroz then s else skipSample c p s | none => s
      let s := if was.isSome && x.pendFroz then s else ageUp c s
      s.modCtx c fun x => { x with pendK := some pend, pendFroz := false }

/-- TG_INSTANT: `waited` core cycles after the previous command, context c's latest instant is detected (R299). -/
def execTgInstant (c : Fin 512) (waited : Nat) (s : State) : Host.Outcome State Fault Refusal :=
  let s := passCycles waited s
  .next (
    if ctxPeriod (s.ctx c.val) = 0 ∨ !timeRuns s then s
    else
      let t := ctxCheck c.val [1] s
      if failedNow s t c.val then t else instantSeen c.val (indexAt (s.ctx c.val) s.tm.now.toNat) s)

/-! ## TG_EVALUATION (R300, R303, R309, R311) -/

/-- The standby's own evaluation of the instant has begun, or none will come (R363). -/
def evaluated (x : Ctx) (index : Nat) : Bool := x.state != .enabled || indexReached x.lastK index

/-- The replay served next (R300, R363). -/
def nextReplay (s : State) : Option Replay :=
  s.dx.replays.find? fun r => r.why != .resync || evaluated (s.ctx r.ctx) r.rcd.index

/-- The contexts due and not yet begun: instant, context, index, detection (R299, R319). -/
def dueAll (s : State) : List (Int × Nat × Int × DWord) :=
  s.tg.ctxs.filterMap fun e => match pendingAt e.2 s.tm.now.toNat with
    | some (k, t) => if e.2.state == .enabled then some (instantTime e.2 k, e.1, k, t) else none
    | none => none

/-- The due contexts whose evaluation may begin (R300): no frame of theirs waits. -/
def dueList (s : State) : List (Int × Nat × Int × DWord) := (dueAll s).filter fun e => (s.ctx e.2.1).frame.isNone

/-- The earliest due instant, among equal times the lowest context. -/
def firstDue : List (Int × Nat × Int × DWord) → Option (Int × Nat × Int × DWord)
  | [] => none
  | e :: t => match firstDue t with
    | none => some e
    | some f => if f.1 < e.1 ∨ (f.1 = e.1 ∧ f.2.1 < e.2.1) then some f else some e

/-- A mode change applies (R308). -/
def applyMode (x : Ctx) : Ctx :=
  match x.modeReq with
  | some (m, out) =>
    let x := { x with modeReq := none }
    let now := fld (x.word 26) 4 1
    if m = now then put26 2 2 out x
    else if m = 0 then put26 4 1 0 (put26 2 2 out (Ctx.put 25 tgfZero x))
    else put26 4 1 1 (Ctx.put 25 tgfZero x)
  | none => x

/-- What the evaluation of a context starts from (R303). -/
def lawIn (x : Ctx) : LawIn :=
  let w := x.word 26
  { outPrev := fld w 0 2, auto := bitOf w 4
    stale := !x.valid || decide (fld (x.word 2) 0 8 < fld w 24 8)
    manOut := fld w 2 2
    pv := if x.valid then tgfOfInt (rawValue (x.word 0) x.latch) else x.word 27
    target := x.word 22, s := x.word 24, i := x.word 25 }

/-- The sample record (R311). -/
def recWords (c : Nat) (x : Ctx) (a : LawIn) (o : LawOut) (k : Int) : List Word :=
  let w := x.word 26
  [packW [(0, 9, c), (9, 2, a.outPrev), (11, 2, o.out), (13, 1, b1 a.auto), (14, 1, b1 a.stale), (15, 1, b1 x.updated),
     (16, 8, fld w 16 8), (24, 2, a.manOut)],
   w32 (idx32 k), x.latch, a.target, a.s, a.i, x.word 27, w32 (fld w 24 8)]

/-- The frame of context c in the form in which frames are compared (R358). -/
def ctxImage (s : State) (w : CtxWords) (f : TxItem) : List Word :=
  builtImage (trunkEn s (s.queue (fld (w 2) 13 8)).txCh) (devAddr s) f

/-- A record is kept: 8 per context, oldest first out (R356). -/
def keepRec (c : Nat) (r : Rec) (s : State) : State :=
  s.modDx fun d =>
    let l := mget [] d.recs c ++ [r]
    { d with recs := mset d.recs c (l.drop (l.length - 8)) }

/-- The standby's frame waits to be observed; a third displaces the oldest, which is MISSING (R358). -/
def pendFrame (c index : Nat) (img : List Word) (s : State) : State :=
  if s.dx.state ≠ 4 ∨ !compared s c ∨ s.dx.divergent.contains c then s
  else
    let s := match mget [] s.dx.pend c with
      | p :: q :: t => mismatch c 1 p.index none (s.modDx fun d => { d with pend := mset d.pend c (q :: t) })
      | _ => s
    if s.dx.divergent.contains c ∨ s.dx.state ≠ 4 then s
    else s.modDx fun d => { d with pend := mset d.pend c (mget [] d.pend c ++ [{ index := index, frame := img }]) }

/-- The evaluated context: words 24 to 31 as R303 writes them back, with the next sequence number. -/
def writtenBack (x : Ctx) (a : LawIn) (o : LawOut) (k : Int) : Ctx :=
  let w := x.word 26
  let w := putFld (putFld (putFld w 0 2 o.out) 5 1 (b1 a.stale)) 16 8 (fld w 16 8 + 1)
  let w := if o.sat then putFld w 7 1 1 else w
  let entry := a.stale && !bitOf (x.word 26) 5
  let n := x.word 29
  let n := if entry then putFld n 16 16 (satInc 0xFFFF (fld n 16 16)) else n
  let new : List (Nat × Word) := [(22, o.target), (24, o.s), (25, o.i), (26, w), (27, a.pv), (28, w32 (idx32 k)),
    (29, n), (31, w32 ((x.word 31).toNat + 1))]
  { x with
    words := new.foldl (fun m e => mset m e.1 e.2) x.words
    bad := [], updated := false, lastK := k, pendK := none }

/-- The events of an evaluation (R294, R298). -/
def evalEvents (c : Nat) (was stale sat : Bool) (s : State) : State :=
  let s := if stale && !was then ctxEvent 0x5A c s else if was && !stale then ctxEvent 0x5B c s else s
  if sat then ctxEvent 0x5E c s else s

/-- The built frame waits for its commit in SOLO and ACTIVE; a standby compares it; outside SOLO the record is handed
over (R311, R356). -/
def emitFrame (c : Nat) (k : Int) (rw : List Word) (f : TxItem) (s : State) : State :=
  let img := ctxImage s (s.ctx c).word f
  let s := if s.dx.state = 0 then s else keepRec c { index := idx32 k, words := rw, frame := img } s
  let s := if s.dx.state = 2 then linkSend { kind := 9, words := rw } s else s
  if isStandby s then pendFrame c (idx32 k) img s
  else (s.modCtx c fun x => put26 6 1 1 { x with frame := some f }).modTg fun t => { t with emitQ := t.emitQ ++ [c] }

/-- A single-bit error is corrected and reported (R316). -/
def correctCtx (c : Nat) (s : State) : State :=
  if (List.range 32).any fun k => mget 0 (s.ctx c).bad k == 1 then
    raise 0x5D c [(16, c), (8, 0)] (s.modTg fun t => { t with ecc := putFld (putFld t.ecc 0 9 c) 9 1 1 })
  else s

/-- The evaluation of context c at instant k (R303), in ENABLED. -/
def evaluate (c : Nat) (k : Int) (s : State) : State :=
  let s := correctCtx c s
  let s := s.modCtx c applyMode
  let x := s.ctx c
  let a := lawIn x
  let o := evalLaw x.word a
  let f := tgFrame x.word c o.out (fld (x.word 26) 16 8)
  let was := bitOf (x.word 26) 5
  let s := evalEvents c was a.stale o.sat (s.modCtx c fun x => writtenBack x a o k)
  emitFrame c k (recWords c x a o k) f s

/-- The time from detection to evaluation raises lag_max (R319): 480 MHz core cycles. -/
def lagNote (t : DWord) (s : State) : State :=
  let lag := (s.tm.now.toNat - t.toNat) * 12 / 25
  s.modTg fun g => { g with lagMax := Nat.max g.lagMax (Nat.min 0xFFFF lag) }

/-- The evaluator's turn for context c. -/
def evalTurn (c : Nat) (k : Int) (t : DWord) (s : State) : State :=
  let s := applyHeld c k (lagNote t s)
  if (s.ctx c).state ≠ .enabled ∨ (s.ctx c).frame.isSome then s
  else if (doubleBad (s.ctx c)).isSome then ctxFailed c s
  else
    let s := s.modCtx c fun x => put26 8 2 0 x
    noteReasons s (evaluate c k s)

/-- TG_EVALUATION: the evaluator takes the first due context, unless a replay is to be served first (R300). -/
def execTgEvaluation (s : State) : Host.Outcome State Fault Refusal :=
  .next (
    if !tgRuns s || (nextReplay s).isSome then s
    else match firstDue (dueList s) with
      | some (_, c, k, t) => evalTurn c k t s
      | none => s)

/-! ## TG_EMIT_COMMIT (R307, R312) -/

/-- The frame of context c has left: a DISABLING context is DISABLED. -/
def frameLeft (c : Nat) (r0 : Word) (s : State) : State :=
  let s := frameGone c s
  if (s.ctx c).state = .disabling then ctxDisabled c r0 s else s

/-- The frame `f` of context c is committed into its queue, in the free cell `pick`; out_queue is read from the context
(R317). -/
def emitOne (c : Nat) (f : TxItem) (pick : Nat) (s : State) : State :=
  let w2 := (s.ctx c).word 2
  let q := fld w2 13 8
  if readsBad [2] (s.ctx c) then ctxFailed c s
  else if (s.queue q).state = .none ∨ (s.queue q).consumer ≠ 5 then frameLeft c 2#32 (ctxEvent 0x5C c s)
  else if allocOk s q true then
    let cell := freeCell s pick
    let words := f.words.set 0 (putFld (wd f.words 0) 31 1 1)
    let s := writeCell cell (cellBytes words f.data 0) (charge cell q s)
    commitItem q (fld w2 21 4) [cell] (frameLeft c 1#32 s)
  else (refuse q (refusedByMax s q true) s).modTg fun t => { t with emitQ := t.emitQ.filter (· != c) ++ [c] }

/-- TG_EMIT_COMMIT: in a Tangent slot the oldest waiting frame is committed. -/
def execTgEmitCommit (pick : Fin 65536) (s : State) : Host.Outcome State Fault Refusal :=
  .next (
    if !tgRuns s then s
    else match s.tg.emitQ with
      | c :: _ =>
        inSlot .tangent
          (fun s => match (s.ctx c).frame with | some f => emitOne c f pick.val s | none => frameGone c s) s
      | [] => s)

/-! ## SETPOINT_ITEM_READ (R306, R307, R354) -/

/-- Contexts that read set-point items: sp_q_en = 1 and sp_queue a TANGENT queue that shows a head. -/
def spReaders (s : State) : List Nat :=
  (s.tg.ctxs.filter fun e =>
    (e.2.state == .disabled || e.2.state == .enabled || e.2.state == .disabling) && bitOf (e.2.word 21) 8
    && (s.queue (fld (e.2.word 21) 0 8)).state != .none && (s.queue (fld (e.2.word 21) 0 8)).consumer == 3
    && (headItem s (fld (e.2.word 21) 0 8)).isSome).map (·.1)

/-- Word 21 of each context tells whether it reads set-point items (R317). -/
def spCheck (s : State) : State := s.tg.ctxs.foldl (fun s e => ctxCheck e.1 [21] s) s

/-- The next reader, round-robin in ascending context number. -/
def spTurn (s : State) : Option Nat :=
  let l := spReaders s
  match l.find? fun c => decide (s.tg.spNext ≤ c) with | some c => some c | none => l.head?

/-- The item's target reaches context c (R306): `data` is its payload as cell 0 holds it. -/
def spTarget (c : Nat) (data : List Byte) (s : State) : State :=
  let x := s.ctx c
  let w := x.word 21
  let off := fld w 9 5
  let len := fld w 14 2 + 1
  if isStandby s then s
  else if data.length < off + len then
    (ctxCheck c [30] s).modCtx c fun x => Ctx.put 30 (putFld (x.word 30) 16 16 (satInc 0xFFFF (fld (x.word 30) 16 16))) x
  else
    let v := tgfOfInt (fieldOf data off len (bitOf w 17) (bitOf w 16))
    let t := tgfClamp (x.word 19) (x.word 20) v
    let s := if tgfValue t ≠ tgfValue v then ctxEvent 0x5F c s else s
    dxChange c 4 t none s

/-- The next set-point item of context c is popped and read (R306, R307). -/
def spRead (c : Nat) (s : State) : State :=
  if (doubleBad (s.ctx c)).isSome then ctxFailed c s
  else
    let x := takeHead (fld ((s.ctx c).word 21) 0 8) s
    match x.2 with
    | none => x.1
    | some i =>
      let data := (readItem x.1 i.cells).data
      spTarget c (data.take 28) (x.1.modTg fun t => { t with spCells := some i.cells, spNext := c + 1 })

/-- SETPOINT_ITEM_READ: when no frame waits, the cells of an item already read go back; otherwise the next set-point item
is popped and read. -/
def execSetpointItemRead (s : State) : Host.Outcome State Fault Refusal :=
  .next (
    if !tgRuns s || !s.tg.emitQ.isEmpty then s
    else match s.tg.spCells with
      | some cells => inSlot .tangent (fun s => freeCells cells (s.modTg fun t => { t with spCells := none })) s
      | none =>
        let s := spCheck s
        match spTurn s with
        | none => s
        | some c => inSlot .tangent (spRead c) s)

/-! ## TG_REPLAY (R311, R360, R363) -/

/-- What the replay of a record starts from: an input that was stale and had not been updated kept the earlier process
value (R303). -/
def recIn (w : CtxWords) (r : Rec) : LawIn :=
  let w0 := wd r.words 0
  { outPrev := fld w0 9 2, auto := bitOf w0 13, stale := bitOf w0 14, manOut := fld w0 24 2
    pv := if bitOf w0 14 && !bitOf w0 15 then wd r.words 6 else tgfOfInt (rawValue (w 0) (wd r.words 2))
    target := wd r.words 3, s := wd r.words 4, i := wd r.words 5 }

/-- A context after a replay with write-back (R363): words 24 to 31 as the active had them after that instant. The
evaluation has set run to 0 (R302); sat and words 29 to 31, which no record carries, are the active's as the command gives them
(log entry 132). -/
def replayWrite (r : Rec) (a : LawIn) (o : LawOut) (x : Ctx) : Ctx :=
  let w := x.word 26
  let w := putFld (putFld (putFld (putFld w 0 2 o.out) 2 2 a.manOut) 4 1 (b1 a.auto)) 5 1 (b1 a.stale)
  let w := putFld (putFld w 16 8 (fld (wd r.words 0) 16 8 + 1)) 24 8 (fld (wd r.words 7) 0 8)
  let w := putFld (putFld w 8 2 0) 7 1 (fld (wd r.after 0) 7 1)
  let new : List (Nat × Word) := [(22, o.target), (24, o.s), (25, o.i), (26, w), (27, a.pv), (28, wd r.words 1),
    (29, wd r.after 1), (30, wd r.after 2), (31, wd r.after 3)]
  { x with words := new.foldl (fun m e => mset m e.1 e.2) x.words, bad := x.bad.filter fun e => decide (e.1 < 24) && e.1 != 22 }

/-- Context c is in line again (R363, R367): a unit in STANDBY_SYNC whose last context this was is STANDBY. -/
def inLine (c : Nat) (s : State) : State :=
  let was := s.dx.awaitRec.contains c
  let s := s.modDx fun d => { d with divergent := d.divergent.filter (· != c), awaitRec := d.awaitRec.filter (· != c)
                                     pend := mset d.pend c [] }
  if was && s.dx.state == 3 && s.dx.awaitRec.isEmpty then standbyReached s else s

/-- REF_ANS (R350, R360). -/
def refAnswer (c index : Nat) (ok noRec skipped : Bool) (s : State) : State :=
  linkSend { kind := 5, words := [packW [(0, 9, c), (9, 1, b1 ok), (10, 1, b1 noRec), (11, 1, b1 skipped)], w32 index] } s

/-- The replay `r` has no output: its record is not replayable. -/
def replayFails (r : Replay) (s : State) : State :=
  match r.why with
  | .own => selfJudged false s
  | .answer _ => refAnswer r.ctx r.rcd.index false false false s
  | .resync => s

/-- A replay is done against the context's words as they stand. One with write-back reads the committed snapshot, whose
buffer then shows a parity error (R377). -/
def replayDone (r : Replay) (s : State) : State :=
  let x := s.ctx r.ctx
  let a := recIn x.word r.rcd
  let o := evalLaw x.word a
  let img := ctxImage s x.word (tgFrame x.word r.ctx o.out (fld (wd r.rcd.words 0) 16 8))
  match r.why with
  | .own => selfJudged (decide (img = r.rcd.frame)) s
  | .answer shown => refAnswer r.ctx r.rcd.index (decide (shown = some img)) false false s
  | .resync =>
    let s := if s.dx.commitBad then selfFault 0x3FF (s.modDx fun d => { d with commitBad := false }) else s
    inLine r.ctx (s.modCtx r.ctx (replayWrite r.rcd a o))

/-- TG_REPLAY: one replay takes an evaluation turn (R300). -/
def execTgReplay (s : State) : Host.Outcome State Fault Refusal :=
  .next (
    if !tgRuns s then s
    else match nextReplay s with
      | none => s
      | some r =>
        let s := s.modDx fun d => { d with replays := d.replays.erase r }
        if (doubleBad (s.ctx r.ctx)).isSome then replayFails r (ctxFailed r.ctx s)
        else noteReasons s (replayDone r s))

/-! ## Commands (R322) -/

/-- The context of a Tangent command. -/
def tgCtx (ws : List Word) : Nat := fld (wd ws 1) 0 9

/-- Words of a configuration that hold TGF parameters. -/
def tgfWords : List Nat := [13, 14, 15, 16, 17, 18, 19, 20, 22]

/-- A TGF parameter is negative. -/
def tgfNeg (w : Word) : Bool := decide (tgfMant w < 0)

/-- The set-point queue of a configuration is refused (R310). -/
def spQueueBad (s : State) (c : Nat) (w : CtxWords) : Bool :=
  let q := fld (w 21) 0 8
  bitOf (w 21) 8 && ((s.queue q).state == .none || (s.queue q).consumer != 3
    || s.tg.ctxs.any fun e => e.1 != c && e.2.state != .unconfigured && bitOf (e.2.word 21) 8
        && fld (e.2.word 21) 0 8 == q)

/-- A reserved bit of words 0 to 23 is not 0 (R290, R294). -/
def ctxReserved (w : CtxWords) : Bool :=
  fld (w 0) 16 16 != 0 || fld (w 2) 25 7 != 0 || fld (w 3) 9 7 != 0 || fld (w 4) 8 8 != 0 || fld (w 21) 18 14 != 0
  || w 23 != 0#32 || tgfWords.any fun k => !tgfOk (w k)

/-- What 0x58 TG_CONFIG refuses with E_PARAM (R310). -/
def ctxBad (s : State) (c : Nat) (w : CtxWords) : Bool :=
  let q := fld (w 2) 13 8
  let fmt := dFormat (w 5)
  let len := dLength (w 5)
  fld (w 1) 0 16 == 0 || decide (fld (w 1) 0 16 ≤ fld (w 1) 16 16) || fld (w 2) 0 8 == 0
  || (s.queue q).state == .none || (s.queue q).consumer != 5
  || decide (2 < fmt) || decide (16 < len) || lengthBad (w 5) (w 6) (w 7)
  || (bitOf (w 2) 10 && fmt != 2)
  || decide (len ≤ fld (w 3) 0 4) || (bitOf (w 3) 8 && decide (len ≤ fld (w 3) 4 4))
  || tgfNeg (w 13) || tgfNeg (w 14) || tgfNeg (w 15) || tgfNeg (w 16) || tgfNeg (w 17) || tgfNeg (w 18)
  || decide (tgfValue (w 13) < tgfValue (w 14)) || decide (tgfValue (w 20) < tgfValue (w 19))
  || decide (tgfValue (w 22) < tgfValue (w 19)) || decide (tgfValue (w 20) < tgfValue (w 22))
  || spQueueBad s c w || decide (28 < fld (w 21) 9 5 + (fld (w 21) 14 2 + 1)) || ctxReserved w

/-- A context is configured (R292): its latch stays; last_k is 0. -/
def configCtx (c : Nat) (w : List Word) (s : State) : State :=
  let at' := fun (k : Nat) => if tgfWords.contains k then tgfNorm (wd w k) else wd w k
  s.modCtx c fun x => { x with
    words := (List.range 24).map (fun (k : Nat) => (k, at' k)) ++ [(24, at' 22), (25, tgfZero), (26, packW [(24, 8, 255)])]
    state := .disabled, bad := [], lastK := 0, pendK := none, modeReq := none, frame := none, ring := none }

/-- The words of a TG_CONFIG have arrived. -/
def tgConfigData (r : Nat) (data : List Byte) (s : State) : State :=
  let c := tgCtx [0#32, pkt s r 1]
  let w := wordsOf data 24
  if ctxBad s c (wd w) then complete r eParam 0 0 s
  else if (s.ctx c).state = .enabled ∨ (s.ctx c).state = .disabling then complete r eState 0 0 s
  else
    let s := configCtx c w s
    complete r stOk (ctxStat (s.ctx c)) 0 s

/-- 0x58 TG_CONFIG. -/
def tgConfigBody (r : Nat) (ws : List Word) (s : State) : State :=
  if fld (wd ws 1) 9 23 ≠ 0 ∨ !addrOk s r (wd ws 2) (wd ws 3) 96 then complete r eParam 0 0 s
  else dataIn r (wd ws 2) 96 (tgConfigData r) s

/-- TG_CONFIG. -/
def execTgConfig (r : Fin 4) (s : State) : Host.Outcome State Fault Refusal :=
  .next (beginOp r.val 0x58 (tgConfigBody r.val) s)

/-- 0x59 TG_ENABLE. -/
def tgEnableBody (r : Nat) (ws : List Word) (s : State) : State :=
  if fld (wd ws 2) 0 2 = 3 then complete r eParam 0 0 s
  else dxChange (tgCtx ws) 0 (w32 (fld (wd ws 2) 0 2)) (some r) s

/-- TG_ENABLE. -/
def execTgEnable (r : Fin 4) (s : State) : Host.Outcome State Fault Refusal :=
  .next (beginOp r.val 0x59 (tgEnableBody r.val) s)

/-- TG_DISABLE. -/
def execTgDisable (r : Fin 4) (s : State) : Host.Outcome State Fault Refusal :=
  .next (beginOp r.val 0x5A (fun ws s => dxChange (tgCtx ws) 1 (w32 (fld (wd ws 0) 8 1)) (some r.val) s) s)

/-- 0x5B TG_MODE. -/
def tgModeBody (r : Nat) (ws : List Word) (s : State) : State :=
  if fld (wd ws 2) 1 2 = 3 then complete r eParam 0 0 s
  else dxChange (tgCtx ws) 2 (w32 (fld (wd ws 2) 0 3)) (some r) s

/-- TG_MODE. -/
def execTgMode (r : Fin 4) (s : State) : Host.Outcome State Fault Refusal :=
  .next (beginOp r.val 0x5B (tgModeBody r.val) s)

/-- 0x5C TG_SETPOINT (R305): a target outside the range of a configured context changes nothing. -/
def tgSetpointBody (r : Nat) (ws : List Word) (s : State) : State :=
  if !tgfOk (wd ws 2) then complete r eParam 0 0 s
  else
    let s := ctlRead (tgCtx ws) 3 s
    let st := ctlStatus s (tgCtx ws) 3 (wd ws 2)
    if st ≠ stOk then complete r st 0 0 s
    else dxChange (tgCtx ws) 3 (wd ws 2) (some r) s

/-- TG_SETPOINT. -/
def execTgSetpoint (r : Fin 4) (s : State) : Host.Outcome State Fault Refusal :=
  .next (beginOp r.val 0x5C (tgSetpointBody r.val) s)

/-- 0x5D TG_READ (R317, R322). -/
def tgReadBody (r : Nat) (ws : List Word) (s : State) : State :=
  let c := tgCtx ws
  let x := s.ctx c
  if !addrOk s r (wd ws 2) (wd ws 3) 128 then complete r eParam 0 0 s
  else if x.state = .unconfigured then complete r eState 0 0 s
  else
    let s := dataOut r (wd ws 2) (wd ws 3) ((List.range 32).map x.word) s
    match doubleBad x with
    | some k =>
      let s := ctxFailed c s
      complete r eCheck (ctxStat (s.ctx c)) (w32 k) s
    | none => complete r stOk (ctxStat x) 0 s

/-- TG_READ. -/
def execTgRead (r : Fin 4) (s : State) : Host.Outcome State Fault Refusal :=
  .next (beginOp r.val 0x5D (tgReadBody r.val) s)

end Sys2Proof.Machine
end

