-- ==== Sys2Proof/Machine/Duplex.lean ====
section
/-!
DEFINITION. The duplex controller at work (chapter 13): link packets, heartbeats and timers, the referee exchange, epochs and
snapshots, the planned swap, and the duplex commands.
-/
namespace Sys2Proof.Machine

/-! ## Registers (R378) -/

/-- DX_CFG. -/
def dxCfg (d : Dx) : Word :=
  packW [(0, 1, b1 d.pairEn), (2, 2, d.noteCls), (4, 4, d.hbMiss), (8, 4, d.lkMiss), (16, 16, d.supMask)]

/-- DX_CLAIM. -/
def dxClaim (d : Dx) : Word := packW [(0, 16, d.claim), (16, 16, d.highest)]

/-- epoch_busy (R378): a packet of a snapshot is on the link or waits, or a COMMIT is still to come. -/
def snapBusy (d : Dx) : Bool :=
  (d.txNow.toList ++ d.txWait).any (fun p => p.kind == 10 || p.kind == 11) || !d.commits.isEmpty

/-- DX_STAT. -/
def dxStat (d : Dx) : Word :=
  packW [(0, 3, d.state), (3, 1, d.unit), (4, 1, b1 d.linkUp), (5, 1, b1 (snapBusy d)), (6, 1, b1 (d.ref.isSome || d.refFor.isSome)),
    (7, 1, b1 d.swap.isSome), (8, 3, d.lastCause), (16, 16, d.takeovers)]

/-! ## The link's transmitter and lanes (R348, R350, R351, R372) -/

/-- The link runs (R348). -/
def linkRuns (s : State) : Bool := s.dx.pairEn && s.pw.awake

/-- LINK_HB_SEND (R351): every 10 µs an HB packet falls due. -/
def execLinkHbSend (s : State) : Host.Outcome State Fault Refusal :=
  .next (
    if !linkRuns s then s
    else
      let d := s.dx
      let epoch := if d.state = 2 then d.epochNo else d.committed
      let w0 := packW [(0, 3, d.state), (3, 1, d.unit), (4, 2, worst s), (16, 16, d.claim)]
      let w1 := packW [(0, 16, epoch), (16, 16, d.hbCount)]
      linkSend { kind := 1, words := [w0, w1] } (s.modDx fun d => { d with hbCount := (d.hbCount + 1) % 65536 }))

/-- The last chunk of an epoch has left: its COMMIT is sent (R364). A parity error of the send buffer shows when a chunk is read
from it (R377). -/
def chunkSent (number : Word) (s : State) : State :=
  let s := if s.dx.sendBad then vxAssert 33 0x3FF#32 (s.modDx fun d => { d with sendBad := false }) else s
  if s.dx.txWait.any fun q => q.kind == 11 && wd q.words 0 == number then s
  else
    let due := s.dx.commits.filter fun q => wd q.words 0 == number
    due.foldl (fun s q => linkSend q s)
      (s.modDx fun d => { d with commits := d.commits.filter (fun (q : Packet) => wd q.words 0 != number) })

/-- LINK_PACKET_END (R350, R372): the packet in progress has left. After the NOTICE of a class-3 safe state the link falls
silent; the COMMIT ends the sending of its epoch. -/
def execLinkPacketEnd (s : State) : Host.Outcome State Fault Refusal :=
  .next (
    match s.dx.txNow with
    | none => s
    | some p =>
      let s := s.modDx fun d => { d with txNow := none }
      let s := if p.kind = 11 then chunkSent (wd p.words 0) s else s
      if s.vx.safe && !s.dx.txWait.any (fun q => q.kind == 2) then s.modDx fun d => { d with silent := true, txWait := [], commits := [] }
      else linkKick s)

/-- LANE_ALIGNED (R348): three commas in a row on lane `lane`. -/
def execLaneAligned (lane : Fin 2) (s : State) : Host.Outcome State Fault Refusal :=
  .next (
    if linkRuns s then s.modDx fun d => { d with lane0 := d.lane0 || lane.val == 0, lane1 := d.lane1 || lane.val == 1 }
    else s)

/-- LANE_ALIGN_LOSS (R348): a lane loses alignment, and the link goes DOWN. -/
def execLaneAlignLoss (lane : Fin 2) (s : State) : Host.Outcome State Fault Refusal :=
  .next (noteReasons s (linkDown
    (s.modDx fun d => { d with lane0 := d.lane0 && lane.val != 0, lane1 := d.lane1 && lane.val != 1 })))

/-- LINK_HB_TIMEOUT (R348): lk_miss intervals without a valid HB. -/
def execLinkHbTimeout (s : State) : Host.Outcome State Fault Refusal := .next (noteReasons s (linkDown s))

/-! ## Packets received (R349) -/

/-- The payload length of a packet type (R350). -/
def packetLen (kind : Nat) : Nat :=
  if kind = 1 ∨ kind = 5 then 2 else if kind = 4 then 16 else if kind = 6 ∨ kind = 10 then 3 else if kind = 7 then 4
  else if kind = 9 then 8 else if kind = 11 then 1026 else 1

/-- A received packet stands (R349): no coding error inside it, the length of its type, the CRC-32C over header and
payload. -/
def packetGood (kind : Nat) (ws : List Word) (p : LinkFrame) : Bool :=
  !p.coding && fld p.header 8 12 == packetLen kind && p.crc.toNat == crc32c (bytesOfWords (p.header :: ws))

/-- A packet arrives: one that does not stand is discarded and counted; packets other than HB are taken while the link is
UP. -/
def packetIn (kind : Nat) (ws : List Word) (p : LinkFrame) (f : State → State) (s : State) : State :=
  if !linkRuns s || !s.dx.lane0 || !s.dx.lane1 then s
  else if !packetGood kind ws p then s.modDx fun d => { d with crcErr := satInc 0xFFFF d.crcErr }
  else if kind == 1 || s.dx.linkUp then noteReasons s (f s) else s

/-- A valid HB (R345, R348, R368). -/
def hbSeen (w0 : Word) (s : State) : State :=
  let p : Partner := { state := fld w0 0 3, unit := fld w0 3 1, worst := fld w0 4 2, claim := fld w0 16 16 }
  let s := noteClaim p.claim (s.modDx fun d => { d with partner := some p })
  let s := linkComesUp s
  if s.dx.state ≠ 1 then s
  else if p.state = 2 then enterSync s
  else if p.state = 1 ∧ s.dx.unit = 1 then becomeActive 0 s
  else s

/-- HB_PACKET. -/
def execHbPacket (p : LinkFrame) (w0 w1 : Word) (s : State) : Host.Outcome State Fault Refusal :=
  .next (packetIn 1 [w0, w1] p (hbSeen w0) s)

/-- NOTICE_PACKET (R371): a class that note_cls enables takes the unit over. -/
def execNoticePacket (p : LinkFrame) (w0 : Word) (s : State) : Host.Outcome State Fault Refusal :=
  .next (packetIn 2 [w0] p (fun s =>
    let cls := fld w0 0 2
    if (s.dx.state = 3 ∨ s.dx.state = 4) ∧ 2 ≤ cls ∧ s.dx.noteCls.testBit (cls - 2) then becomeActive 3 s else s) s)

/-- VERDICT_PACKET (R345, R362): the exchange that the active has answered is over, and AGAINST_ACTIVE demotes it. -/
def execVerdictPacket (p : LinkFrame) (w0 : Word) (s : State) : Host.Outcome State Fault Refusal :=
  .next (packetIn 3 [w0] p (fun s =>
    let s := s.modDx fun d => { d with refFor := none }
    if s.dx.state = 2 ∧ fld w0 0 2 = 1 then vxAssert 33 (w32 (fld w0 2 9)) (demote 5 1 none s) else s) s)

/-- The active skipped the instant (R301, R360): it is past, no record of it is kept, and the store has not dropped one
for eight newer. -/
def instantSkipped (s : State) (c index : Nat) : Bool :=
  let l := mget [] s.dx.recs c
  indexReached (s.ctx c).lastK index && !(l.length == 8 && l.all fun r => !indexReached index r.index)

/-- A referee request reaches the active (R360): the exchange runs here until its VERDICT (R378, R379). -/
def refRequest (words : List Word) (s : State) : State :=
  let c := fld (wd words 0) 0 9
  let index := (wd words 1).toNat
  let missing := fld (wd words 10) 0 2 == 1
  if s.dx.state ≠ 2 then s
  else
    let s := s.modDx fun d => { d with refFor := some c }
    match findRec s c index with
    | none =>
      let skipped := instantSkipped s c index
      refAnswer c index (skipped && missing) true skipped s
    | some r =>
      if r.bad then refAnswer c index false false false (selfFault c s)
      else askReplay c r (.answer (if missing then none else some ((List.range 8).map fun k => wd words (2 + k)))) s

/-- REF_REQ_PACKET. -/
def execRefReqPacket (p : LinkFrame) (words : List Word) (s : State) : Host.Outcome State Fault Refusal :=
  .next (packetIn 4 words p (refRequest words) s)

/-- REF_ANS_PACKET (R360, R362). -/
def execRefAnsPacket (p : LinkFrame) (w0 w1 : Word) (s : State) : Host.Outcome State Fault Refusal :=
  .next (packetIn 5 [w0, w1] p (fun s =>
    match s.dx.ref with
    | some x =>
      if x.ctx = fld w0 0 9 ∧ x.index = w1.toNat then
        judgeExchange (s.modDx fun d => { d with ref := some { x with answer := some (bitOf w0 9) } })
      else s
    | none => s) s)

/-- CTL_PACKET (R354, R355): a standby holds the change for its instant. -/
def execCtlPacket (p : LinkFrame) (words : List Word) (s : State) : Host.Outcome State Fault Refusal :=
  .next (packetIn 7 words p (fun s =>
    let w0 := wd words 0
    if isStandby s ∧ fld w0 9 3 ≤ 4 then
      let h : CtlChange := { ctx := fld w0 0 9, op := fld w0 9 3, param := wd words 1, index := (wd words 2).toNat
                             ring := none }
      s.modDx fun d => { d with held := d.held ++ [h] }
    else s) s)

/-- RESYNC_PACKET (R367): the next snapshot of the active is full. -/
def execResyncPacket (p : LinkFrame) (w0 : Word) (s : State) : Host.Outcome State Fault Refusal :=
  .next (packetIn 8 [w0] p (fun s =>
    if s.dx.state = 2 ∧ bitOf w0 0 then s.modDx fun d => { d with fullReq := true } else s) s)

/-- REC_PACKET (R363): the first record of a context that awaits one is replayed with write-back; `after`: the active's
words 26, 29, 30 and 31 after the record's instant. -/
def execRecPacket (p : LinkFrame) (words : List Word) (s : State) (after : List Word := []) : Host.Outcome State Fault Refusal :=
  .next (packetIn 9 words p (fun s =>
    let c := fld (wd words 0) 0 9
    if isStandby s ∧ s.dx.awaitRec.contains c ∧ !(s.dx.replays.any fun r => r.ctx == c && decide (r.why = .resync)) then
      askReplay c { index := (wd words 1).toNat, words := (List.range 8).map (wd words), frame := [], after := after } .resync s
    else s) s)

/-! ## Timers -/

/-- HEARTBEAT_INTERVAL (R351, R280): an ACTIVE unit, and a SOLO device with sup_mask, sends HEARTBEAT frames. The
heartbeat count that a frame carries counts it (R272). -/
def execHeartbeatInterval (s : State) : Host.Outcome State Fault Refusal :=
  .next (
    if s.dx.state = 2 ∨ s.dx.state = 0 then
      (List.range 16).foldl (fun s n =>
        if s.dx.supMask.testBit n && bdpSends s n then
          let k := (mget 0 s.bdp.hbSeq n + 1) % 256
          let claim := if s.dx.state = 2 then s.dx.claim else 0
          let s := s.modBdp fun b => { b with hbSeq := mset b.hbSeq n k }
          bdpDue n kHeartbeat [packW [(0, 16, claim), (16, 8, k), (24, 2, b1 (s.dx.state == 2))]] s
        else s) s
    else s)

/-- CLAIM_INTERVAL (R370): every 100 ms an ACTIVE unit sends CLAIM with reason PERIODIC. -/
def execClaimInterval (s : State) : Host.Outcome State Fault Refusal :=
  .next (if s.dx.state = 2 then claimFrames 0 s else s)

/-- PAIRING_TIMEOUT (R345): the start timer has elapsed and no partner was heard, on link or bus. -/
def execPairingTimeout (s : State) : Host.Outcome State Fault Refusal :=
  .next (
    if s.dx.state = 1 ∧ s.dx.startRun then
      if s.dx.partner.isNone && !s.dx.heard then noteReasons s (becomeActive 0 s) else s.modDx fun d => { d with startRun := false }
    else s)

/-- BUS_HB_TIMEOUT (R352, R371): the bus heartbeat is lost; with the link DOWN as well, an eligible standby takes
over. -/
def execBusHbTimeout (s : State) : Host.Outcome State Fault Refusal :=
  .next (
    if s.dx.state = 1 ∨ s.dx.state = 3 ∨ s.dx.state = 4 then
      let s' := s.modDx fun d => { d with busLost := true }
      if s.dx.state ≠ 1 ∧ !s.dx.linkUp then noteReasons s (becomeActive 1 s') else s'
    else s)

/-- CMP_MISSING_TIMEOUT (R358): the oldest pending frame of context c has waited cmp_us. -/
def execCmpMissingTimeout (c : Fin 512) (s : State) : Host.Outcome State Fault Refusal :=
  .next (
    match mget [] s.dx.pend c.val with
    | p :: t =>
      if s.dx.state = 4 then mismatch c.val 1 p.index none (s.modDx fun d => { d with pend := mset d.pend c.val t }) else s
    | [] => s)

/-- REFEREE_TIMEOUT (R361): ref_tmo_us after REF_REQ; an active whose VERDICT has not come by then takes the exchange as ended
(log entry 133). -/
def execRefereeTimeout (s : State) : Host.Outcome State Fault Refusal :=
  .next (
    match s.dx.ref with
    | some x => if x.answer.isNone then refereeNone true s else s
    | none => s.modDx fun d => { d with refFor := none })

/-- RESYNC_EPOCH_LIMIT (R379): not STANDBY 10 epochs after DX_RESYNC. -/
def execResyncEpochLimit (s : State) : Host.Outcome State Fault Refusal :=
  .next (completeAll s.dx.resync eTimeout 0 0 (s.modDx fun d => { d with resync := [] }))

/-! ## Epochs and snapshots (R364 to R367) -/

/-- The epoch period in nanoseconds. -/
def epochPeriod (d : Dx) : Nat := d.epoch10us * 10000

/-- The bytes of a snapshot with an APP section of `app` units of 64 bytes. -/
def snapBytes (app : Nat) : Nat := 64 + 4096 + 16384 + 4096 + 1024 + 64 * app

/-- The CTL entry of a context. -/
def ctlEntry (x : Ctx) : List Word :=
  let w := x.word 26
  [x.word 22, packW [(0, 3, ctxCode x.state), (3, 1, fld w 4 1), (4, 2, fld w 2 2)]]

/-- TG_LATCH_ST (R321). -/
def latchStat (x : Ctx) : Word := packW [(0, 1, b1 x.valid), (1, 1, b1 x.updated), (4, 4, x.latchCh)]

/-- The CHECK entry of a unit. -/
def checkEntry (u : Unit') : List Word :=
  (List.range 4).map (ckSeqWord u) ++ [w32 u.seqV, u.run, w32 u.cnt, 0#32]

/-- The snapshot (R364): HDR with the full flag (R367), CTL, LOOP, LATCH, CHECK, APP. Where the fields of HDR stand the
manual does not say (log entry 25). -/
def snapshot (s : State) (number : Nat) (app : List Byte) : List Byte :=
  let t := s.tm.now.toNat / Nat.max 1 (epochPeriod s.dx) * epochPeriod s.dx
  let hdr := [w32 number, w32 t, w32 (t >>> 32), packW [(0, 16, s.dx.claim), (16, 1, b1 s.dx.fullReq)], 4096#32, 16384#32,
    4096#32, 1024#32, w32 (64 * s.dx.appLen), s.boot.imageId, 0, 0, 0, 0, 0, 0]
  let ctxs := (List.range 512).map s.ctx
  bytesOfWords (hdr ++ ctxs.flatMap ctlEntry ++ ctxs.flatMap (fun x => (List.range 8).map fun k => x.word (24 + k))
    ++ ctxs.flatMap (fun x => [x.latch, latchStat x]) ++ (List.range 32).flatMap (fun u => checkEntry (s.unit u)))
  ++ (List.range (64 * s.dx.appLen)).map (byteAt app)

/-- The CHUNK packets of a snapshot from chunk `k` on. -/
def chunks (number : Nat) (snap : List Byte) : Nat → Nat → List Packet
  | _, 0 => []
  | k, n + 1 =>
    { kind := 11, words := [w32 number, w32 k] ++ (List.range 1024).map fun i => wordAt snap (4096 * k + 4 * i) }
      :: chunks number snap (k + 1) n

/-- The capture of a snapshot reads words 22 and 24 to 31 of every context (R317, R364). -/
def captureReads (s : State) : State :=
  (List.range 512).foldl (fun s c => ctxCheck c [22, 24, 25, 26, 27, 28, 29, 30, 31] s) s

/-- The active's snapshot is captured and sent in chunks; COMMIT closes it when the last has left (R364). -/
def sendSnapshot (app : List Byte) (s : State) : State :=
  let number := (Nat.max s.dx.epochNo s.dx.committed + 1) % 2 ^ 32
  let s := captureReads s
  let snap := snapshot s number app
  let s := s.modDx fun d => { d with epochNo := number, fullReq := false }
  let c : Packet := { kind := 10, words := [w32 number, w32 snap.length, w32 (crc32c snap)] }
  (chunks number snap 0 ((snap.length + 4095) / 4096)).foldl (fun s p => linkSend p s)
    (s.modDx fun d => { d with commits := d.commits ++ [c], sendBad := false })

/-- EPOCH_BOUNDARY (R364 to R366): `waited` core cycles after the previous command. The active reads its app buffer (`app`,
over PCI Express) and sends its snapshot; a standby discards an epoch still unfinished. -/
def execEpochBoundary (waited : Nat) (app : Dma) (s : State) : Host.Outcome State Fault Refusal :=
  let s := passCycles waited s
  .next (
    if s.dx.state = 2 && s.dx.linkUp && s.pw.awake then
      if s.dx.appLen = 0 then sendSnapshot [] s
      else if s.dx.appSerial then sendSnapshot (stgRead s s.dx.appLo.toNat (64 * s.dx.appLen)) s
      else match app with
        | .good ws => sendSnapshot (bytesOfWords ws) s
        | .bad k _ => hostFault k s
    else if isStandby s then dropPartial s
    else s)

/-- The number of an epoch that no received packet has named: more than its 32 bits hold. -/
def unnamed : Nat := 2 ^ 32

/-- A new epoch is discarded at its first packet. -/
def lostFrom (number : Nat) (s : State) : State :=
  discardEpoch (s.modDx fun d => { d with rxEpoch := some { number := number, next := 0, bytes := [], bad := false } })

/-- A chunk of epoch `number` is lost or out of order (R365): the epoch being received is discarded, each epoch once. A
chunk that failed its CRC names none (`unnamed`), and belongs to the epoch that is already being discarded. -/
def chunkLost (number : Nat) (s : State) : State :=
  match s.dx.rxEpoch with
  | some e =>
    if !e.bad then discardEpoch s
    else if number = unnamed ∨ number = e.number then s
    else if e.number = unnamed then s.modDx fun d => { d with rxEpoch := some { e with number := number } }
    else lostFrom number s
  | none => lostFrom number s

/-- A good chunk arrives (R365). -/
def chunkSeen (number index : Nat) (data : List Byte) (s : State) : State :=
  if index = 0 then
    let s := dropPartial s
    s.modDx fun d => { d with rxEpoch := some { number := number, next := 1, bytes := data, bad := false } }
  else match s.dx.rxEpoch with
    | some e =>
      if e.number = number ∧ e.next = index then
        if e.bad then s
        else s.modDx fun d => { d with rxEpoch := some { e with next := index + 1, bytes := e.bytes ++ data } }
      else chunkLost number s
    | none => chunkLost number s

/-- CHUNK_PACKET: the words are w0, w1 and 1 024 words of data. -/
def execChunkPacket (p : LinkFrame) (words : List Word) (s : State) : Host.Outcome State Fault Refusal :=
  .next (
    let took := linkRuns s && s.dx.lane0 && s.dx.lane1 && s.dx.linkUp && isStandby s
    let s' := packetIn 11 words p (fun s =>
      if isStandby s then
        chunkSeen (wd words 0).toNat (fld (wd words 1) 0 5) (bytesOfWords ((List.range 1024).map fun k => wd words (2 + k))) s
      else s) s
    if took && !packetGood 11 words p then chunkLost unnamed s' else s')

/-! ### A committed epoch is used (R364, R366, R367) -/

/-- Words of a section of the committed snapshot. -/
def snapWord (snap : List Byte) (off k : Nat) : Word := wordAt snap (off + 4 * k)

/-- CTL is compared: a difference flags the context divergent. -/
def compareCtl (snap : List Byte) (s : State) : State :=
  (List.range 512).foldl (fun s c =>
    let s := ctxCheck c [22, 26] s
    if ctlEntry (s.ctx c) = [snapWord snap 64 (2 * c), snapWord snap 64 (2 * c + 1)] then s else flagDivergent c s) s

/-- The state of a context loaded from CTL: a DISABLING context of the active has no frame here to wait for, and is
DISABLED. -/
def loadState (v : Nat) : CtxState :=
  if v = 1 ∨ v = 3 then .disabled else if v = 2 then .enabled else if v = 4 then .failed else .unconfigured

/-- A context is loaded from CTL, LOOP and LATCH (R367). -/
def loadCtx (snap : List Byte) (c : Nat) (s : State) : State :=
  let ctl := snapWord snap 64 (2 * c + 1)
  let st := snapWord snap 20544 (2 * c + 1)
  let loop := (List.range 8).map fun k => (24 + k, snapWord snap 4160 (8 * c + k))
  s.modCtx c fun x =>
    let words := loop.foldl (fun m e => mset m e.1 e.2) (mset x.words 22 (snapWord snap 64 (2 * c)))
    let k := indexAt x s.tm.now.toNat
    let y : Ctx := { x with
      words := words, state := loadState (fld ctl 0 3), bad := [], latch := snapWord snap 20544 (2 * c)
      valid := bitOf st 0, updated := bitOf st 1, latchCh := fld st 4 4
      lastK := k - signed (unsign (k - (mget 0#32 words 28).toNat) 32) 32, pendK := none, modeReq := none, frame := none }
    put26 6 1 0 (put26 4 1 (fld ctl 3 1) (put26 2 2 (fld ctl 4 2) y))

/-- A check unit is loaded from CHECK (R367). -/
def loadUnit (snap : List Byte) (u : Nat) (s : State) : State :=
  let w := fun k => snapWord snap 24640 (8 * u + k)
  s.modUnit u fun x => { x with
    seqs := (List.range 16).map fun k => (k, fld (w (k / 4)) (8 * (k % 4)) 8)
    seqV := fld (w 4) 0 16, run := w 5, cnt := (w 6).toNat }

/-- Full resynchronisation (R367): every enabled context then awaits its record. -/
def loadFull (snap : List Byte) (s : State) : State :=
  let s := (List.range 512).foldl (fun s c => loadCtx snap c s) s
  let s := (List.range 32).foldl (fun s u => loadUnit snap u s) s
  let on := (s.tg.ctxs.filter fun e => e.2.state == .enabled).map (·.1)
  let s := s.modDx fun d => { d with awaitRec := on, divergent := [], pend := [] }
  if on.isEmpty then standbyReached s else s

/-- The sections of the committed epoch are used. -/
def useEpoch (snap : List Byte) (s : State) : State :=
  let s := if s.dx.appLen = 0 then s else
    raise 0x6E 0 [(32, s.dx.committed)]
      (hostPut s.dx.appSerial (baseOf s.dx.appLo s.dx.appHi)
        ((List.range (64 * s.dx.appLen)).map fun i => byteAt snap (25664 + i)) s)
  if s.dx.state = 3 then (if bitOf (snapWord snap 0 3) 16 then loadFull snap s else s)
  else if s.dx.state = 4 then
    let was := s.dx.divergent
    (compareCtl snap s).modDx fun d => { d with awaitRec := was }
  else s

/-- A COMMIT arrives (R365): the received data match it, or the epoch is discarded, unless it has been already. A parity error of the buffer is found
here (R377). -/
def commitSeen' (number len crc : Nat) (s : State) : State :=
  if s.dx.bufBad then discardEpoch (selfFault 0x3FF (s.modDx fun d => { d with bufBad := false, rxEpoch := none }))
  else match s.dx.rxEpoch with
    | none => discardEpoch s
    | some e =>
      let s := s.modDx fun d => { d with rxEpoch := none }
      let data := e.bytes.take len
      if e.bad && (e.number == number || e.number == unnamed) then s
      else if e.bad ∨ e.number ≠ number ∨ e.next ≠ (len + 4095) / 4096 ∨ data.length ≠ len ∨ crc32c data ≠ crc then discardEpoch s
      else useEpoch data (s.modDx fun d => { d with committed := number, commitBuf := data, commitBad := false, discRun := 0 })

/-- COMMIT_PACKET. -/
def execCommitPacket (p : LinkFrame) (w0 w1 w2 : Word) (s : State) : Host.Outcome State Fault Refusal :=
  .next (packetIn 10 [w0, w1, w2] p (fun s =>
    if isStandby s then commitSeen' w0.toNat w1.toNat w2.toNat s else s) s)

/-! ## Planned swap (R375) -/

/-- A SWAP packet: 0 PREP, 1 ACK, 2 REFUSE. -/
def sendSwap (phase : Nat) (t : DWord) (s : State) : State :=
  linkSend { kind := 6, words := [w32 phase, lo32 t, hi32 t] } s

/-- SWAP_PREP_PACKET: a STANDBY without divergent contexts answers ACK. -/
def execSwapPrepPacket (p : LinkFrame) (lo hi : Word) (s : State) : Host.Outcome State Fault Refusal :=
  .next (packetIn 6 [0#32, lo, hi] p (fun s =>
    let t := join64 lo hi
    if s.dx.state = 4 ∧ s.dx.divergent.isEmpty ∧ !s.vx.safe then
      let w : Swap := { mine := false, instant := t, acked := true, passed := false, ring := none }
      sendSwap 1 t (s.modDx fun d => { d with swap := some w })
    else sendSwap 2 t s) s)

/-- The swap that this unit started and whose instant is still to come. -/
def mySwap (s : State) : Option Swap :=
  match s.dx.swap with
  | some w => if w.mine && !w.passed then some w else none
  | none => none

/-- SWAP_ACK_PACKET. -/
def execSwapAckPacket (p : LinkFrame) (lo hi : Word) (s : State) : Host.Outcome State Fault Refusal :=
  .next (packetIn 6 [1#32, lo, hi] p (fun s =>
    match mySwap s with
    | some w => s.modDx fun d => { d with swap := some { w with acked := true } }
    | none => s) s)

/-- The swap ends before its instant: DX_SWAP completes with a status. -/
def swapAbandoned (w : Swap) (st : Nat) (s : State) : State :=
  let s := s.modDx fun d => { d with swap := none }
  match w.ring with | some r => complete r st 0 0 s | none => s

/-- SWAP_REFUSE_PACKET. -/
def execSwapRefusePacket (p : LinkFrame) (lo hi : Word) (s : State) : Host.Outcome State Fault Refusal :=
  .next (packetIn 6 [2#32, lo, hi] p (fun s =>
    match mySwap s with | some w => swapAbandoned w eState s | none => s) s)

/-- SWAP_ACK_TIMEOUT: no ACK within 1 ms. -/
def execSwapAckTimeout (s : State) : Host.Outcome State Fault Refusal :=
  .next (
    match mySwap s with
    | some w => if w.acked then s else swapAbandoned w eTimeout s
    | none => s)

/-- The instant of a swap is reached: the active demotes, abandoning a capture; the standby discards an unfinished epoch and
takes over. -/
def swapNow (w : Swap) (s : State) : State :=
  if w.mine then
    let s := if s.dx.state = 2 then demote 4 2 none s else s
    s.modDx fun d => { d with swap := some { w with passed := true }
                              txWait := d.txWait.filter fun p => p.kind != 10 && p.kind != 11, commits := [] }
  else
    let s := dropPartial (s.modDx fun d => { d with swap := none })
    if s.dx.state = 4 then becomeActive 4 s else s

/-- SWAP_INSTANT: `waited` core cycles after the previous command. -/
def execSwapInstant (waited : Nat) (s : State) : Host.Outcome State Fault Refusal :=
  let s := passCycles waited s
  .next (
    match s.dx.swap with
    | some w => if w.acked && !w.passed && decide (w.instant ≤ s.tm.now) then noteReasons s (swapNow w s) else s
    | none => s)

/-- SWAP_CLAIM_TIMEOUT: 10 ms after the instant the new claim has not been observed. -/
def execSwapClaimTimeout (s : State) : Host.Outcome State Fault Refusal :=
  .next (
    match s.dx.swap with
    | some w =>
      if w.mine && w.passed then
        let s := s.modDx fun d => { d with swap := none }
        match w.ring with | some r => complete r eTimeout 1#32 0 s | none => s
      else s
    | none => s)

/-! ## Commands (R379) -/

/-- A configuration of the duplex controller as its three words give it. -/
def dxFields (w2 w3 w4 : Word) (d : Dx) : Dx :=
  { d with pairEn := bitOf w2 0, noteCls := fld w2 2 2, hbMiss := fld w2 4 4, lkMiss := fld w2 8 4, supMask := fld w2 16 16
           epoch10us := fld w3 0 16, appLen := fld w3 16 11, cmpUs := fld w4 0 16, refTmo := fld w4 16 8 }

/-- A configuration is refused with E_PARAM (R13, R379). -/
def dxBad (s : State) (w2 w3 w4 : Word) : Bool :=
  let d := dxFields w2 w3 w4 s.dx
  bitOf w2 1 || fld w2 12 4 != 0 || fld w3 27 5 != 0 || fld w4 24 8 != 0
  || decide (d.hbMiss < 2) || decide (d.lkMiss < 2) || decide (d.epoch10us < 25 ∨ 10000 < d.epoch10us)
  || decide (1135 < d.appLen) || decide (d.cmpUs < 100) || decide (d.refTmo < 10)
  || (d.pairEn && d.supMask == 0) || (d.pairEn && devAddr s % 2 != s.dx.unit)
  || (List.range 16).any fun n => d.supMask.testBit n && !bdpEn s n

/-- The snapshot would not fit the epoch period (R379). -/
def dxCap (w3 : Word) : Bool :=
  decide (90 * fld w3 0 16 < (snapBytes (fld w3 16 11) + 4095) / 4096 * 165)

/-- pair_en or sup_mask may not change now (R379). -/
def dxFixed (s : State) (w2 : Word) : Bool :=
  let d := s.dx
  (bitOf w2 0 != d.pairEn || fld w2 16 16 != d.supMask) && d.state != 0
  && !(!bitOf w2 0 && (d.state == 1 || d.state == 5))

/-- The unit is paired: PAIRING, a STANDBY role (R344), with its start timer running (R345). -/
def startPairing (s : State) : State :=
  (List.range 16).foldl (fun s n => recheck n (purgeDemoted n s))
    (stopOwn (s.modDx fun d => { d with state := 1, startRun := true, heard := false, partner := none, busLost := false }))

/-- The unit is unpaired: SOLO, and the link stops (R345, R348). -/
def unpair (s : State) : State :=
  let s := s.modDx fun d => { d with
    state := 0, startRun := false, linkUp := false, lane0 := false, lane1 := false, txNow := none, txWait := []
    partner := none, pend := [], divergent := [], awaitRec := [], ref := none, rxEpoch := none, swap := none
    commits := [], refFor := none, replays := [] }
  vxLevelOff 31 s

/-- The duplex configuration takes effect. -/
def setDx (w2 w3 w4 lo hi : Word) (serial : Bool) (s : State) : State :=
  let was := s.dx.pairEn
  let s := s.modDx fun d => { dxFields w2 w3 w4 d with appLo := lo, appHi := hi, appSerial := serial }
  if s.dx.pairEn && !was then startPairing s
  else if !s.dx.pairEn && was then unpair s else s

/-- 0x68 DX_CONFIG; `re`: with reinit. -/
def dxConfigBody (r : Nat) (re : Bool) (ws : List Word) (s : State) : State :=
  let gen := fld (wd ws 7) 0 15
  let app := fld (wd ws 3) 16 11
  if dxBad s (wd ws 2) (wd ws 3) (wd ws 4) ∨ fld (wd ws 7) 15 17 ≠ 0 ∨ (re ∧ gen = 0)
      ∨ (app ≠ 0 ∧ !addrOk s r (wd ws 5) (wd ws 6) (64 * app)) then complete r eParam 0 0 s
  else if dxCap (wd ws 3) then complete r eCap 0 0 s
  else if dxFixed s (wd ws 2) ∨ (re ∧ s.dx.state ≠ 2) then complete r eState 0 0 s
  else
    let s := setDx (wd ws 2) (wd ws 3) (wd ws 4) (wd ws 5) (wd ws 6) (ringSerial s r) s
    let s := if re then
        let v := gen * 2 + s.dx.unit
        claimFrames 3 ((setClaim v s).modDx fun d => { d with highest := v })
      else s
    complete r stOk (dxCfg s.dx) (dxClaim s.dx) s

/-- The opcode of a DX_CONFIG packet and its reinit flag. -/
def isDxConfig (re : Bool) (ws : List Word) : Bool := pOpcode ws == 0x68 && bitOf (wd ws 0) 8 == re

/-- DX_CONFIG. -/
def execDxConfig (r : Fin 4) (s : State) : Host.Outcome State Fault Refusal :=
  .next (beginWhen r.val (isDxConfig false) (fun ws s => noteReasons s (dxConfigBody r.val false ws s)) s)

/-- DX_REINIT. -/
def execDxReinit (r : Fin 4) (s : State) : Host.Outcome State Fault Refusal :=
  .next (beginWhen r.val (isDxConfig true) (dxConfigBody r.val true) s)

/-- 0x69 DX_SWAP (R375). -/
def dxSwapBody (r : Nat) (s : State) : State :=
  let ready := match s.dx.partner with | some p => p.state == 4 | none => false
  if s.dx.state ≠ 2 ∨ !s.dx.linkUp ∨ !ready then complete r eState 0 0 s
  else if s.dx.swap.isSome ∨ s.dx.ref.isSome ∨ s.dx.refFor.isSome ∨ (s.dx.replays.any fun x => decide (x.why ≠ .resync)) then
    complete r eBusy 0 0 s
  else
    let t := s.tm.now + 1000000#64
    let w : Swap := { mine := true, instant := t, acked := false, passed := false, ring := some r }
    sendSwap 0 t (s.modDx fun d => { d with swap := some w })

/-- DX_SWAP. -/
def execDxSwap (r : Fin 4) (s : State) : Host.Outcome State Fault Refusal :=
  .next (beginOp r.val 0x69 (fun _ s => dxSwapBody r.val s) s)

/-- DX_STATUS. -/
def execDxStatus (r : Fin 4) (s : State) : Host.Outcome State Fault Refusal :=
  .next (beginOp r.val 0x6A (fun _ s => complete r.val stOk (dxStat s.dx) (dxClaim s.dx) s) s)

/-- 0x6B DX_RESYNC (R345, R379): a STANDBY_FAULT unit resynchronises; a unit that is STANDBY already has nothing to
wait for. -/
def dxResyncBody (r : Nat) (s : State) : State :=
  if s.dx.state = 0 ∨ s.dx.state = 2 ∨ !s.dx.linkUp then complete r eState 0 0 s
  else if s.dx.state = 4 then complete r stOk (w32 s.dx.committed) 0 s
  else
    let s := if s.dx.state = 5 then enterSync s else s
    s.modDx fun d => { d with resync := d.resync ++ [r] }

/-- DX_RESYNC. -/
def execDxResync (r : Fin 4) (s : State) : Host.Outcome State Fault Refusal :=
  .next (beginOp r.val 0x6B (fun _ s => dxResyncBody r.val s) s)

end Sys2Proof.Machine
end

