-- ==== Sys2Proof/Machine/Margin.lean ====
section
/-!
DEFINITION. The margin planner (chapter 17): margins, steps, guard band, recommendations and alarms at the end of a cycle, the
application of steps, and the planner's commands.
-/
namespace Sys2Proof.Machine

/-! ## Sample points and items (R465, R466) -/

/-- tq per bit of a data-phase register (R53). -/
def datTq (w : Word) : Nat := 3 + fld w 8 7 + fld w 16 6
/-- tq per bit of CH_BTIM_NOM (R52). -/
def nomTq (w : Word) : Nat := 3 + fld w 10 8 + fld w 18 7

/-- The value in force of an item (R467): 0 FD and 1 XL sample point (1 + tseg1), 2 FD and 3 XL tdc_offset. -/
def itemValue (c : Chan) (item : Nat) : Nat :=
  match item with
  | 0 => fld c.dat 8 7 + 2
  | 1 => fld c.xl 8 7 + 2
  | 2 => fld c.tdcFd 8 8
  | _ => fld c.tdcXl 8 8

/-- The bit of MP_CH_PLAN at which an item's plan stands. -/
def planBit (item : Nat) : Nat := match item with | 0 => 16 | 1 => 24 | 2 => 0 | _ => 8

/-- The plan of an item. -/
def itemPlan (s : State) (n item : Nat) : Nat := fld (mpPlan s n) (planBit item) 8

/-- A data-phase register with the sample point at `v` tq; tseg1 + tseg2 stays (R60). -/
def withSp (w : Word) (v : Nat) : Word :=
  putFld (putFld w 8 7 (v - 2)) 16 6 (fld w 8 7 + fld w 16 6 - (v - 2))

/-- A channel with an item's value in force. -/
def setItem (item v : Nat) (c : Chan) : Chan :=
  match item with
  | 0 => { c with dat := withSp c.dat v }
  | 1 => { c with xl := withSp c.xl v }
  | 2 => { c with tdcFd := putFld c.tdcFd 8 8 v }
  | _ => { c with tdcXl := putFld c.tdcXl 8 8 v }

/-- The periods in one unit of an item: a sample point is set in time quanta, a tdc_offset in periods (R53, R56). -/
def itemUnit (c : Chan) (item : Nat) : Nat :=
  match item with
  | 0 => fld c.dat 0 5 + 1
  | 1 => fld c.xl 0 5 + 1
  | _ => 1

/-- MP_CH_STAT shows the sample-point offsets of channel n from the plan, in periods. -/
def noteOffsets (n : Nat) (s : State) : State :=
  let c := s.chan n
  let off := fun (item : Nat) => unsign (((itemValue c item : Int) - itemPlan s n item) * itemUnit c item) 8
  s.modMp fun m => { m with chStat := mset m.chStat n (putFld (putFld (mpStat s n) 0 8 (off 0)) 8 8 (off 1)) }

/-- The position in milli-bit-times at which a record of a slot and phase is judged: the sample point, or the SSP for the own
loop (R465). -/
def judgedAt (s : State) (n slot phase : Nat) (c : Chan) : Int :=
  if slot = 256 then milliBits (itemValue c (phase + 1)) (phaseBits s n phase)
  else if phase = 0 then milliBits (fld c.nom 10 8 + 2 : Nat) (nomTq c.nom)
  else milliBits (itemValue c (phase - 1)) (datTq (if phase = 1 then c.dat else c.xl))

/-- The margin of a record (R465). -/
def marginAt (sp : Int) (h : Hist) : Int := min (sp - h.eMax) (h.eMin + 1000 - sp)

/-- A channel's records of a cycle: slot, phase, record. -/
def recordsOf (m : List (Nat × Hist)) (n : Nat) : List (Nat × Nat × Hist) :=
  (m.filter fun e => e.1 / 3 / 257 == n).map fun e => (e.1 / 3 % 257, e.1 % 3, e.2)

/-- The records of channel n's open cycle with at least min_edges edges. -/
def qualifying (s : State) (n : Nat) : List (Nat × Nat × Hist) :=
  (recordsOf s.mp.cur n).filter fun e => decide (fld (mpChCfg s n) 16 8 ≤ e.2.2.count)

/-- The smallest of a list of integers. -/
def minInt : List Int → Option Int
  | [] => none
  | a :: t => match minInt t with | some b => some (min a b) | none => some a

/-- The smallest margin of records of channel n, with its settings as in `c`. -/
def leastMargin (s : State) (n : Nat) (c : Chan) (l : List (Nat × Nat × Hist)) : Option Int :=
  minInt (l.map fun e => marginAt (judgedAt s n e.1 e.2.1 c) e.2.2)

/-- The phase of an item. -/
def itemPhase (item : Nat) : Nat := if item = 0 ∨ item = 2 then 1 else 2

/-- The records by which an item is judged (R466): those of received frames for a sample point, the own loop for a
tdc_offset. -/
def itemRecords (s : State) (n item : Nat) : List (Nat × Nat × Hist) :=
  (qualifying s n).filter fun e => e.2.1 == itemPhase item && (e.1 == 256) == decide (2 ≤ item)

/-- The smallest e_min and the largest e_max of records. -/
def spreadOf (l : List (Nat × Nat × Hist)) : Option (Int × Int) :=
  match minInt (l.map fun e => e.2.2.eMin), minInt (l.map fun e => -e.2.2.eMax) with
  | some lo, some hi => some (lo, -hi)
  | _, _ => none

/-- The target of an item, in periods (R466). -/
def itemTarget (s : State) (n item : Nat) : Option Int :=
  (spreadOf (itemRecords s n item)).map fun e => roundDiv ((e.1 + e.2 + 1000) * phaseBits s n (itemPhase item)) 2000

/-- The smallest margin of an item's records with the item at `p` periods (R465). -/
def itemMargin (s : State) (n item : Nat) (p : Int) : Option Int :=
  minInt ((itemRecords s n item).map fun e => marginAt (milliBits p (phaseBits s n (itemPhase item))) e.2.2)

/-- The limits of an item allow the value `v` (R466), which one period is a step to. -/
def itemAllows (s : State) (n item : Nat) (v : Int) : Bool :=
  let c := s.chan n
  let cfg := mpChCfg s n
  let plan := itemPlan s n item
  if 2 ≤ item then decide (0 ≤ v ∧ v ≤ 255 ∧ v ≤ plan + fld cfg 12 4 ∧ plan ≤ v + fld cfg 12 4)
  else
    let w := if item = 0 then c.dat else c.xl
    let sjw := fld w 24 6 + 1
    decide (v ≤ plan + fld cfg 8 4 ∧ plan ≤ v + fld cfg 8 4 ∧ (sjw + 1 : Nat) ≤ v ∧ v + sjw ≤ datTq w)

/-- The value that an item would step to: one period toward its target, when that raises the margin (R467). A sample point
whose unit is more than a period cannot move by at most one (log entry 92). -/
def itemStep (s : State) (n item : Nat) : Option Int :=
  let v : Int := itemValue (s.chan n) item
  match itemTarget s n item with
  | none => none
  | some t =>
    if t = v ∨ 1 < itemUnit (s.chan n) item then none
    else
      let v' := if v < t then v + 1 else v - 1
      match itemMargin s n item v, itemMargin s n item v' with
      | some a, some b => if a < b then some v' else none
      | _, _ => none

/-- The planner's step of one item at the end of a cycle (R467). -/
def planItem (n item : Nat) (s : State) : State :=
  if !bitOf (mpChCfg s n) (if 2 ≤ item then 1 else 0) then s
  else match itemStep s n item with
    | none => s
    | some v =>
      if itemAllows s n item v then
        s.modMp fun m => { m with
          steps := m.steps.filter (fun t => !(t.ch == n && t.item == item)) ++ [{ ch := n, item := item, value := v.toNat }] }
      else if s.mp.told.contains (n, item) then s
      else raise 0x7F n [(8, n), (8, item)] (s.modMp fun m => { m with told := m.told ++ [(n, item)] })

/-! ## Application (R467, R468) -/

/-- A planned step is applied: 0x7C MP_ADJUSTED. -/
def applyStep (t : MpStep) (s : State) : State :=
  let s := noteOffsets t.ch (s.modChan t.ch (setItem t.item t.value))
  let s := s.modMp fun m => { m with told := m.told.filter fun e => decide (e ≠ (t.ch, t.item)) }
  raise 0x7C t.ch [(8, t.ch), (8, t.item), (32, t.value)] s

/-- The plan of channel n is restored (R475); items that move so are told of anew (R467). -/
def restorePlan (n : Nat) (s : State) : State :=
  let s := s.modMp fun m => { m with told := m.told.filter fun e => e.1 != n || itemValue (s.chan n) e.2 == itemPlan s n e.2 }
  noteOffsets n ((List.range 4).foldl (fun s item => s.modChan n (setItem item (itemPlan s n item))) s)

/-- Steps and restorations of channel n that wait are applied between frames (R468); a REVERT discards the steps
(R475). -/
def applySteps (n : Nat) (s : State) : State :=
  if frameOnWire s n then s
  else
    let now := s.mp.steps.filter fun t => t.ch == n
    let back := s.mp.reverts.contains n
    let s := s.modMp fun m => { m with steps := m.steps.filter fun t => t.ch != n
                                       reverts := m.reverts.filter (· != n) }
    if back then restorePlan n s else now.foldl (fun s t => applyStep t s) s

/-- MP_STEP_APPLY. -/
def execMpStepApply (ch : Fin 16) (s : State) : Host.Outcome State Fault Refusal :=
  .next (if s.vx.safe || !s.pw.awake then s else applySteps ch.val s)

/-! ## The end of a cycle (R458) -/

/-- The silicon, the supply and the temperature as read at the end of a cycle (R464, R473): the first sample since reset is the
highest Tj so far. -/
def takeSample (x : MpSample) (s : State) : State :=
  let slow := x.ros.foldl (fun a e => max a e.2) (0 : Int)
  let tmax := if s.mp.ros.isEmpty then x.tj else max x.tj (signed (fld s.mp.env 8 8) 8)
  s.modMp fun m => { m with
    ros := (List.range 8).map fun k =>
      (k, packW [(0, 16, unsign ((x.ros.getD k (0, 0)).2) 16), (16, 16, (x.ros.getD k (0, 0)).1)])
    env := packW [(0, 8, unsign x.tj 8), (8, 8, unsign tmax 8), (16, 10, x.vmin)]
    guard := putFld m.guard 16 16 (Nat.max (fld m.guard 16 16) (Nat.min 0xFFFF slow.toNat)) }

/-- MP_CH_DLY at the end of a cycle (R463, R473). -/
def closeDelay (n : Nat) (s : State) : State :=
  let w := match s.mp.delays.find? fun e => e.1 == n with
    | some (_, lo, hi, sum, cnt) => packW [(0, 8, Nat.min 255 lo), (8, 8, Nat.min 255 hi), (16, 12, sum * 16 / Nat.max 1 cnt)]
    | none => 0#32
  s.modMp fun m => { m with chDly := mset m.chDly n w }

/-- The channel margin (R465). -/
def channelMargin (s : State) (n : Nat) : Option Int := leastMargin s n (s.chan n) (qualifying s n)

/-- MP_CH_STAT margin. -/
def closeMargin (n : Nat) (s : State) : State :=
  let v := match channelMargin s n with | some m => unsign m 16 | none => 0x7FFF
  s.modMp fun m => { m with chStat := mset m.chStat n (putFld (mpStat s n) 16 16 v) }

/-- A guard step is wanted: one for each 0.5 % of slowdown (R469). -/
def guardWant (s : State) : Nat := fld s.mp.guard 16 16 / 50
/-- Guard steps in force. -/
def guardSteps (s : State) : Nat := fld s.mp.guard 1 3

/-- The under-voltage threshold of the VDD_CORE monitor in 0.1 mV with `k` guard steps (R469, R552). -/
def coreThreshold (k : Nat) : Nat := 7475 + 25 * k

/-- The thresholds of source 27 + k in 0.1 mV, under and over (R552). -/
def supplyThresholds (s : State) (k : Nat) : Nat × Nat :=
  if k = 0 then (coreThreshold (guardSteps s), 8600) else if k = 1 then (30000, 36000) else (16200, 19800)

/-- A guard want that the 765 mV cap refuses (R469, R552). -/
def guardCapped (s : State) : Bool :=
  bitOf s.mp.guard 0 && decide (guardSteps s < guardWant s) && decide (7650 < coreThreshold (guardSteps s + 1))

/-- The guard rises by at most one step per cycle. -/
def planGuard (s : State) : State :=
  if bitOf s.mp.guard 0 && decide (guardSteps s < guardWant s) && !guardCapped s then
    let k := guardSteps s + 1
    raise 0x7C 0 [(8, 0), (8, 4), (32, k)] (s.modMp fun m => { m with guard := putFld m.guard 1 3 k })
  else s

/-- The codes of R474 with the bit length in periods of the worked data-phase settings of the phase, highest rate first
(R53, R470). -/
def workedRates (phase : Nat) : List (Nat × Nat) :=
  if phase = 1 then [(3, 30), (2, 48), (1, 120)] else [(5, 12), (4, 24), (3, 30), (2, 48)]

/-- The recommended rate of a data phase, or 0 (R470). -/
def recommendRate (s : State) (n phase : Nat) : Nat :=
  let warn : Int := fld (mpChLim s n) 0 16
  let low := match leastMargin s n (s.chan n) ((qualifying s n).filter fun e => e.2.1 == phase) with
    | some m => decide (m < warn)
    | none => false
  match low, spreadOf ((qualifying s n).filter fun e => e.2.1 == phase && e.1 != 256) with
  | true, some (lo, hi) =>
    let t := phaseBits s n phase
    match (workedRates phase).find? fun e => decide (t < e.2)
        && decide (2 * warn * e.2 ≤ 1000 * (e.2 : Int) - (hi - lo) * t) with
    | some e => e.1
    | none => 0
  | _, _ => 0

/-- nom_sp (R470): the centred nominal sample point in tq within the sjw rule, or 0. -/
def recommendNom (s : State) (n : Nat) : Nat :=
  let l := (qualifying s n).filter fun e => e.2.1 == 0
  let low := match leastMargin s n (s.chan n) l with
    | some m => decide (m < (fld (mpChLim s n) 0 16 : Int))
    | none => false
  match low, spreadOf l with
  | true, some (lo, hi) =>
    let w := (s.chan n).nom
    let sjw := fld w 25 7 + 1
    (clampI (sjw + 1 : Nat) ((nomTq w : Int) - sjw) (roundDiv ((lo + hi + 1000) * nomTq w) 2000)).toNat
  | _, _ => 0

/-- MP_CH_REC of channel n (R470): a change raises 0x7D MP_RECOMMEND. -/
def recommend (n : Nat) (s : State) : State :=
  let w := if bitOf (mpChCfg s n) 2 then
      packW [(0, 3, recommendRate s n 1), (3, 3, recommendRate s n 2), (16, 9, recommendNom s n)]
    else 0#32
  if w = mget 0#32 s.mp.chRec n then s
  else raise 0x7D n [(8, n), (32, w.toNat)] (s.modMp fun m => { m with chRec := mset m.chRec n w })

/-- The alarm conditions that hold at the end of a cycle, as (kind, channel) (R471). -/
def alarmsNow (s : State) : List (Nat × Nat) :=
  ((List.range 16).filter fun n => match channelMargin s n with
    | some m => decide (m < (fld (mpChLim s n) 16 16 : Int))
    | none => false).map (fun n => (0, n))
  ++ (if fld s.mp.guard 8 8 * 10 < fld s.mp.guard 16 16 then [(1, 0)] else [])
  ++ (if guardCapped s then [(2, 0)] else [])

/-- Source 40 asserts, with 0x7E MP_ALARM (R471). -/
def mpAlarm (a : Nat × Nat) (s : State) : State :=
  vxAssert 40 (packW [(0, 16, a.2), (16, 16, a.1)]) (raise 0x7E a.2 [(8, a.1), (8, a.2)] s)

/-- Data-phase edges of a slot of channel n in the open cycle. -/
def slotEdges (s : State) (n slot : Nat) : Nat :=
  (mget Hist.reset s.mp.cur (histKey n slot 1)).count + (mget Hist.reset s.mp.cur (histKey n slot 2)).count

/-- The MARGIN_PROBE of a cycle on channel n (R472). -/
def probe (n : Nat) (s : State) : State :=
  if (s.chan n).state == .active && bdpEn s n && (s.dx.state == 0 || s.dx.state == 2) then
    let few := (s.mp.senders.filter fun e => e.1 == n && decide (slotEdges s n (e.2 % 256) < fld (mpChCfg s n) 16 8)).map (·.2)
    match leastOf few with
    | some a => bdpDue n kProbe [packW [(0, 12, a), (16, 5, 16)]] s
    | none => s
  else s

/-- Applies a change for each of the 16 channels. -/
def forChans (f : Nat → State → State) (s : State) : State := (List.range 16).foldl (fun s n => f n s) s

/-- A planning cycle ends (R458). -/
def cycleEnd (x : MpSample) (s : State) : State :=
  let s := forChans (fun n s => closeMargin n (closeDelay n s)) (takeSample x s)
  let s := forChans (fun n s => (List.range 4).foldl (fun s item => planItem n item s) s) s
  let capped := guardCapped s
  let s := forChans recommend (if capped then s else planGuard s)
  let now := (alarmsNow s).filter fun a => a.1 != 2 || capped
  let was := s.mp.alarms
  let s := (now.filter fun a => !was.contains a).foldl (fun s a => mpAlarm a s) (s.modMp fun m => { m with alarms := now })
  let s := if bitOf s.mp.cfg 1 then forChans probe s else s
  s.modMp fun m => { m with last := m.cur, cur := [], delays := [], toStore := true }

/-- The planner has something to write in its turn of the housekeeping slot (R32): the record of a cycle that has ended (log entry
115). -/
def plannerDue (s : State) : Bool := s.mp.toStore

/-- The planner's turn: the record is written. -/
def plannerTurn (s : State) : State := s.modMp fun m => { m with toStore := false }

/-- PLANNING_CYCLE_END. -/
def execPlanningCycleEnd (x : MpSample) (s : State) : Host.Outcome State Fault Refusal :=
  .next (if bitOf s.mp.cfg 0 && !s.vx.safe && s.pw.awake then cycleEnd x s else s)

/-! ## Commands (R475) -/

/-- A report record. -/
def reportWords (s : State) (n : Nat) (e : Nat × Nat × Hist) : List Word :=
  let h := e.2.2
  [packW [(0, 9, e.1), (9, 2, e.2.1), (16, 16, h.count)], packW [(0, 16, unsign h.eMin 16), (16, 16, unsign h.eMax 16)],
   w32 (unsign (marginAt (judgedAt s n e.1 e.2.1 (s.chan n)) h) 16), 0#32]
  ++ (List.range 4).map fun k => packW [(0, 16, h.bins.getD (2 * k) 0), (16, 16, h.bins.getD (2 * k + 1) 0)]

/-- 0x7C MP_REPORT: the records of the last completed cycle of the slots asked for, then those of the own loop; `clear` clears
what was reported. -/
def mpReportBody (r : Nat) (ws : List Word) (s : State) : State :=
  let n := fld (wd ws 1) 0 4
  let first := fld (wd ws 4) 0 8
  let count := fld (wd ws 4) 8 9
  let take := fun (slot : Nat) => slot == 256 || (decide (first ≤ slot) && decide (slot < first + count))
  let l := (recordsOf s.mp.last n).filter fun e => take e.1 && e.2.2.count != 0
  if count = 0 ∨ 256 < first + count ∨ !addrOk s r (wd ws 2) (wd ws 3) (32 * l.length) then complete r eParam 0 0 s
  else
    let s := dataOut r (wd ws 2) (wd ws 3) (l.flatMap (reportWords s n)) s
    let s := if bitOf (wd ws 0) 8 then
        s.modMp fun m => { m with last := m.last.filter fun e => !(e.1 / 3 / 257 == n && take (e.1 / 3 % 257)) }
      else s
    complete r stOk (mpStat s n) (w32 l.length) s

/-- MP_REPORT. -/
def execMpReport (r : Fin 4) (s : State) : Host.Outcome State Fault Refusal :=
  .next (beginOp r.val 0x7C (mpReportBody r.val) s)

/-- The opcode and op of an MP_APPLY packet. -/
def isMpApply (f : Nat → Bool) (ws : List Word) : Bool := pOpcode ws == 0x7D && f (fld (wd ws 2) 0 2)

/-- FOLD; op 3 is refused. -/
def mpFoldBody (r : Nat) (ws : List Word) (s : State) : State :=
  let n := fld (wd ws 1) 0 4
  if fld (wd ws 2) 0 2 = 3 then complete r eParam 0 0 s
  else
    let c := s.chan n
    let plan := packW ((List.range 4).map fun item => (planBit item, 8, itemValue c item))
    let s := noteOffsets n (s.modMp fun m => { m with chPlan := mset m.chPlan n plan })
    complete r stOk (mpPlan s n) 0 s

/-- MP_FOLD. -/
def execMpFold (r : Fin 4) (s : State) : Host.Outcome State Fault Refusal :=
  .next (beginWhen r.val (isMpApply fun op => op == 0 || op == 3) (mpFoldBody r.val) s)

/-- REVERT: at once on an idle bus, otherwise at the next gap between frames. -/
def mpRevertBody (r : Nat) (ws : List Word) (s : State) : State :=
  let n := fld (wd ws 1) 0 4
  let s := applySteps n (s.modMp fun m => { m with reverts := if m.reverts.contains n then m.reverts else m.reverts ++ [n] })
  complete r stOk (mpPlan s n) 0 s

/-- MP_REVERT. -/
def execMpRevert (r : Fin 4) (s : State) : Host.Outcome State Fault Refusal :=
  .next (beginWhen r.val (isMpApply fun op => op == 1) (mpRevertBody r.val) s)

/-- NOM_SP: nom_sp becomes the nominal sample point of a STOPPED channel. -/
def mpNomSpBody (r : Nat) (ws : List Word) (s : State) : State :=
  let n := fld (wd ws 1) 0 4
  let sp := fld (mget 0#32 s.mp.chRec n) 16 9
  if (s.chan n).state ≠ .stopped then complete r eState 0 0 s
  else if sp = 0 then complete r eNotFound 0 0 s
  else
    let s := s.modChan n fun c =>
      { c with nom := putFld (putFld c.nom 10 8 (sp - 2)) 18 7 (fld c.nom 10 8 + fld c.nom 18 7 - (sp - 2)) }
    complete r stOk (mpPlan s n) 0 s

/-- MP_NOM_SP. -/
def execMpNomSp (r : Fin 4) (s : State) : Host.Outcome State Fault Refusal :=
  .next (beginWhen r.val (isMpApply fun op => op == 2) (mpNomSpBody r.val) s)

end Sys2Proof.Machine
end

