-- ==== Sys2Proof/Machine/Vertex.lean ====
section
/-!
DEFINITION. Vertex at work (chapter 14, R551, R552): the monitors that assert level sources, the end of tag windows, the lines to
the supervisor, clearing, proof and factory tests, and the class map.
-/
namespace Sys2Proof.Machine

/-! ## Monitors (R384, R402, R552) -/

/-- PLL_LOCK_LOSS: level source 25. -/
def execPllLockLoss (s : State) : Host.Outcome State Fault Refusal := .next (vxLevelOn 25 0 s)

/-- CLOCK_MONITOR_FAULT: source 26 with the clocks found faulty, [0] core, [1] reference, [2] always-on. -/
def execClockMonitorFault (clocks : Fin 8) (s : State) : Host.Outcome State Fault Refusal :=
  .next (vxLevelOn 26 (w32 clocks.val) s)

/-- CLOCK_MONITOR_RECOVERED: source 26 deasserts. -/
def execClockMonitorRecovered (s : State) : Host.Outcome State Fault Refusal := .next (vxLevelOff 26 s)

/-- SUPPLY_EXCURSION: VDD_CORE (0), VDD_IO (1) or VDD_SER (2) under or over its threshold, sources 27 to 29. -/
def execSupplyExcursion (supply : Fin 3) (high : Bool) (s : State) : Host.Outcome State Fault Refusal :=
  .next (vxLevelOn (27 + supply.val) (if high then 2#32 else 1#32) s)

/-- TEMPERATURE_ALARM: source 30. -/
def execTemperatureAlarm (s : State) : Host.Outcome State Fault Refusal := .next (vxLevelOn 30 0 s)

/-- MONITOR_DEASSERT: the level of source 27 + k is back within its thresholds. -/
def execMonitorDeassert (k : Fin 4) (s : State) : Host.Outcome State Fault Refusal := .next (vxLevelOff (27 + k.val) s)

/-- COMPLEMENT_MISMATCH (R402): source 62 with the register offset; the reaction latch is set whatever the class map
says. -/
def execComplementMismatch (off : Fin 4096) (s : State) : Host.Outcome State Fault Refusal :=
  .next (enterSafe (vxLevelOn 62 (w32 off.val) (s.modVx fun v => { v with cplErr := true })))

/-! ## Tag windows and ALIVE (R394, R396, R400) -/

/-- SAFE_STATE_COMPLETE: the pad drivers acknowledge. -/
def execSafeStateComplete (s : State) : Host.Outcome State Fault Refusal :=
  .next (if s.vx.safe then s.modVx fun v => { v with safeDone := true } else s)

/-- The list without the first window whose reset has completed: that of the device completes with the safe state. -/
def closeWindow (done : Bool) : List (Target × List Nat) → List (Target × List Nat)
  | [] => []
  | w :: t => if w.1 = .device ∧ !done then w :: closeWindow done t else t

/-- TAG_WINDOW_END: 64 core cycles after a reset has completed. -/
def execTagWindowEnd (s : State) : Host.Outcome State Fault Refusal :=
  .next (s.modVx fun v => { v with windows := closeWindow v.safeDone v.windows })

/-- ALIVE toggles now: it runs and the core clock runs. -/
def aliveOn (s : State) : Bool := aliveRuns s && timeRuns s

/-- The level of ALIVE. -/
def aliveLevel (s : State) : Bool := s.vx.alivePin && aliveOn s

/-- ALIVE_TOGGLE. -/
def execAliveToggle (s : State) : Host.Outcome State Fault Refusal :=
  .next (s.modVx fun v => { v with alivePin := aliveOn s && !v.alivePin })

/-- ALIVE_TIMEOUT: the always-on domain drives ALIVE low. -/
def execAliveTimeout (s : State) : Host.Outcome State Fault Refusal :=
  .next (s.modVx fun v => { v with alivePin := false })

/-- SAFE_N is driven low (R399). -/
def safeNLow (s : State) : Bool := s.vx.safe || !inService s || s.boot.inReset

/-- The level of SAFE_N (R399): high-impedance while the device is unpowered, as in HIBERNATE (R418). -/
def safeNPin (s : State) : PinLevel := if !ioPowered s then .highZ else if safeNLow s then .low else .high

/-! ## Registers (R409) -/

/-- A target of a class-2 reaction or of the safe state is forced. -/
def reactBit (s : State) (t : Target) : Nat := b1 (forcedSafe s t)

/-- VX_STATE. -/
def vxState (s : State) : Word :=
  packW [(0, 2, worst s), (2, 1, b1 s.vx.safe), (3, 1, b1 s.vx.testMode), (4, 1, b1 (aliveOn s)), (5, 1, b1 s.vx.cplErr)]

/-- VX_REACT. -/
def vxReact (s : State) : Word :=
  packW ((List.range 16).map (fun n => (n, 1, reactBit s (.chan n)))
    ++ [(16, 1, reactBit s .chord), (17, 1, reactBit s .tangent), (18, 1, reactBit s .check), (19, 1, reactBit s .duplex),
        (20, 1, b1 s.vx.safe)])

/-- VX_CONSEQ. -/
def vxConseq (v : Vx) : Word := packW [(0, 16, v.conseq), (16, 1, b1 (!v.windows.isEmpty)), (17, 6, v.conseqLast)]

/-! ## Clearing (R392, R403, R404) -/

/-- A class-2 reaction on a target is lifted. -/
def liftTarget (t : Target) (s : State) : State :=
  match t with
  | .chan n => chanFree n s
  | .duplex => linkKick s
  | _ => s

/-- The cause of source `i` is gone and its bit may be cleared (R403). -/
def mayClear (s : State) (i : Nat) : Bool :=
  !bitOf64 s.vx.level i && (!bitOf64 s.vx.genuine3 i || bitOf64 s.vx.inj i)

/-- Clears the bit of source `i` with its injected mark. -/
def clearBit (i : Nat) (s : State) : State :=
  s.modVx fun v => { v with stat := putBit64 v.stat i false, inj := putBit64 v.inj i false
                            genuine3 := putBit64 v.genuine3 i false, held := v.held.filter fun h => h.1 != i }

/-- The targets that are no longer held are lifted. -/
def liftGone (was : List (Nat × Target)) (s : State) : State :=
  was.foldl (fun s h => if heldBy s h.2 then s else liftTarget h.2 s) s

/-- The records that the flags of VX_CLEAR name are cleared (R390, R403). -/
def clearRecords (first conseq last3 : Bool) (s : State) : State :=
  let s := s.modVx fun v => if first && !bitOf64 v.stat v.fSource then
    { v with fValid := false, fSource := 0, fClass := 0, fInjected := false, fOverflow := false, fInfo := 0, fTime := 0 }
    else v
  let s := if conseq then s.modVx fun v => { v with conseq := 0 } else s
  if last3 then s.modRet fun r => { r with last3 := putFld r.last3 6 1 0 } else s

/-- 0x71 VX_CLEAR. -/
def vxClearBody (r : Nat) (ws : List Word) (s : State) : State :=
  let mask := join64 (wd ws 2) (wd ws 3)
  if mask = 0#64 ∧ pFlags ws = 0 then complete r eParam 0 0 s
  else
    let was := s.vx.held
    let bits := (List.range 64).filter fun i => bitOf64 mask i && bitOf64 s.vx.stat i && mayClear s i
    let s := bits.foldl (fun s i => clearBit i s) s
    let s := if bits.contains 41 then (List.range 16).foldl (fun s n => ceilClear n s) s else s
    let s := clearRecords (bitOf (wd ws 0) 8) (bitOf (wd ws 0) 9) (bitOf (wd ws 0) 10) s
    let s := liftGone was s
    let s := if bits.isEmpty then s else raise 0x74 0 [(16, bits.length)] s
    let left := mask &&& s.vx.stat
    complete r (if left = 0#64 then stOk else eState) (lo32 left) (hi32 left) s

/-- VX_CLEAR. -/
def execVxClear (r : Fin 4) (s : State) : Host.Outcome State Fault Refusal :=
  .next (beginOp r.val 0x71 (vxClearBody r.val) s)

/-- VX_STATUS. -/
def execVxStatus (r : Fin 4) (s : State) : Host.Outcome State Fault Refusal :=
  .next (beginOp r.val 0x70 (fun _ s => complete r.val stOk (lo32 s.vx.stat) (hi32 s.vx.stat) s) s)

/-! ## Proof and factory tests (R405 to R407) -/

/-- The instance lies in the range of the source's detail (R384, R410). -/
def instanceOk (src inst : Nat) : Bool :=
  if src < 16 ∨ src = 24 ∨ src = 40 ∨ src = 41 ∨ src = 43 then decide (inst < 16)
  else if src = 16 ∨ src = 17 then decide (inst < 16384) || (decide (32768 ≤ inst) && decide (inst < 32768 + 256))
  else if src = 18 then decide (inst < 1024)
  else if src = 19 ∨ src = 20 ∨ src = 32 then decide (inst < 512)
  else if src = 21 then decide (inst < 32)
  else if src = 22 then decide (inst < 128 ∧ inst % 64 < 48)
  else if src = 23 ∨ src = 36 then decide (inst < 256)
  else if src = 26 then decide (inst < 8)
  else if src = 27 ∨ src = 28 ∨ src = 29 ∨ src = 31 then decide (inst < 4)
  else if src = 33 then decide (inst < 512) || inst == 0x3FF
  else if src = 37 then decide (inst < 7)
  else if src = 39 then decide (inst < 2)
  else if src = 42 then decide (inst < 4096)
  else inst == 0

/-- 0x72 VX_PROOF_TEST; `latency`: the core cycles after which the detector asserts, none where it has not yet. -/
def proofBody (r : Nat) (latency : Option Nat) (ws : List Word) (s : State) : State :=
  let src := fld (wd ws 1) 0 6
  let inst := fld (wd ws 1) 6 16
  if 44 ≤ src ∨ !instanceOk src inst then complete r eParam 0 (vxFirst s.vx) s
  else if s.vx.proof.isSome then complete r eBusy 0 (vxFirst s.vx) s
  else match latency with
    | some k => proofDone src r k (vxInject src (w32 inst) s)
    | none =>
      let p : ProofTest := { source := src, inst := inst, ring := r, start := s.tm.now }
      s.modVx fun v => { v with proof := some p }

/-- The opcode of a VX_PROOF_TEST packet and its factory flag. -/
def isProof (factory : Bool) (ws : List Word) : Bool := pOpcode ws == 0x72 && bitOf (wd ws 0) 8 == factory

/-- VX_PROOF_TEST. -/
def execVxProofTest (r : Fin 4) (latency : Option Nat) (s : State) : Host.Outcome State Fault Refusal :=
  .next (beginWhen r.val (isProof false) (proofBody r.val latency) s)

/-- PROOF_TEST_TIMEOUT (R405): 100 µs after the injection without an assertion. -/
def execProofTestTimeout (s : State) : Host.Outcome State Fault Refusal :=
  .next (
    match s.vx.proof with
    | some p =>
      complete p.ring eCheck 0 (vxFirst s.vx) (proofAbandon s)
    | none => s)

/-- The factory test's injection into a reaction path (R407): safe-state drivers, ALIVE stop, complement check. -/
def factoryPath (path : Nat) (s : State) : State :=
  if path = 0 then enterSafe s
  else if path = 1 then s.modVx fun v => { v with aliveRun := false, alivePin := false }
  else enterSafe (vxLevelOn 62 0 (s.modVx fun v => { v with cplErr := true }))

/-- VX_FACTORY_TEST's packet; the device safe state ends the command with E_FAULT (R507). -/
def factoryBody (r latency : Nat) (ws : List Word) (s : State) : State :=
  let path := fld (wd ws 2) 0 2
  if path = 3 then complete r eParam 0 (vxFirst s.vx) s
  else if !s.vx.testMode then complete r eState 0 (vxFirst s.vx) s
  else if s.vx.proof.isSome then complete r eBusy 0 (vxFirst s.vx) s
  else proofDone (fld (wd ws 1) 0 6) r latency (factoryPath path s)

/-- VX_FACTORY_TEST. -/
def execVxFactoryTest (r : Fin 4) (latency : Nat) (s : State) : Host.Outcome State Fault Refusal :=
  .next (beginWhen r.val (isProof true) (factoryBody r.val latency) s)

/-! ## Classes (R385, R410) -/

/-- A class map that 0x73 VX_CLASSES and the image refuse (R385). -/
def classesBad (m : List (Nat × Word)) : Bool :=
  (List.range 64).any fun i =>
    (classFixed i && classMapOf m i != classMapOf Vx.classMap i) || (classMapOf m i == 2 && !mayContain i)

/-- 0x73 VX_CLASSES. -/
def vxClassesBody (r : Nat) (ws : List Word) (s : State) : State :=
  let m := (List.range 4).map fun k => (k, wd ws (2 + k))
  let same := fun st => complete r st (mget 0 s.vx.classes 1) (mget 0 s.vx.classes 2) s
  if classesBad m then same eParam
  else if (List.range 64).any fun i => bitOf64 s.vx.stat i && classMapOf m i != classMapOf s.vx.classes i then same eState
  else complete r stOk (wd ws 3) (wd ws 4) (s.modVx fun v => { v with classes := m })

/-- VX_CLASSES. -/
def execVxClasses (r : Fin 4) (s : State) : Host.Outcome State Fault Refusal :=
  .next (beginOp r.val 0x73 (vxClassesBody r.val) s)

end Sys2Proof.Machine
end

