-- ==== Sys2Proof/Machine/Registers.lean ====
section
/-!
DEFINITION. The register map (chapter 20): what each BAR0 offset reads as and what a write to it does, apart from GL_RST,
whose write resets the device.
-/
namespace Sys2Proof.Machine

/-! ## GL block (R38, R286, R457, R485, R528 to R534) -/

/-- GPIOk is an output now (R534): GPIO0 and GPIO1 from the commit of B3 on, GPIO15 while it is not the host wake input, none
while the device sleeps. -/
def gpioDrives (s : State) (k : Nat) : Bool :=
  s.gl.gpioDir.testBit k && (decide (2 ≤ k) || inService s) && !(k == 15 && bitOf s.pw.cfg 2)
  && s.pw.clocked

/-- GL_GPIO_IN. -/
def gpioIn (s : State) : Nat :=
  (List.range 16).foldl (fun a k =>
    a + (if (if gpioDrives s k then s.gl.gpioOut.testBit k else s.gl.gpioPins.testBit k) then 2 ^ k else 0)) 0

/-- GL_BOOT. -/
def glBoot (s : State) : Word :=
  packW [(0, 3, phaseCode s.boot.phase), (3, 2, s.boot.straps.bootSel.val), (5, 2, s.boot.straps.b1Rate.val),
    (7, 1, s.boot.copy), (8, 8, s.boot.reason), (16, 8, s.boot.failSec), (24, 2, s.boot.cause)]

/-- GL_KEY as it reads. -/
def glKey (g : Gl) : Word := packW [(16, 1, b1 g.unlocked), (17, 1, b1 g.armed), (18, 1, b1 g.bySerial)]

/-- The perr fields of GL_WHEEL_STAT with the slot in progress. -/
def wheelStat (g : Gl) (slot : Nat) : Word :=
  packW [(0, 6, slot), (8, 6, g.perrSlot), (14, 1, b1 g.perrLane), (15, 1, b1 g.perrSeen)]

/-- GL_REV of the first release (R529). -/
def glRev (g : Gl) : Word := packW [(0, 8, 1), (8, 8, 1), (16, 8, g.patch)]

/-- A register of the GL block; GL_WHEEL_STAT takes the slot in progress as its free value. -/
def glWord (s : State) (o : Nat) : Word :=
  match o with
  | 0x00 => 0x4B461664#32
  | 0x04 => glRev s.gl
  | 0x10 => glKey s.gl
  | 0x14 => w32 s.gl.relockUs
  | 0x40 => wheelStat s.gl ((Config.slotNow s.freeCtr).toNat % 48)
  | 0x50 => s.bdp.cfg
  | 0x54 => packW [(0, 16, s.bdp.rx), (16, 16, s.bdp.malformed)]
  | 0x60 => glBoot s
  | 0x68 => w32 s.boot.bootUs
  | 0x70 => glProfile s.boot
  | 0x80 => w32 s.gl.gpioDir
  | 0x84 => w32 s.gl.gpioOut
  | 0x88 => w32 (gpioIn s)
  | _ => 0#32

/-- A write of GL_KEY_CFG, guarded by GL_KEY. -/
def keyCfgWrite (v : Word) (s : State) : State :=
  if keyOpen s then s.modGl fun g => { g with relockUs := fld v 0 16 } else s

/-- A write of GL_BDP_CFG base, guarded by GL_KEY. -/
def bdpCfgWrite (v : Word) (s : State) : State :=
  if keyOpen s then s.modBdp fun b => { b with cfg := maskMerge b.cfg v 0x1FF#32 } else s

/-- A write of a GL register. -/
def glWrite (i : Iface) (o : Nat) (v : Word) (s : State) : State :=
  match o with
  | 0x10 => keyWrite i v s
  | 0x14 => keyCfgWrite v s
  | 0x50 => bdpCfgWrite v s
  | 0x80 => s.modGl fun g => { g with gpioDir := fld v 0 16 }
  | 0x84 => s.modGl fun g => { g with gpioOut := fld v 0 16 }
  | _ => s

/-! ## SQ block (R515 to R517, R535) -/

/-- The bits of four entries. -/
def bits4 (f : Nat → Bool) : Nat := (List.range 4).foldl (fun a r => a + (if f r then 2 ^ r else 0)) 0

/-- SQ_STAT. -/
def sqStat (s : State) : Word :=
  packW [(0, 4, bits4 fun r => (s.cr r).state == .running), (4, 4, bits4 fun r => (s.cr r).cmd.isSome),
    (8, 1, b1 ((s.cq 4).state == .running)), (16, 16, s.sq.evLost)]

/-- SQ_HERR. -/
def sqHerr (q : Sq) : Word := packW [(0, 3, q.herrKind), (3, 1, b1 q.herrSeen), (16, 16, q.herrCount)]

/-- SQ_CR_CFG of a ring. -/
def crCfgWord (c : CmdRing) : Word :=
  packW [(0, 1, b1 c.en), (1, 1, b1 c.serial), (2, 4, c.log2), (8, 2, ringCode c.state), (10, 1, b1 c.cmd.isSome),
    (11, 1, b1 c.dbErr), (12, 4, c.haltKind)]

/-- SQ_CQ_CFG of a ring. -/
def cqCfgWord (c : CqRing) : Word :=
  packW [(0, 1, b1 c.en), (1, 1, b1 c.serial), (2, 4, c.log2), (6, 1, b1 c.dbErr), (8, 6, c.vector), (16, 8, c.coalN),
    (24, 8, c.coalUs)]

/-- SQ_CQ_TAIL of a ring. -/
def cqTailWord (c : CqRing) : Word :=
  packW [(0, 12, c.tail), (12, 1, b1 c.phase), (13, 1, b1 ((c.tail + 1) % 2 ^ c.log2 == c.head)), (14, 2, ringCode c.state)]

/-- A register of command ring r. -/
def crWord (c : CmdRing) (o : Nat) : Word :=
  match o with
  | 0x00 => c.baseLo
  | 0x04 => c.baseHi
  | 0x08 => crCfgWord c
  | 0x0C => w32 c.tail
  | 0x10 => w32 c.head
  | 0x14 => w32 c.done
  | _ => 0#32

/-- A register of completion ring k, or of the event ring. -/
def cqWord (c : CqRing) (o : Nat) : Word :=
  match o with
  | 0x00 => c.baseLo
  | 0x04 => c.baseHi
  | 0x08 => cqCfgWord c
  | 0x0C => w32 c.head
  | 0x10 => cqTailWord c
  | _ => 0#32

/-- A register of the SQ block. -/
def sqWord (s : State) (o : Nat) : Word :=
  let q := s.sq
  if 0x100 ≤ o ∧ o < 0x200 then crWord (s.cr ((o - 0x100) / 0x40)) ((o - 0x100) % 0x40)
  else if 0x200 ≤ o ∧ o < 0x340 then cqWord (s.cq ((o - 0x200) / 0x40)) ((o - 0x200) % 0x40)
  else if 0x800 ≤ o ∧ o < 0xC00 then msixWord s ((o - 0x800) / 16) ((o - 0x800) % 16 / 4)
  else match o with
    | 0x000 => sqStat s
    | 0x004 => q.irqCfg
    | 0x008 => packW [(0, 15, q.stgCells), (15, 1, b1 q.stgErr)]
    | 0x00C => packW [(0, 1, b1 q.linkUp), (1, 2, q.linkWidth), (3, 1, b1 q.linkSpeed)]
    | 0x010 => sqHerr q
    | 0x020 => mget 0#32 q.evMask 0
    | 0x024 => mget 0#32 q.evMask 1
    | 0x028 => mget 0#32 q.evMask 2
    | 0x02C => mget 0#32 q.evMask 3
    | 0x030 => lo32 q.irqPend
    | 0x034 => hi32 q.irqPend
    | 0x038 => lo32 q.irqMask
    | 0x03C => hi32 q.irqMask
    | 0xC00 => lo32 q.msixPend
    | 0xC04 => hi32 q.msixPend
    | _ => 0#32

/-- A write of the MSI-X table (R486, R511): a vector whose mask falls with its pending bit set sends its message. -/
def msixWrite (k : Nat) (v : Word) (s : State) : State :=
  let w := if k % 4 = 0 then v &&& 0xFFFFFFFC#32 else if k % 4 = 3 then v &&& 1#32 else v
  let s := s.modSq fun q => { q with msix := mset q.msix k w }
  let e := k / 4
  if bitOf64 s.sq.msixPend e && !bitOf (msixWord s e 3) 0 then
    msixSend e (s.modSq fun q => { q with msixPend := putBit64 q.msixPend e false })
  else s

/-- A write of a register of command ring r. -/
def crWrite (r o : Nat) (v : Word) (s : State) : State :=
  let off := (s.cr r).state == .disabled
  match o with
  | 0x00 => if off then s.modCr r fun c => { c with baseLo := v } else s
  | 0x04 => if off then s.modCr r fun c => { c with baseHi := v } else s
  | 0x08 => crCfgWrite r v s
  | 0x0C => crTailWrite r v s
  | _ => s

/-- A write of a register of completion ring k, or of the event ring. -/
def cqRegWrite (k o : Nat) (v : Word) (s : State) : State :=
  let off := (s.cq k).state == .disabled
  match o with
  | 0x00 => if off then s.modCq k fun c => { c with baseLo := v } else s
  | 0x04 => if off then s.modCq k fun c => { c with baseHi := v } else s
  | 0x08 => cqCfgWrite k v s
  | 0x0C => cqHeadWrite k v s
  | _ => s

/-- The low or the high word of a 64-bit register replaced. -/
def withHalf (d : DWord) (high : Bool) (v : Word) : DWord := if high then join64 (lo32 d) v else join64 v (hi32 d)

/-- A write of an SQ register. -/
def sqWrite (o : Nat) (v : Word) (s : State) : State :=
  if 0x100 ≤ o ∧ o < 0x200 then crWrite ((o - 0x100) / 0x40) ((o - 0x100) % 0x40) v s
  else if 0x200 ≤ o ∧ o < 0x340 then cqRegWrite ((o - 0x200) / 0x40) ((o - 0x200) % 0x40) v s
  else if 0x800 ≤ o ∧ o < 0xC00 then msixWrite ((o - 0x800) / 4) v s
  else match o with
    | 0x004 => s.modSq fun q => { q with irqCfg := v &&& 0x37F#32 }
    | 0x008 => stgCfgWrite v s
    | 0x010 => s.modSq fun q => { q with herrSeen := q.herrSeen && !bitOf v 3 }
    | 0x020 => s.modSq fun q => { q with evMask := mset q.evMask 0 v }
    | 0x024 => s.modSq fun q => { q with evMask := mset q.evMask 1 v }
    | 0x028 => s.modSq fun q => { q with evMask := mset q.evMask 2 v }
    | 0x02C => s.modSq fun q => { q with evMask := mset q.evMask 3 v }
    | 0x030 => s.modSq fun q => { q with irqPend := withHalf q.irqPend false (lo32 q.irqPend &&& ~~~v) }
    | 0x034 => s.modSq fun q => { q with irqPend := withHalf q.irqPend true (hi32 q.irqPend &&& ~~~v) }
    | 0x038 => s.modSq fun q => { q with irqMask := withHalf q.irqMask false v }
    | 0x03C => s.modSq fun q => { q with irqMask := withHalf q.irqMask true v }
    | _ => s

/-! ## VX, PW, TM and DX blocks (R409, R437, R266, R378) -/

/-- A register of the VX block. -/
def vxWord (s : State) (o : Nat) : Word :=
  let v := s.vx
  match o with
  | 0x000 => lo32 v.stat
  | 0x004 => hi32 v.stat
  | 0x008 => vxFirst v
  | 0x00C => v.fInfo
  | 0x010 => lo32 v.fTime
  | 0x014 => hi32 v.fTime
  | 0x018 => vxConseq v
  | 0x020 => mget 0#32 v.classes 0
  | 0x024 => mget 0#32 v.classes 1
  | 0x028 => mget 0#32 v.classes 2
  | 0x02C => mget 0#32 v.classes 3
  | 0x030 => v.cfg
  | 0x034 => vxState s
  | 0x038 => lo32 v.inj
  | 0x03C => hi32 v.inj
  | 0x040 => s.ret.last3
  | 0x044 => s.ret.last3Info
  | 0x048 => vxReact s
  | _ => 0#32

/-- PW_CH_FW of channel n. -/
def chFw (s : State) (n : Nat) : Word :=
  packW [(0, 16, mget 0 s.ret.fwCount n), (16, 8, mget 0 s.pw.winCount n), (24, 3, filtNow s n),
    (27, 1, b1 (s.pw.confirm.any fun e => e.1 == n))]

/-- A register of the PW block. -/
def pwWord (s : State) (o : Nat) : Word :=
  if 0x100 ≤ o ∧ o < 0x200 then
    let n := (o - 0x100) / 16
    match o % 16 with
    | 0 => chWake s n
    | 4 => chFw s n
    | 8 => chConf s n
    | _ => 0#32
  else if 0x200 ≤ o ∧ o < 0x240 then mget 0#32 s.ret.scratch ((o - 0x200) / 4)
  else match o with
    | 0x000 => pwStat s
    | 0x004 => pwCfg s
    | 0x008 => s.pw.ballotReg
    | 0x00C => s.pw.ballot2
    | 0x010 => s.pw.timer
    | 0x014 => s.pw.wake
    | 0x018 => w32 (awakeLeft s)
    | _ => 0#32

/-- A write of a PW register. -/
def pwWrite (o : Nat) (v : Word) (s : State) : State :=
  if 0x200 ≤ o ∧ o < 0x240 then s.modRet fun r => { r with scratch := mset r.scratch ((o - 0x200) / 4) v }
  else if o = 0x014 then s.modPw fun p => { p with wake := p.wake &&& ~~~v } else s

/-- TM_STAT. -/
def tmStat (t : Tm) : Word := packW [(0, 3, t.state), (3, 1, b1 t.set), (4, 12, t.sender), (16, 16, t.steps)]

/-- A register of the TM block. -/
def tmWord (s : State) (o : Nat) : Word :=
  let t := s.tm
  if 0x100 ≤ o ∧ o < 0x200 then
    let n := (o - 0x100) / 16
    match o % 16 with
    | 0 => mget 0#32 t.chAdj n
    | 4 => lo32 (mget 0#64 t.txs n)
    | 8 => hi32 (mget 0#64 t.txs n)
    | 12 => mget 0#32 t.txsTag n
    | _ => 0#32
  else match o with
    | 0x000 => lo32 t.now
    | 0x004 => hi32 t.now
    | 0x008 => ws t.adj
    | 0x00C => tmStat t
    | 0x010 => t.servo
    | 0x014 => t.hold
    | 0x018 => t.offset
    | 0x01C => t.role
    | 0x020 => packW [(0, 16, t.syncMs), (16, 16, t.discards)]
    | 0x024 => t.ppsCfg
    | 0x028 => t.ppsAdj
    | 0x02C => lo32 t.ppsIn
    | 0x030 => hi32 t.ppsIn
    | _ => 0#32

/-- A write of TM_PPS_CFG; with out_en 0 the pin is low, and no pulse is due any more (R258). -/
def ppsCfgWrite (v : Word) (s : State) : State :=
  s.modTm fun t => { t with
    ppsCfg := v &&& 0xFFFF0003#32, ppsOut := t.ppsOut && bitOf v 0, ppsDue := t.ppsDue && bitOf v 0 }

/-- A write of a TM register. -/
def tmWrite (o : Nat) (v : Word) (s : State) : State :=
  if 0x100 ≤ o ∧ o < 0x200 then
    if o % 16 = 0 then s.modTm fun t => { t with chAdj := mset t.chAdj ((o - 0x100) / 16) v } else s
  else match o with
    | 0x010 => s.modTm fun t => { t with servo := v }
    | 0x014 => s.modTm fun t => { t with hold := v }
    | 0x020 => s.modTm fun t => { t with syncMs := fld v 0 16 }
    | 0x024 => ppsCfgWrite v s
    | 0x028 => s.modTm fun t => { t with ppsAdj := v }
    | _ => s

/-- A register of the DX block. -/
def dxWord (s : State) (o : Nat) : Word :=
  let d := s.dx
  match o with
  | 0x000 => dxCfg d
  | 0x004 => packW [(0, 16, d.epoch10us), (16, 11, d.appLen)]
  | 0x008 => packW [(0, 16, d.cmpUs), (16, 8, d.refTmo)]
  | 0x00C => dxClaim d
  | 0x010 => dxStat d
  | 0x014 => packW [(0, 16, d.crcErr), (16, 16, d.downs)]
  | 0x018 => packW [(0, 16, d.committed), (16, 16, d.discards)]
  | 0x01C => packW [(0, 16, d.mismatches), (16, 10, d.divergent.length)]
  | 0x020 => packW [(0, 10, uncomparedCount s), (10, 9, d.lastCtx), (19, 2, d.lastKind)]
  | 0x024 => d.appLo
  | 0x028 => d.appHi
  | _ => 0#32

/-! ## MP and CK blocks (R473, R339) -/

/-- A register of the MP block. -/
def mpWord (s : State) (o : Nat) : Word :=
  if 0x100 ≤ o ∧ o < 0x300 then
    let n := (o - 0x100) / 0x20
    match o % 0x20 with
    | 0x00 => mpChCfg s n
    | 0x04 => mpChLim s n
    | 0x08 => mpStat s n
    | 0x0C => mget 0#32 s.mp.chRec n
    | 0x10 => mget 0#32 s.mp.chDly n
    | 0x14 => mpPlan s n
    | _ => 0#32
  else if 0x010 ≤ o ∧ o < 0x030 then mget 0#32 s.mp.ros ((o - 0x10) / 4)
  else match o with
    | 0x000 => s.mp.cfg
    | 0x004 => s.mp.guard
    | 0x008 => s.mp.env
    | _ => 0#32

/-- A write of an MP register. -/
def mpWrite (o : Nat) (v : Word) (s : State) : State :=
  if 0x100 ≤ o ∧ o < 0x300 then
    let n := (o - 0x100) / 0x20
    match o % 0x20 with
    | 0x00 => s.modMp fun m => { m with chCfg := mset m.chCfg n (v &&& 0x00FFFFFF#32) }
    | 0x04 => s.modMp fun m => { m with chLim := mset m.chLim n v }
    | _ => s
  else match o with
    | 0x000 => s.modMp fun m => { m with cfg := v &&& 0x0FFF0003#32 }
    | 0x004 => s.modMp fun m => { m with guard := maskMerge m.guard v 0x0000FF01#32 }
    | _ => s

/-- CK_STAT of unit u. -/
def ckStat (s : State) (u : Nat) : Word :=
  let x := s.unit u
  packW [(0, 4, x.last), (4, 3, x.reason), (7, 1, b1 (ckBusy s u)), (8, 4, x.channel), (12, 1, b1 x.misSeen),
    (13, 1, b1 x.engSeen), (16, 16, x.mism)]

/-- A register of check unit u. -/
def ckWord (s : State) (u o : Nat) : Word :=
  let x := s.unit u
  match o with
  | 0x00 => x.cfg
  | 0x04 => x.cfg2
  | 0x08 => x.run
  | 0x0C => w32 x.cnt
  | 0x10 => ckStat s u
  | 0x14 => x.calcd
  | 0x18 => x.carried
  | 0x1C => x.lastId
  | 0x20 => ckSeqWord x 0
  | 0x24 => ckSeqWord x 1
  | 0x28 => ckSeqWord x 2
  | 0x2C => ckSeqWord x 3
  | 0x30 => w32 x.seqV
  | 0x34 => w32 x.passes
  | _ => 0#32

/-- A write of a register of check unit u. -/
def ckWrite (u o : Nat) (v : Word) (s : State) : State :=
  match o with
  | 0x08 => if ckMode (s.unit u).cfg == 3 && !ckBusy s u then s.modUnit u fun x => { x with run := v } else s
  | 0x10 => s.modUnit u fun x => { x with misSeen := x.misSeen && !bitOf v 12, engSeen := x.engSeen && !bitOf v 13 }
  | _ => s

/-! ## CH blocks (R540) -/

/-- CH_TX_STAT of channel n (R221). -/
def txStat (s : State) (n : Nat) : Word :=
  let c := s.chan n
  let src := match c.latch with | some l => some l.source | none => c.loaded
  packW [(0, 5, src.getD 0x1F), (5, 1, b1 c.latch.isSome),
    (6, 19, (List.range 19).foldl (fun a k => a + (if (candOf s n k).isSome then 2 ^ k else 0)) 0)]

/-- A register of prime buffer b of channel n (R206). -/
def primeWord (s : State) (n b o : Nat) : Word :=
  let p := primeOf s n b
  if o < 0x10 then mget 0#32 p.desc (o / 4)
  else if o < 0x50 then mget 0#32 p.data ((o - 0x10) / 4)
  else if o = 0x50 then p.ctl
  else if o = 0x58 then txpStat s n b
  else 0#32

/-- A register of channel n. -/
def chanWord (s : State) (n o : Nat) : Word :=
  if 0x100 ≤ o ∧ o < 0x280 then primeWord s n ((o - 0x100) / 0x80) ((o - 0x100) % 0x80)
  else match o with
    | 0x00 => chStateWord s n
    | 0x20 => errcWord (s.chan n)
    | 0x28 => boffStatWord (s.chan n)
    | 0x30 => (s.chan n).dupStat
    | 0x34 => chTrxWord (s.chan n)
    | 0x44 => txStat s n
    | _ => chCfgWord (s.chan n) o

/-- A write of a register of prime buffer b of channel n: its contents are fixed while it is armed (R207). -/
def primeWrite (n b o : Nat) (v : Word) (s : State) : State :=
  let free := !(primeOf s n b).armed
  if o < 0x10 then if free then modPrime n b (fun p => { p with desc := mset p.desc (o / 4) v }) s else s
  else if o < 0x50 then if free then modPrime n b (fun p => { p with data := mset p.data ((o - 0x10) / 4) v }) s else s
  else if o = 0x50 then if free then modPrime n b (fun p => { p with ctl := v &&& 0xFFFF0007#32 }) s else s
  else if o = 0x54 then armWrite n b v s
  else if o = 0x58 then modPrime n b (fun p => { p with done := p.done && !bitOf v 5, armErr := p.armErr && !bitOf v 6 }) s
  else s

/-- tdc_sat is cleared by a write of 1 in any state (R59). -/
def tdcSatWrite (n o : Nat) (v : Word) (s : State) : State :=
  if (o = 0x14 ∨ o = 0x18) ∧ bitOf v 31 then
    s.modChan n fun c => chCfgSet o (putFld (chCfgWord c o) 31 1 0) c
  else s

/-- A write of a register of channel n. -/
def chanWrite (n o : Nat) (v : Word) (s : State) : State :=
  if 0x100 ≤ o ∧ o < 0x280 then primeWrite n ((o - 0x100) / 0x80) ((o - 0x100) % 0x80) v s
  else if o = 0x30 then dupRelease n v s
  else
    let s := chCfgWrite n o v (tdcSatWrite n o v s)
    if o = 0x40 then recheck n s else s

/-! ## LT, QM, CD and TG blocks (R541) -/

/-- LT_STAT (R154). -/
def ltStat (s : State) : Word :=
  packW [(0, 16, (List.range 16).foldl (fun a n => a + (if copying s n then 2 ^ n else 0)) 0),
    (16, 1, b1 (!s.lat.commits.isEmpty)), (17, 1, b1 (!(liveWrites s).isEmpty))]

/-- LT_GATE_CFG and LT_GATE_STAT of a gate (R156). -/
def gateCfgWord (e : Gate) : Word := packW [(0, 12, e.pairAddr), (12, 1, b1 e.en), (13, 1, b1 e.armMode)]
/-- See `gateCfgWord`. -/
def gateStatWord (e : Gate) : Word := packW [(0, 16, e.highest), (16, 1, b1 e.armed), (17, 1, b1 e.sat), (20, 12, e.rejects)]

/-- LT_ECC_STAT (R157). -/
def eccStat (l : Lat) : Word :=
  packW [(0, 14, l.corrIdx), (14, 1, b1 l.corrSeen), (15, 1, b1 l.corrGate), (16, 14, l.uncIdx), (30, 1, b1 l.uncSeen),
    (31, 1, b1 l.uncGate)]

/-- The element index that position p of the element window's channel c shows (R136). -/
def winIdx (s : State) (c p : Nat) : Nat :=
  let n := winChan s c
  elemIdx (if s.lat.winHalf then activeHalf s n else !activeHalf s n) n p

/-- The word that position p of the element window's channel c shows (R136). -/
def winElem (s : State) (c p : Nat) : DWord := elemAt s (winIdx s c p)

/-- A read of an element through its window, or of a gate's register, corrects a single-bit error (R151). -/
def latRead (off : Nat) (s : State) : State :=
  if 0x28000 ≤ off ∧ off < 0x30000 then
    let i := winIdx s ((off - 0x28000) / 0x1000) (off % 0x1000 / 8)
    if off % 8 = 0 ∧ mget 0 s.lat.elemErr i = 1 then corrected i s else s
  else if 0x20200 ≤ off ∧ off < 0x20A00 then
    let g := (off - 0x20200) / 8
    if mget 0 s.lat.gateErr g = 1 then gateCorrected g s else s
  else s

/-- A register of the LT block, the element window apart. -/
def ltWord (s : State) (o : Nat) : Word :=
  if 0x100 ≤ o ∧ o < 0x140 then mget 0#32 s.lat.chDef ((o - 0x100) / 4)
  else if 0x200 ≤ o ∧ o < 0xA00 then
    let e := s.gate ((o - 0x200) / 8)
    if o % 8 = 0 then gateCfgWord e else gateStatWord e
  else match o with
    | 0x000 => ltActive s
    | 0x004 => ltStat s
    | 0x008 => packW [(0, 1, s.lat.winGrp), (1, 1, b1 s.lat.winHalf)]
    | 0x00C => packW [(0, 1, b1 s.lat.scrubEn), (16, 16, s.lat.passes)]
    | 0xA00 => ownedStat s
    | 0xA04 => w32 s.lat.ownId
    | 0xA10 => eccStat s.lat
    | _ => 0#32

/-- A write of an LT register. -/
def ltWrite (o : Nat) (v : Word) (s : State) : State :=
  if 0x100 ≤ o ∧ o < 0x140 then s.modLat fun l => { l with chDef := mset l.chDef ((o - 0x100) / 4) (v &&& 0x000FFF07#32) }
  else if 0x200 ≤ o ∧ o < 0xA00 then
    let g := (o - 0x200) / 8
    if o % 8 = 0 then gateCfgWrite g v s else gateStatWrite g v s
  else if 0x8000 ≤ o ∧ o < 0x10000 then
    let c := (o - 0x8000) / 0x1000
    let p := o % 0x1000 / 8
    if o % 8 = 0 then winLow c p v s else winHigh c p v s
  else match o with
    | 0x008 => s.modLat fun l => { l with winGrp := fld v 0 1, winHalf := bitOf v 1 }
    | 0x00C => s.modLat fun l => { l with scrubEn := bitOf v 0 }
    | 0xA10 => s.modLat fun l => { l with corrSeen := l.corrSeen && !bitOf v 14, uncSeen := l.uncSeen && !bitOf v 30 }
    | _ => s

/-- A register of queue q (R198). -/
def queueWord (s : State) (q o : Nat) : Word :=
  let u := s.queue q
  if u.state == .none then (if o = 0x08 then packW [(17, 1, 1)] else 0#32)
  else match o with
    | 0x00 => qCfgWord s q
    | 0x04 => qBudgetWord s q
    | 0x08 => qStatWord s q
    | 0x0C => w32 (u.items.length % 2 ^ 17)
    | 0x10 => w32 ((List.range 16).foldl (fun a k => a + (if u.items.any (·.cls == k) then 2 ^ k else 0)) 0)
    | 0x14 => w32 u.hwm
    | 0x18 => w32 u.itemsIn
    | 0x1C => w32 u.itemsOut
    | 0x20 => w32 u.itemsDisc
    | 0x24 => w32 u.bpCount
    | _ => 0#32

/-- A write of a register of queue q. -/
def queueWrite (q o : Nat) (v : Word) (s : State) : State :=
  if (s.queue q).state == .none then s
  else match o with
    | 0x00 => s.modQueue q fun u => { u with notify := bitOf v 13 }
    | 0x08 => s.modQueue q fun u => { u with bpSeen := u.bpSeen && !bitOf v 22 }
    | 0x14 => s.modQueue q fun u => { u with hwm := fld v 0 17 }
    | _ => s

/-- QM_W_STAT of queue q (R200). -/
def windowStat (s : State) (q : Nat) : Word :=
  let u := s.queue q
  packW [(0, 1, b1 u.lock.isSome), (1, 1, b1 u.underrun), (2, 1, b1 u.lockLost), (3, 1, b1 u.popErr), (4, 1, b1 u.range),
    (5, 1, b1 u.items.isEmpty)]

/-- The window registers without a read effect: QM_W_CELL and QM_W_STAT. -/
def windowWord (s : State) (q o : Nat) : Word :=
  if !hasWindow s q then windowAbsent s q o
  else if o = 0x44 then w32 (s.queue q).wCell
  else if o = 0x4C then windowStat s q
  else 0#32

/-- A write of a window register. -/
def windowWrite (q o : Nat) (v : Word) (s : State) : State :=
  if !hasWindow s q then s
  else match o with
    | 0x44 => s.modQueue q fun u => { u with wCell := fld v 0 6 }
    | 0x48 => windowPop q v s
    | 0x4C => s.modQueue q fun u => { u with underrun := u.underrun && !bitOf v 1, lockLost := u.lockLost && !bitOf v 2,
                                             popErr := u.popErr && !bitOf v 3, range := u.range && !bitOf v 4 }
    | _ => s

/-- QM_AUDIT (R199). -/
def auditWord (p : Pool) : Word :=
  packW [(0, 1, b1 p.auditEn), (8, 8, p.failQ), (16, 1, b1 p.failSeen), (17, 2, p.failKind), (20, 12, p.passes)]

/-- A register of the QM block, QM_W_LOCK and QM_W_DATA apart. -/
def qmWord (s : State) (o : Nat) : Word :=
  if o < 0x4000 then queueWord s (o / 0x40) (o % 0x40)
  else if 0x8000 ≤ o then windowWord s ((o - 0x8000) / 0x80) (o % 0x80)
  else match o with
    | 0x4000 => w32 (freeCount s)
    | 0x4004 => w32 (reserve s)
    | 0x4008 => packW [(0, 16, s.pool.lockTmo), (16, 16, s.pool.bpTmo)]
    | 0x400C => w32 s.pool.lowWater
    | 0x4010 => auditWord s.pool
    | _ => 0#32

/-- A write of a QM register. -/
def qmWrite (o : Nat) (v : Word) (s : State) : State :=
  if o < 0x4000 then queueWrite (o / 0x40) (o % 0x40) v s
  else if 0x8000 ≤ o then windowWrite ((o - 0x8000) / 0x80) (o % 0x80) v s
  else match o with
    | 0x4008 => s.modPool fun p => { p with lockTmo := fld v 0 16, bpTmo := fld v 16 16 }
    | 0x400C => s.modPool fun p => { p with lowWater := fld v 0 17, lowTold := decide (freeCount s - reserve s < fld v 0 17) }
    | 0x4010 => s.modPool fun p => { p with auditEn := bitOf v 0, failSeen := p.failSeen && !bitOf v 16 }
    | _ => s

/-- CD_CH_CTL of channel n (R247). -/
def chCtlWord (s : State) (n : Nat) : Word :=
  let h := holdOf s n
  packW [(0, 4, mget 0 s.cd.laneEn n), (4, 1, b1 h.isSome), (5, 10, (h.map (·.route)).getD 0),
    (15, 2, (h.map (·.lane)).getD 0), (17, 1, b1 ((h.map (·.kept)).getD false))]

/-- A route's word (R232). -/
def routeWord (e : Route) (k : Nat) : Word :=
  match k with
  | 0 => e.cfg
  | 1 => e.ident
  | 2 => e.xl
  | _ => putFld e.rate 24 8 e.tokens

/-- A register of the CD block. -/
def cdWord (s : State) (o : Nat) : Word :=
  if 0x100 ≤ o ∧ o < 0x180 then
    let n := (o - 0x100) / 8
    if o % 8 = 0 then mget 0#32 s.cd.chIn n else chCtlWord s n
  else if 0x4000 ≤ o then routeWord (s.route ((o - 0x4000) / 16)) (o % 16 / 4)
  else match o with
    | 0x0 => w32 s.cd.stallUs
    | 0x4 => s.cd.perr
    | _ => 0#32

/-- A write of a CD register: CD_CH_IN and CD_CH_CTL act while the channel is STOPPED. -/
def cdWrite (o : Nat) (v : Word) (s : State) : State :=
  if 0x100 ≤ o ∧ o < 0x180 then
    let n := (o - 0x100) / 8
    if (s.chan n).state != .stopped then s
    else if o % 8 = 0 then s.modCd fun c => { c with chIn := mset c.chIn n v }
    else s.modCd fun c => { c with laneEn := mset c.laneEn n (fld v 0 4) }
  else match o with
    | 0x0 => s.modCd fun c => { c with stallUs := fld v 0 16 }
    | 0x4 => s.modCd fun c => { c with perr := if bitOf v 15 then putFld c.perr 15 1 0 else c.perr }
    | _ => s

/-- TG_STAT (R319): an evaluation takes no time in this model, so busy reads 0. -/
def tgStat (s : State) : Word :=
  packW [(0, 10, (s.tg.ctxs.filter fun e => e.2.state == .enabled || e.2.state == .disabling).length),
    (10, 1, b1 (tgFrozen s)), (16, 10, (dueAll s).length)]

/-- A register of the TG block. -/
def tgWord (s : State) (o : Nat) : Word :=
  if 0x1000 ≤ o ∧ o < 0x1800 then ctxStat (s.ctx ((o - 0x1000) / 4))
  else if 0x2000 ≤ o ∧ o < 0x3000 then
    let x := s.ctx ((o - 0x2000) / 8)
    if o % 8 = 0 then x.latch else latchStat x
  else match o with
    | 0x0 => tgStat s
    | 0x4 => s.tg.ovr
    | 0x8 => s.tg.ecc
    | 0xC => w32 s.tg.lagMax
    | _ => 0#32

/-- A write of a TG register. -/
def tgWrite (o : Nat) (v : Word) (s : State) : State :=
  match o with
  | 0x4 => s.modTg fun t => { t with ovr := t.ovr &&& ~~~(v &&& 0x200#32) }
  | 0x8 => s.modTg fun t => { t with ecc := t.ecc &&& ~~~(v &&& 0x02000200#32) }
  | 0xC => s.modTg fun t => { t with lagMax := fld v 0 16 }
  | _ => s

/-! ## The BAR0 space (R523) -/

/-- The word at a BAR0 offset, for registers whose read has no effect. -/
def regWord (s : State) (off : Nat) : Word :=
  if off % 4 ≠ 0 then 0#32
  else if off < 0x100 then glWord s off
  else if 0x1000 ≤ off ∧ off < 0x1C08 then sqWord s (off - 0x1000)
  else if 0x2000 ≤ off ∧ off < 0x204C then vxWord s (off - 0x2000)
  else if 0x3000 ≤ off ∧ off < 0x3240 then pwWord s (off - 0x3000)
  else if 0x4000 ≤ off ∧ off < 0x4200 then tmWord s (off - 0x4000)
  else if 0x5000 ≤ off ∧ off < 0x502C then dxWord s (off - 0x5000)
  else if 0x6000 ≤ off ∧ off < 0x62F8 then mpWord s (off - 0x6000)
  else if 0x7000 ≤ off ∧ off < 0x8000 then ckWord s ((off - 0x7000) / 0x80) (off % 0x80)
  else if 0x10000 ≤ off ∧ off < 0x20000 then chanWord s ((off - 0x10000) / 0x1000) (off % 0x1000)
  else if 0x20000 ≤ off ∧ off < 0x28000 then ltWord s (off - 0x20000)
  else if 0x30000 ≤ off ∧ off < 0x40000 then qmWord s (off - 0x30000)
  else if 0x40000 ≤ off ∧ off < 0x48000 then cdWord s (off - 0x40000)
  else if 0x50000 ≤ off ∧ off < 0x53000 then tgWord s (off - 0x50000)
  else 0#32

/-- The 64-bit quantity whose low word stands at a BAR0 offset (R6, R526): the pairs named LO and HI, and the words of
the element window. -/
def pairAt (s : State) (off : Nat) : Option DWord :=
  let two := some (join64 (regWord s off) (regWord s (off + 4)))
  if [0x1030, 0x1038, 0x1100, 0x1140, 0x1180, 0x11C0, 0x1200, 0x1240, 0x1280, 0x12C0, 0x1300, 0x2000, 0x2010, 0x2038,
      0x4000, 0x402C, 0x5024].contains off then two
  else if 0x4100 ≤ off ∧ off < 0x4200 ∧ off % 16 = 4 then two
  else if 0x28000 ≤ off ∧ off < 0x30000 ∧ off % 8 = 0 then
    some (winElem s ((off - 0x28000) / 0x1000) (off % 0x1000 / 8))
  else none

/-- The key of the high-word latch of an interface (R524). -/
def latchKey (i : Iface) (off : Nat) : Nat := 2 ^ 20 * b1 (isSerial i) + off

/-- What the high-word latch of a pair reads before any read of the low word: the Reset value of the high word (R526, R535). -/
def latchReset (off : Nat) : Word := if off = 0x1038 then 0xFFFFFFFF#32 else 0#32

/-- A read of QM_W_DATA or QM_W_LOCK, or none: the window's queue and register offset (R526). -/
def windowAt (off : Nat) : Option (Nat × Nat) :=
  if 0x38000 ≤ off ∧ off < 0x40000 ∧ off % 0x80 ≤ 0x40 then some ((off - 0x38000) / 0x80, off % 0x80) else none

/-- A read of a register that can be reached: the state after it and the value. A low word latches its high word for the
interface, a high word is read from the latch; GL_WHEEL_STAT uses up a free value. -/
def readAt (i : Iface) (off : Nat) (s : State) : State × Word :=
  if off % 4 ≠ 0 then (s, 0#32)
  else match windowAt off with
    | some (q, o) => if o = 0x40 then windowLock q s else windowData q (o / 4) s
    | none =>
      match pairAt s off with
      | some d => (latRead off (s.modGl fun g => { g with hiLatch := mset g.hiLatch (latchKey i off) (hi32 d) }), lo32 d)
      | none =>
        if 4 ≤ off ∧ (pairAt s (off - 4)).isSome then (s, mget (latchReset (off - 4)) s.gl.hiLatch (latchKey i (off - 4)))
        else if off = 0x40 then (s.freshTick, regWord s off)
        else (latRead off s, regWord s off)

/-- A register read (R445, R492): an offset that cannot be reached reads 0. -/
def regRead (i : Iface) (off : Nat) (s : State) : State × Word := if regReach i off s then readAt i off s else (s, 0#32)

/-- A write of a register, GL_RST apart (R9). -/
def writeAt (i : Iface) (off : Nat) (v : Word) (s : State) : State :=
  if off % 4 ≠ 0 then s
  else if off < 0x100 then glWrite i off v s
  else if 0x1000 ≤ off ∧ off < 0x1C08 then sqWrite (off - 0x1000) v s
  else if off = 0x2030 then (if keyOpen s then s.modVx fun x => { x with cfg := v &&& 7#32 } else s)
  else if 0x3000 ≤ off ∧ off < 0x3240 then pwWrite (off - 0x3000) v s
  else if 0x4000 ≤ off ∧ off < 0x4200 then tmWrite (off - 0x4000) v s
  else if 0x6000 ≤ off ∧ off < 0x62F8 then mpWrite (off - 0x6000) v s
  else if 0x7000 ≤ off ∧ off < 0x8000 then ckWrite ((off - 0x7000) / 0x80) (off % 0x80) v s
  else if 0x10000 ≤ off ∧ off < 0x20000 then chanWrite ((off - 0x10000) / 0x1000) (off % 0x1000) v s
  else if 0x20000 ≤ off ∧ off < 0x30000 then ltWrite (off - 0x20000) v s
  else if 0x30000 ≤ off ∧ off < 0x40000 then qmWrite (off - 0x30000) v s
  else if 0x40000 ≤ off ∧ off < 0x48000 then cdWrite (off - 0x40000) v s
  else if 0x50000 ≤ off ∧ off < 0x53000 then tgWrite (off - 0x50000) v s
  else s

end Sys2Proof.Machine
end

