-- ==== Sys2Proof/Machine/ImageLoad.lean ====
section
/-!
DEFINITION. The configuration image checked and committed: the checks of R451 and R452, the sections applied (R450, R452 to
R454), 0x03 LOAD_IMAGE and 0x02 COMMIT_CONFIG (R455, R456, R565).
-/
namespace Sys2Proof.Machine

/-- A failing check (R451, R455): the section's index, the reason, and for CONTENT the status of the failing check with the
limit that LEGACY breaks. -/
structure ImgFail where
  sec    : Nat
  reason : Nat
  status : Nat
  limit  : Nat
deriving DecidableEq, Repr

/-- Result word 1 of a failed load or commit (R455, R481). -/
def failWord (f : ImgFail) : Word := packW [(0, 8, f.sec), (8, 8, f.reason), (16, 8, f.status), (24, 8, f.limit)]

/-- The status with which a reason completes the command (R455). -/
def failStatus (f : ImgFail) : Nat :=
  if [0x03, 0x07, 0x08].contains f.reason then eCheck else if f.reason = 0x04 then eCap else eParam

/-- What follows a finding: `bad` on a failure, `good` where there is none. -/
def afterChecks {α : Type} (bad : ImgFail → α) (good : α) : Option ImgFail → α
  | some f => bad f
  | none => good

/-- A failure without a section. -/
def plainFail (reason : Nat) : ImgFail := { sec := 0, reason := reason, status := 0, limit := 0 }

/-- GL_BOOT records the first failure (R457). -/
def recordFail (f : ImgFail) (s : State) : State :=
  if s.boot.reason = 0 then { s with boot := { s.boot with reason := f.reason, failSec := f.sec } } else s

/-! ## The checks of R451 -/

/-- The fixed length of a section type (R449); 0 for a reserved type. -/
def secLength (kind : Nat) : Nat :=
  match kind with
  | 0x01 => 256
  | 0x02 => 256
  | 0x03 => 4096
  | 0x04 => 1024
  | 0x05 => 2048
  | 0x06 => 16384
  | 0x07 => 128
  | 0x08 => 51200
  | 0x09 => 256
  | 0x0A => 64
  | 0x0B => 32
  | 0x0C => 32
  | 0x0D => 320
  | 0x0E => 256
  | 0x0F => 8192
  | _ => 0

/-- The number of instances of a section type (R449). -/
def secInstances (kind : Nat) : Nat := if kind = 0x02 ∨ kind = 0x03 then 16 else 1

/-- The length that the header gives. -/
def imgLength (img : List Byte) : Nat := (wordAt img 0x0C).toNat

/-- CRC-32C over `n` bytes of the image from offset `o`. -/
def imgCrc (img : List Byte) (o n : Nat) : Word := w32 (crc32c ((img.drop o).take n))

/-- A reserved bit of the header is set (R449). -/
def headReserved (img : List Byte) : Bool :=
  fld (wordAt img 0x08) 13 3 != 0 || fld (wordAt img 0x08) 25 7 != 0 || fld (wordAt img 0x10) 8 24 != 0

/-- The index of the first section of which `p` holds. -/
def firstSection (img : List Byte) (p : Nat → Sect → Bool) : Option Nat :=
  (List.range (imgSections img)).find? fun i => p i (imgSect img i)

/-- Reason SECTION for entry i. -/
def sectionBad (img : List Byte) (i : Nat) (e : Sect) : Bool :=
  secLength e.kind == 0 || decide (secInstances e.kind ≤ e.inst) || e.len != secLength e.kind
  || (List.range i).any fun j => (imgSect img j).kind == e.kind && (imgSect img j).inst == e.inst

/-- Reason PLACE for entry i: outside the length, or over an earlier section. -/
def placeBad (img : List Byte) (i : Nat) (e : Sect) : Bool :=
  decide (imgLength img < e.off + e.len)
  || (List.range i).any fun j =>
    let d := imgSect img j
    decide (e.off < d.off + d.len) && decide (d.off < e.off + e.len)

/-- A stage of R451 that judges the sections one by one. -/
def stage (img : List Byte) (reason : Nat) (p : Nat → Sect → Bool) : Option ImgFail :=
  (firstSection img p).map fun i => { sec := i, reason := reason, status := 0, limit := 0 }

/-- The index of the section of a type and instance; 0 where it is absent. -/
def secIndex (img : List Byte) (kind inst : Nat) : Nat :=
  (firstSection img fun _ e => e.kind == kind && e.inst == inst).getD 0

/-- R13 fails: a paired device's address does not end in its UNIT_ID. -/
def addressBad (s : State) (img : List Byte) : Bool :=
  match sectAt img 0x0B 0 with
  | some o => bitOf (sectWord img o 0) 0 && fld (wordAt img 0x08) 0 1 != s.boot.straps.unitId.val
  | none => false

/-- The failure of R13. -/
def addressFail (img : List Byte) : ImgFail := { sec := secIndex img 0x0B 0, reason := 0x09, status := 0, limit := 0 }

/-- The checks of R451 but for CONTENT, in their order. -/
def imageFail (img : List Byte) : Option ImgFail :=
  if wordAt img 0 ≠ 0x4B46494D#32 then some (plainFail 0x01)
  else if fld (wordAt img 4) 0 16 ≠ 1 then some (plainFail 0x02)
  else if imgCrc img 0 0x3C ≠ wordAt img 0x3C ∨ headReserved img then some (plainFail 0x03)
  else if 1048576 < imgLength img ∨ imgLength img ≠ img.length ∨ imgSections img = 0 ∨ 64 < imgSections img then
    some (plainFail 0x04)
  else match stage img 0x05 (sectionBad img) with
    | some f => some f
    | none =>
      match stage img 0x06 (placeBad img) with
      | some f => some f
      | none =>
        match stage img 0x07 (fun _ e => imgCrc img e.off e.len != e.crc) with
        | some f => some f
        | none =>
          if imgCrc img 0x40 (imgLength img - 0x40) ≠ wordAt img 0x38 then some (plainFail 0x08)
          else none

/-! ## Sections into their blocks (R450, R452) -/

/-- Word k of a section, its loaded bits `mask` over the reset value; the reset value where the section is absent. -/
def secWord (img : List Byte) (kind inst k : Nat) (reset mask : Word) : Word :=
  match sectAt img kind inst with
  | some o => maskMerge reset (sectWord img o k) mask
  | none => reset

/-- The header's settings and the GLOBAL section, and the PATCH section (R449, R450) with its level in GL_REV (R529, log
entry 123). -/
def putGlobal (img : List Byte) (s : State) : State :=
  let g := fun k reset mask => secWord img 0x01 0 k reset mask
  let patch := match sectAt img 0x0F 0 with
    | some o => (img.drop o).take 8192
    | none => []
  let s := { s with boot := { s.boot with patchRam := memWrite [] 0 patch, profile := bitOf (wordAt img 0x08) 12, fromImg := true,
                                          imageId := w32 (fld (wordAt img 4) 16 16) } }
  let bdp := packW [(0, 9, fld (wordAt img 0x08) 16 9), (16, 12, fld (wordAt img 0x08) 0 12)]
  let s := s.modBdp fun b => { b with cfg := bdp }
  let s := s.modGl fun x => { x with relockUs := fld (g 0 0x2710#32 0xFFFF#32) 0 16
                                     patch := if patch.isEmpty then 0 else (Config.patchLevel patch).toNat
                                     gpioDir := fld (g 1 0#32 0xFFFF#32) 0 16
                                     gpioOut := fld (g 2 0#32 0xFFFF#32) 0 16 }
  let s := qmWrite 0x4008 (g 3 0x000A0064#32 0xFFFFFFFF#32) s
  let s := qmWrite 0x400C (g 4 0x1000#32 0x1FFFF#32) s
  let s := qmWrite 0x4010 (g 5 1#32 1#32) s
  let s := ltWrite 0x00C (g 6 1#32 1#32) s
  cdWrite 0x0 (g 7 0x3E8#32 0xFFFF#32) s

/-- The class map of the image. -/
def imgClasses (img : List Byte) : List (Nat × Word) :=
  (List.range 4).map fun k => (k, secWord img 0x0C 0 k (mget 0#32 Vx.classMap k) 0xFFFFFFFF#32)

/-- The VERTEX section. -/
def putVertex (img : List Byte) (s : State) : State :=
  s.modVx fun v => { v with classes := imgClasses img, cfg := secWord img 0x0C 0 4 Vx.reset.cfg 7#32 }

/-- The GATES section (R453): the settings of each gate; what it holds of claims stays. -/
def putGates (img : List Byte) (s : State) : State :=
  (List.range 256).foldl (fun s g =>
    let v := secWord img 0x04 0 g 0#32 0xFFFFFFFF#32
    s.modGate g fun e => { e with pairAddr := fld v 0 12, en := bitOf v 12, armMode := bitOf v 13 }) s

/-- Words 2 and 3 of queue q in the image, when it creates the queue. -/
def imgQueue (img : List Byte) (q : Nat) : Option (Word × Word) :=
  match sectAt img 0x05 0 with
  | some o => if sectWord img o (2 * q) = 0#32 then none else some (sectWord img o (2 * q), sectWord img o (2 * q + 1))
  | none => none

/-- A queue as words 2 and 3 of its section create it. -/
def putQueue (q : Nat) : Option (Word × Word) → State → State
  | some w, s =>
    createQueue q (fld w.1 0 16) (fld w.1 16 16) (fld w.2 0 3) (fld w.2 4 4) (fld w.2 8 4) (bitOf w.2 12) false s
  | none, s => s

/-- The queues of the image, in place of those that exist: items that were in these are discarded (log entry 40). -/
def putQueues (img : List Byte) (s : State) : State :=
  let s := s.modPool fun p => { p with queues := [], owner := [], linkBad := [], linkMark := [] }
  let s := { s with chans := mmap (fun c => { c with staged := [], commits := [], taken := [], rets := [], loaded := none, loadedCell := 65536 }) s.chans }
  let s := { s with cd := { s.cd with holds := [], rets := [] }, tg := { s.tg with emitQ := [], spCells := none } }
  let s := s.modBdp fun b => { b with due := [], own := [], answers := if inService s then [] else b.answers, echoes := [] }
  (List.range 256).foldl (fun s q => putQueue q (imgQueue img q) s) s

/-- The four words of route r in the image, when it adds the route. -/
def imgRoute (img : List Byte) (r : Nat) : Option (Word × Word × Word × Word) :=
  match sectAt img 0x06 0 with
  | some o =>
    if bitOf (sectWord img o (4 * r)) 1 then
      some (sectWord img o (4 * r) &&& 0x000FFFFF#32, sectWord img o (4 * r + 1), sectWord img o (4 * r + 2) &&& 0x3FFFF#32,
            sectWord img o (4 * r + 3) &&& 0x00FFFFFF#32)
    else none
  | none => none

/-- A route as its words add it, with a full bucket. -/
def putRoute (r : Nat) : Option (Word × Word × Word × Word) → State → State
  | some w, s => s.modRoute r fun _ =>
    { Route.reset with cfg := w.1, ident := w.2.1, xl := w.2.2.1, rate := w.2.2.2, tokens := fld w.2.2.2 16 8 }
  | none, s => s

/-- The routes of the image, with full buckets; en is the image's. -/
def putRoutes (img : List Byte) (s : State) : State :=
  (List.range 1024).foldl (fun s r => putRoute r (imgRoute img r) s) { s with cd := { s.cd with routes := [] } }

/-- The LANES section. -/
def putLanes (img : List Byte) (s : State) : State :=
  (List.range 16).foldl (fun s n => s.modCd fun c => { c with
    chIn := mset c.chIn n (secWord img 0x07 0 (2 * n) 0#32 0xFFFFFFFF#32)
    laneEn := mset c.laneEn n (fld (secWord img 0x07 0 (2 * n + 1) 0#32 0xF#32) 0 4) }) s

/-- The list of channel n into one half of its region; END throughout where its LIST section is absent. -/
def putList (img : List Byte) (n : Nat) (half : Bool) (s : State) : State :=
  let lo := elemIdx half n 0
  let s := s.modLat fun l => { l with elems := l.elems.filter (fun e => e.1 < lo ∨ lo + 512 ≤ e.1)
                                      elemErr := l.elemErr.filter (fun e => e.1 < lo ∨ lo + 512 ≤ e.1) }
  onSection img 0x03 n (fun o s => (List.range 512).foldl (fun s p =>
    setElem (elemIdx half n p) (join64 (sectWord img o (2 * p)) (sectWord img o (2 * p + 1))) s) s) s

/-- Word k of context c in a CONTEXTS section at offset o (25 words a context). -/
def ctxSecWord (img : List Byte) (o c k : Nat) : Word := sectWord img o (25 * c + k)

/-- The contexts of the image, configured and not yet enabled; the input latches stay. -/
def putContexts (img : List Byte) (s : State) : State :=
  let s := { s with tg := { s.tg with ctxs := mmap (fun (x : Ctx) => { Ctx.reset with
    latch := x.latch, valid := x.valid, updated := x.updated, latchCh := x.latchCh }) s.tg.ctxs } }
  onSection img 0x08 0 (fun o s => (List.range 512).foldl (fun s c =>
    if bitOf (ctxSecWord img o c 24) 0 then configCtx c ((List.range 24).map (ctxSecWord img o c)) s else s) s) s

/-- CK_CFG and CK_CFG2 of unit u in the image. -/
def imgUnit (img : List Byte) (u : Nat) : Word × Word :=
  (secWord img 0x09 0 (2 * u) 0x80#32 0x07FFFFFF#32, secWord img 0x09 0 (2 * u + 1) 0#32 0x7FFFFFFF#32)

/-- The check units of the image, the sequence records cleared as 0x60 CK_CONFIG clears them. -/
def putUnits (img : List Byte) (s : State) : State :=
  (List.range 32).foldl (fun s u => s.modUnit u fun x =>
    { x with cfg := (imgUnit img u).1, cfg2 := (imgUnit img u).2, seqV := 0, job := none }) s

/-- The TIME section but for the role and the rate. -/
def putTime (img : List Byte) (s : State) : State :=
  let g := fun k reset => secWord img 0x0A 0 k reset 0xFFFFFFFF#32
  let s := tmWrite 0x010 (g 1 0x03E82831#32) s
  let s := tmWrite 0x014 (g 2 0x003C01F4#32) s
  let s := tmWrite 0x020 (g 3 0x7D#32) s
  let s := tmWrite 0x024 (g 4 0x00640000#32) s
  tmWrite 0x028 (g 5 0#32) s

/-- The words of TM_ROLE for the image's role. -/
def imgRole (img : List Byte) : Word × Word :=
  let w := secWord img 0x0A 0 0 0#32 0xFFFF00FF#32
  (w32 (fld w 0 8), w32 (fld w 16 16))

/-- The image's rate adjustment is applied: the role is FREE or MASTER with pps = 0 (R450). -/
def rateApplies (img : List Byte) : Bool := decide (fld (imgRole img).1 0 3 ≤ 1) && !bitOf (imgRole img).1 3

/-- The rate adjustment of the image. -/
def imgRate (img : List Byte) : Int := sw (secWord img 0x0A 0 6 0#32 0xFFFFFFFF#32)

/-- Words 2 to 4 of 0x68 DX_CONFIG in the image. -/
def imgDx (img : List Byte) : Word × Word × Word :=
  (secWord img 0x0B 0 0 0x0000043C#32 0xFFFF0FFD#32, secWord img 0x0B 0 1 0x64#32 0x07FFFFFF#32,
   secWord img 0x0B 0 2 0x002803E8#32 0x00FFFFFF#32)

/-- The POWER section, as its registers load it. -/
def putPower (img : List Byte) (s : State) : State :=
  let g := fun k reset mask => secWord img 0x0D 0 k reset mask
  let s := setPwGlobal (g 0 Pw.reset.cfg 0xFFFF0007#32) (g 1 Pw.reset.ballotReg 0xFFFFFFFF#32)
    (g 2 Pw.reset.ballot2 0xFFFFFFFF#32) (g 3 0#32 0xFFFF#32) s
  (List.range 16).foldl (fun s n =>
    setChWake n (g (16 + 4 * n) (chWake State.reset n) 0x00FF0777#32) (g (17 + 4 * n) (chConf State.reset n) 0xFFFF#32) s) s

/-- The MARGIN section. -/
def putMargin (img : List Byte) (s : State) : State :=
  let g := fun k reset => secWord img 0x0E 0 k reset 0xFFFFFFFF#32
  let s := mpWrite 0x000 (g 0 Mp.reset.cfg) s
  let s := mpWrite 0x004 (g 1 Mp.reset.guard) s
  (List.range 16).foldl (fun s n =>
    mpWrite (0x104 + 0x20 * n) (g (3 + 2 * n) (mpChLim State.reset n))
      (mpWrite (0x100 + 0x20 * n) (g (2 + 2 * n) (mpChCfg State.reset n)) s)) s

/-- Every section in its block, but for what acts: the lists' commit, the contexts' enabling, the role, the duplex state, the
channels. `halves`: the halves of each channel's region that take its list. -/
def loadSections (img : List Byte) (halves : Nat → List Bool) (s : State) : State :=
  let s := putGates img (putVertex img (putGlobal img s))
  let s := putLanes img (putRoutes img (putQueues img s))
  let s := (List.range 16).foldl (fun s n => (halves n).foldl (fun s h => putList img n h s) s) s
  putMargin img (putPower img (putTime img (putUnits img (putContexts img s))))

/-- The state that the content checks judge: everything as the image has it, the channels' settings among it. -/
def trialState (img : List Byte) (s : State) : State :=
  let s := loadSections img (fun _ => [false, true]) s
  (List.range 16).foldl (fun s n =>
    let off := sectAt img secChannel n
    let s := s.modChan n (imageRegs img off)
    s.modLat fun l => { l with chDef := mset l.chDef n (secWord img secChannel n 0x3D 0#32 0x000FFF07#32) }) s

/-! ## The content checks of R452 -/

/-- A check's finding: status and limit, or none. -/
abbrev Finding2 := Option (Nat × Nat)

/-- E_PROFILE with a limit (R481). -/
def overLimit (l : Nat) : Finding2 := if l = 0 then none else some (eProfile, l)

/-- A status that is not OK. -/
def badStatus (st : Nat) : Finding2 := if st = stOk then none else some (st, 0)

/-- The first finding of the two. -/
def orElse2 (a b : Finding2) : Finding2 := match a with | some x => some x | none => b

/-- The first finding over 0 to n - 1. -/
def firstBad (n : Nat) (f : Nat → Finding2) : Finding2 := (List.range n).findSome? f

/-- VERTEX (R385, R410). -/
def vertexFinding (s : State) (img : List Byte) : Finding2 :=
  match sectAt img 0x0C 0 with
  | some _ =>
    let m := imgClasses img
    badStatus (if classesBad m then eParam
      else if (List.range 64).any fun i => bitOf64 s.vx.stat i && classMapOf m i != classMapOf s.vx.classes i then eState
      else stOk)
  | none => none

/-- QUEUES (R173, R174, R201): `t` has every queue of the image. -/
def queueFinding (t : State) (img : List Byte) (q : Nat) : Finding2 :=
  match imgQueue img q with
  | some (w2, w3) =>
    let min := fld w2 0 16
    let max := fld w2 16 16
    let tx := fld w3 0 3 == 5
    let ch := fld w3 4 4
    let pos := fld w3 8 4
    let limit := if !t.boot.profile then 0 else if tx && decide (8 ≤ ch) then 0x01 else if 64 ≤ q then 0x05
      else if tx && decide (8 ≤ pos) then 0x0B else 0
    let earlier := (List.range q).filterMap (imgQueue img)
    let taken := tx && earlier.any fun e => fld e.2 0 3 == 5 && fld e.2 4 4 == ch && fld e.2 8 4 == pos
    let sum := earlier.foldl (fun a e => a + fld e.1 0 16) min
    orElse2 (overLimit limit) (badStatus (
      if max = 0 ∨ max < min ∨ 6 ≤ fld w3 0 3 ∨ taken then eParam
      else if minLimit t < sum ∨ (xlFedNow t q ∧ min < 35) then eCap else stOk))
  | none => none

/-- ROUTES (R249). -/
def routeFinding (t : State) (img : List Byte) (r : Nat) : Finding2 :=
  match imgRoute img r with
  | some (cfg, ident, xl, rate) =>
    orElse2 (overLimit (if t.boot.profile && (decide (256 ≤ r) || bitOf cfg 4 || fld cfg 2 2 == 3) then 0x07 else 0))
      (badStatus (if routeParamsOk t cfg ident xl rate then stOk else eParam))
  | none => none

/-- LIST (R137, R140). LEGACY refuses a section of channels 8 to 15 before the region is checked (R480, R481). -/
def listFinding (t : State) (img : List Byte) (n : Nat) : Finding2 :=
  orElse2 (overLimit (if t.boot.profile && decide (8 ≤ n) && (sectAt img 0x03 n).isSome then 0x01 else 0))
    ((checkRegion t (!activeHalf t n) n).map fun f => (f.status, if f.status = eProfile then f.reason else 0))

/-- CONTEXTS (R310, R450). -/
def contextFinding (t : State) (img : List Byte) (c : Nat) : Finding2 :=
  match sectAt img 0x08 0 with
  | some o =>
    let w := ctxSecWord img o c
    if fld (w 24) 2 2 = 3 then some (eParam, 0)
    else if bitOf (w 24) 0 then
      orElse2 (overLimit (if t.boot.profile then 0x08 else 0)) (badStatus (if ctxBad t c w then eParam else stOk))
    else none
  | none => none

/-- CHECK (R341); `s`: before the commit. -/
def unitFinding (s t : State) (img : List Byte) (u : Nat) : Finding2 :=
  match sectAt img 0x09 0 with
  | some _ =>
    let cfg := (imgUnit img u).1
    let cfg2 := (imgUnit img u).2
    orElse2 (overLimit (if t.boot.profile && decide (8 ≤ u) && ckMode cfg != 0 then 0x0A else 0))
      (badStatus (if ckConfigBad t cfg cfg2 then eParam
        else if ckMode cfg = 2 ∧ ckServed t u (fld cfg 8 8) then eState
        else if ckBusy s u then eBusy else stOk))
  | none => none

/-- TIME (R259, R267). -/
def timeFinding (t : State) (img : List Byte) : Finding2 :=
  badStatus (if roleBad t (imgRole img).1 (imgRole img).2
      || (rateApplies img && decide (imgRate img < -500000 ∨ 500000 < imgRate img)) then eParam else stOk)

/-- DUPLEX (R379); `s`: before the commit; `serial`: the interface of the app buffer's address. -/
def duplexFinding (s t : State) (serial : Bool) (img : List Byte) : Finding2 :=
  match sectAt img 0x0B 0 with
  | some o =>
    let (w2, w3, w4) := imgDx img
    let app := fld w3 16 11
    orElse2 (overLimit (if t.boot.profile && bitOf w2 0 then 0x09 else 0)) (badStatus (
      if dxBad t w2 w3 w4 || (serial && app != 0 && !stgOk t (sectWord img o 3) (sectWord img o 4) (64 * app)) then eParam
      else if dxCap w3 then eCap else if dxFixed s w2 then eState else stOk))
  | none => none

/-- POWER (R438); `s`: before the commit. -/
def powerFinding (s : State) (img : List Byte) : Finding2 :=
  match sectAt img 0x0D 0 with
  | some o =>
    let g := fun k m => sectWord img o k &&& m
    badStatus (
      if !pwGlobalOk (g 0 0xFFFF0007#32) (g 1 0xFFFFFFFF#32) (g 2 0xFFFFFFFF#32) (g 3 0xFFFF#32) then eParam
      else if (List.range 16).any fun n => !chWakeOk (g (16 + 4 * n) 0x00FF0777#32) (g (17 + 4 * n) 0xFFFF#32) then eParam
      else if maskBusy s (g 1 0xFFFFFFFF#32) then eState else stOk)
  | none => none

/-- CHANNEL (R54, R98, R105, R277). LEGACY refuses every section of channels 8 to 15; its other limits are those of 0x11 CH_START, for
the channels that the image starts (R480, R481, log entry 112). -/
def channelFinding (t : State) (img : List Byte) (n : Nat) : Finding2 :=
  match sectAt img secChannel n with
  | some o =>
    let m := (t.chan n).mode
    let limit := if !t.boot.profile then 0 else if 8 ≤ n then 0x01
      else if !bitOf (wordAt img (o + 0xFC)) 0 then 0 else if bitOf m 6 || bitOf m 9 then 0x02 else if bitOf m 3 then 0x03
      else if fld m 0 3 = 1 then 0x04 else 0
    orElse2 (overLimit limit) (badStatus (if settingsOk (t.chan n) && bdpSettingsOk t n then stOk else eParam))
  | none => none

/-- A finding as a failure of the section of a type. -/
def asFail (img : List Byte) (kind inst : Nat) (x : Finding2) : Option ImgFail :=
  x.map fun e => { sec := secIndex img kind inst, reason := 0x0A, status := e.1, limit := e.2 }

/-- The content checks in the order of R452. -/
def contentFail (s : State) (serial : Bool) (img : List Byte) : Option ImgFail :=
  let t := trialState img s
  let per := fun kind f => (List.range 16).findSome? fun n => asFail img kind n (f n)
  [asFail img 0x0C 0 (vertexFinding s img), asFail img 0x05 0 (firstBad 256 (queueFinding t img)),
   asFail img 0x06 0 (firstBad 1024 (routeFinding t img)),
   asFail img 0x07 0 (firstBad 16 fun n => badStatus (laneStatus t n)), per 0x03 (listFinding t img),
   asFail img 0x08 0 (firstBad 512 (contextFinding t img)), asFail img 0x09 0 (firstBad 32 (unitFinding s t img)),
   asFail img 0x0A 0 (timeFinding t img), asFail img 0x0B 0 (duplexFinding s t serial img),
   asFail img 0x0D 0 (powerFinding s img), per secChannel (channelFinding t img)].findSome? id

/-! ## The commit (R452, R565) -/

/-- Commands in progress on what a commit replaces end with E_STATE: LT_WRITE, Q_FLUSH, TX_SUBMIT, FEED_QUEUE (log entry
40). -/
def endDisplaced (s : State) : State :=
  let rs := [0x20, 0x31, 0x40, 0x61].flatMap fun op => waiting s op fun _ => true
  let s := rs.foldl (endCommand eState) s
  s.modLat fun l => { l with writes := l.writes.filter fun w => !rs.contains w.ring }

/-- QM_Q_CFG xl_fed as the commit judges it (R174). -/
def judgeXl (t : State) (s : State) : State :=
  s.modPool fun p => { p with queues := p.queues.map fun e => (e.1, { e.2 with xlFed := xlFedNow t e.1 }) }

/-- The device enters SERVICE (R443, R457): ALIVE toggles, GL_BOOT_T stops. -/
def enterService (s : State) : State :=
  let us := Nat.min 0xFFFFFF (1000 + s.boot.cycles / 480)
  let b := if s.boot.phase == Phase.service then s.boot else { s.boot with phase := Phase.service, bootUs := us }
  ({ s with boot := b }).modVx fun v => { v with aliveRun := true }

/-- The contexts that the image marks enabled are enabled. -/
def enableContexts (img : List Byte) (s : State) : State :=
  onSection img 0x08 0 (fun o s => (List.range 512).foldl (fun s c =>
    let w := ctxSecWord img o c 24
    if bitOf w 0 && bitOf w 1 then enableCtx c (fld w 2 2) none s else s) s) s

/-- The role, the rate and the duplex configuration take effect. -/
def startBlocks (img : List Byte) (serial : Bool) (s : State) : State :=
  let s := roleChange (imgRole img).1 (imgRole img).2 s
  let s := if rateApplies img then s.modTm fun t => { t with adj := imgRate img, integ := imgRate img } else s
  let w := imgDx img
  setDx w.1 w.2.1 w.2.2 (secWord img 0x0B 0 3 0#32 0xFFFFFFFF#32) (secWord img 0x0B 0 4 0#32 0xFFFFFFFF#32) serial s

/-- A target that a set class-2 bit names is forced safe again (R392). -/
def forceAgain (t : Target) (s : State) : State :=
  match t with
  | .chan n => chanSafe n 0x03 s
  | _ => s

/-- Every target that a set class-2 bit names is forced safe again (R392). -/
def forceHeld (s : State) : State := s.vx.held.foldl (fun s h => forceAgain h.2 s) s

/-- The blocks take the image: the sections, the lists' halves, the contexts, the role and the duplex configuration; the device
address goes to the retention (R284). -/
def applyBlocks (serial : Bool) (img : List Byte) (s : State) : State :=
  let t := trialState img s
  let s := endDisplaced s
  let s := judgeXl t (poolLow (loadSections img (fun n => [!activeHalf s n]) s))
  let s := noteReasons s (enableContexts img (ltSwap 4 0xFFFF true s))
  let s := startBlocks img serial s
  s.modRet fun r => { r with devAddr := some (devAddr s) }

/-- The channels take the commit's settings, at once or when their frame on the wire ends (R448). -/
def startCommit (j : CommitJob) (s : State) : State :=
  (List.range 16).foldl (fun s n => takeSettings n s) { s with boot := { s.boot with commit := some j } }

/-- A checked image takes effect; the command of `ring` completes with it. -/
def applyImage (ring : Option Nat) (serial : Bool) (img : List Byte) (s : State) : State :=
  let s := enterService (applyBlocks serial img s)
  let s := forceHeld (startCommit { ring := ring, empty := false, image := img, start := List.range 16 } s)
  match ring with
  | some r => complete r stOk s.boot.imageId 0 s
  | none => s

/-- The checks of 0x02 COMMIT_CONFIG: R13, then those of R452. -/
def commitFail (s : State) (serial : Bool) (img : List Byte) : Option ImgFail :=
  if addressBad s img then some (addressFail img) else contentFail s serial img

/-- The checks and the commit of a loaded image; `ring` is that of the command, none for the flash. -/
def commitImage (ring : Option Nat) (serial : Bool) (img : List Byte) (s : State) : Option ImgFail × State :=
  afterChecks (fun f => (some f, recordFail f s)) (none, applyImage ring serial img s) (commitFail s serial img)

/-- What R137 finds in the shadow halves of all channels (R565). -/
def emptyFinding (s : State) : Option (Nat × Finding) := checkRegions s (fun n => !activeHalf s n) (List.range 16)

/-- The checks that 0x02 COMMIT_CONFIG makes with empty = 1 (R565): R137 on the shadow halves, R174. -/
def emptyFail (s : State) : Option ImgFail :=
  let bad := fun st l => some { sec := 0, reason := 0x0A, status := st, limit := l : ImgFail }
  match emptyFinding s with
  | some (_, f) => bad f.status (if f.status = eProfile then f.reason else 0)
  | none => if s.pool.queues.any fun e => e.2.state != .none && xlFedNow s e.1 && decide (e.2.min < 35) then bad eCap 0 else none

/-- The commit of R565: the shadow halves commit, the device enters SERVICE, the channels of the reduced service stop, and
what a class-2 bit names is forced safe (R392). -/
def applyEmpty (ring : Nat) (s : State) : State :=
  let s := enterService (ltSwap 4 0xFFFF true (judgeXl s s))
  let s := forceHeld (startCommit { ring := some ring, empty := true, image := [], start := List.range 4 } s)
  complete ring stOk s.boot.imageId 0 s

/-! ## 0x03 LOAD_IMAGE and 0x02 COMMIT_CONFIG (R455, R456) -/

/-- What R456 asks of the device in SERVICE: every channel STOPPED, every context idle, the duplex state SOLO. -/
def quiescent (s : State) : Bool :=
  ((List.range 16).all fun n => (s.chan n).state == .stopped)
  && (s.tg.ctxs.all fun e => e.2.state == .disabled || e.2.state == .unconfigured || e.2.state == .failed)
  && s.dx.state == 0

/-- A load from the given interface is possible now (R445, R456): from the source that BOOT_SEL names in B3, from either
interface under NONE, in B3_FAILED and in SERVICE. -/
def loadPossible (s : State) (serial : Bool) : Bool :=
  match s.boot.phase with
  | .b0 => false
  | .b2 => false
  | .b3 =>
    match s.boot.straps.bootSel.val with
    | 0 => false
    | 1 => !serial
    | 2 => serial
    | _ => true
  | .service => quiescent s
  | .failed => true

/-- The command of a loaded image ends as its checks and, with commit = 1, its commit say. -/
def imageCommand (r : Nat) (img : List Byte) (s : State) : State :=
  let x := commitImage (some r) (ringSerial s r) img s
  afterChecks (fun f => complete r (failStatus f) 0 (failWord f) x.2) x.2 x.1

/-- The image has arrived: it is checked, kept, and with commit = 1 committed. A load that fails leaves no image (log entry
41). -/
def loadImageData (r : Nat) (data : List Byte) (s : State) : State :=
  let s := s.modCmd r fun c => { c with dma := false }
  let img := data.take (pkt s r 4).toNat
  let good := { s with boot := { s.boot with image := some img } }
  afterChecks
    (fun f => complete r (failStatus f) 0 (failWord f) (recordFail f { s with boot := { s.boot with image := none } }))
    (if bitOf (pkt s r 0) 8 then imageCommand r img good else complete r stOk (w32 (fld (wordAt img 4) 16 16)) 0 good)
    (imageFail img)

/-- A read of the image has failed (R496): result word 0 is the bytes taken before it, which have replaced the image that was
loaded. -/
def loadImageCut (r st : Nat) (info : Word) (before : List Byte) (s : State) : State :=
  let k := Nat.min before.length (pkt s r 4).toNat
  complete r st (w32 k) info (if k = 0 then s else { s with boot := { s.boot with image := none } })

/-- The commands 0x03 with the commit flag as given. -/
def isLoad (commit : Bool) (ws : List Word) : Bool := pOpcode ws == 0x03 && bitOf (wd ws 0) 8 == commit

/-- 0x03 LOAD_IMAGE. -/
def loadImageBody (r : Nat) (ws : List Word) (s : State) : State :=
  let n := (wd ws 4).toNat
  if !addrOk s r (wd ws 2) (wd ws 3) n then complete r eParam 0 0 s
  else if !loadPossible s (ringSerial s r) then complete r eState 0 0 s
  else if (waiting s 0x03 fun _ => true).any (· != r) then complete r eBusy 0 0 s
  else dataIn r (wd ws 2) n (loadImageData r) s

/-- LOAD_IMAGE: without commit. -/
def execLoadImage (r : Fin 4) (s : State) : Host.Outcome State Fault Refusal :=
  .next (beginWhen r.val (isLoad false) (loadImageBody r.val) s)

/-- LOAD_IMAGE_COMMIT: with commit = 1. -/
def execLoadImageCommit (r : Fin 4) (s : State) : Host.Outcome State Fault Refusal :=
  .next (beginWhen r.val (isLoad true) (loadImageBody r.val) s)

/-- The commands 0x02 with the empty flag as given. -/
def isCommit (empty : Bool) (ws : List Word) : Bool := pOpcode ws == 0x02 && bitOf (wd ws 0) 8 == empty

/-- 0x02 COMMIT_CONFIG with empty = 0: from either interface, and in SERVICE where R456 lets it. -/
def commitConfigBody (r : Nat) (s : State) : State :=
  match s.boot.image with
  | some img => if inService s && !quiescent s then complete r eState 0 0 s else imageCommand r img s
  | none => complete r eState 0 0 s

/-- COMMIT_CONFIG. -/
def execCommitConfig (r : Fin 4) (s : State) : Host.Outcome State Fault Refusal :=
  .next (beginWhen r.val (isCommit false) (fun _ s => commitConfigBody r.val s) s)

/-- 0x02 COMMIT_CONFIG with empty = 1. -/
def commitEmptyBody (r : Nat) (s : State) : State :=
  if s.boot.phase ≠ .b3 ∨ s.boot.straps.bootSel ≠ 3 then complete r eState 0 0 s
  else
    let fail := emptyFail s
    let s := checkReads (fun n => !activeHalf s n) (List.range 16) (emptyFinding s) s
    match fail with
    | some f => complete r (failStatus f) 0 (failWord f) (recordFail f s)
    | none => applyEmpty r s

/-- COMMIT_CONFIG_EMPTY. -/
def execCommitConfigEmpty (r : Fin 4) (s : State) : Host.Outcome State Fault Refusal :=
  .next (beginWhen r.val (isCommit true) (fun _ s => commitEmptyBody r.val s) s)

/-! ## 0x05 SET_PROFILE (R482 to R484, R566) -/

/-- The limit that keeps the device from LEGACY, or 0 (R482, R566). -/
def legacyBlocked (s : State) : Nat :=
  if s.pool.queues.any fun e => e.2.state != .none && decide (63 < e.1) then 0x05
  else if s.lat.gates.any fun e => e.2.en then 0x06
  else if s.cd.routes.any fun e => bitOf e.2.cfg 1 && decide (255 < e.1) then 0x07
  else if s.tg.ctxs.any fun e => e.2.state != .unconfigured then 0x08
  else if s.dx.pairEn then 0x09 else 0

/-- 0x05 SET_PROFILE. -/
def setProfileBody (r : Nat) (ws : List Word) (s : State) : State :=
  let legacy := bitOf (wd ws 1) 0
  let lim := if legacy && !s.boot.profile then legacyBlocked s else 0
  let same := fun st l => complete r st (glProfile s.boot) (w32 l) s
  if fld (wd ws 1) 1 31 ≠ 0 then same eParam 0
  else if inService s ∧ !quiescent s then same eState 0
  else if lim ≠ 0 then same eProfile lim
  else
    let s := { s with boot := { s.boot with profile := legacy, fromImg := false } }
    complete r stOk (glProfile s.boot) 0 s

/-- SET_PROFILE. -/
def execSetProfile (r : Fin 4) (s : State) : Host.Outcome State Fault Refusal :=
  .next (beginOp r.val 0x05 (setProfileBody r.val) s)

end Sys2Proof.Machine
end

