-- ==== Sys2Proof/Machine/Boot.lean ====
section
/-!
DEFINITION. Reset and bring-up (chapter 16): the reset sources (R440, R441, R551), the phases (R443, R444), the flash boot
(R445, R446).
-/
namespace Sys2Proof.Machine

/-! ## Resets (R8, R440 to R442) -/

/-- The wake controller through a reset (R437): every PW register stays, but for ballot, committed and reasons; the core
runs again, and no wake waits to be served. -/
def pwReset (p : Pw) : Pw :=
  { p with mode := .run, ballot := 0, bal := none, committed := false, latch := 0, byFrame := [], hostHeld := false
           appCodes := [], hostWake := [], traffic := [], wakeInput := [], locals := [], reenter := none, lapsed := 0 }

/-- What both kinds of reset leave: the Reset values, the always-on domain and the board's pins as they were, the straps as
sampled. -/
def resetBase (straps : Straps) (cause : Nat) (s : State) : State :=
  { State.reset with
    pw := pwReset s.pw, ret := s.ret, outs := s.outs, freeCtr := s.freeCtr, pending := s.pending, tap := s.tap
    gl := { Gl.reset with gpioPins := s.gl.gpioPins }
    dx := { Dx.reset with unit := straps.unitId.val }
    boot := { Boot.reset with straps := straps, pins := s.boot.pins, cause := cause } }

/-- The retention is checked at B0 (R420); the claim in force is the retained one (R347). -/
def takeRetention (bad : List (Fin 128)) (s : State) : State :=
  let s := retCheck bad s
  s.modDx fun d => { d with claim := s.ret.claim, highest := s.ret.claim }

/-- The class-2 reactions that a reset leaves in force: all but those on a queue (R392). -/
def keepHeld (h : Nat × Target) : Bool := match h.2 with | .queue _ => false | _ => true

/-- What RESET_N and soft reset keep beside it (R38, R142, R391, R459, R464): Vertex, the claim gates, the wheel's parity record,
the guard steps and the largest slowdown. The link of an unpaired device is down without fault (R348). -/
def keepWarm (old s : State) : State :=
  let v := old.vx
  { s with
    vx := { v with level := putBit64 v.level 31 false, aliveRun := false, alivePin := false, proof := none
                   held := v.held.filter keepHeld }
    lat := { s.lat with gates := old.lat.gates, gateErr := old.lat.gateErr }
    gl := { s.gl with perrSlot := old.gl.perrSlot, perrLane := old.gl.perrLane, perrSeen := old.gl.perrSeen }
    mp := { s.mp with guard := putFld (putFld s.mp.guard 1 3 (fld old.mp.guard 1 3)) 16 16 (fld old.mp.guard 16 16) } }

/-- RESET_N or soft reset (R440 to R442): the straps are sampled, TESTMODE is not. `bad`: retention bytes with a parity
error. Nothing happens in the device safe state. -/
def warmReset (straps : Straps) (bad : List (Fin 128)) (cause : Nat) (s : State) : State :=
  if s.vx.safe ∨ s.pw.mode = .hibernate then s
  else takeRetention bad (keepWarm s (resetBase { straps with testMode := s.boot.straps.testMode } cause (atStraps straps s)))

/-- PW_WAKE at an exit from HIBERNATE (R418, R437): the latch, or EXTERNAL where no bit is set. -/
def bringUpWake (p : Pw) : Word := if p.latch = 0 then packW [(19, 1, 1)] else wakeCauses p.latch

/-- Core power-on reset ends (R440): from HIBERNATE it is the exit (R418). TESTMODE is sampled (R407). -/
def coldReset (straps : Straps) (bad : List (Fin 128)) (s : State) : State :=
  let hib := s.pw.mode == PwMode.hibernate
  let wake := bringUpWake s.pw
  let s := resetBase straps (if hib then 3 else 0) (atStraps straps s)
  let s := if hib then awakeRestart (s.modPw fun p => { p with wake := wake, pwrHold := true }) else s
  let s := if straps.testMode then vxLevelOn 63 0 (s.modVx fun v => { v with testMode := true }) else s
  takeRetention bad s

/-- Core power-on reset holds the device, with VDD_IO or VDD_SER known to be below its threshold or not. -/
def holdPor (io ser : Bool) (s : State) : State := { s with boot := { s.boot with porHeld := true, ioLow := io, serLow := ser } }
/-- RESET_N holds the device, or holds it no more (R551). -/
def holdRst (low : Bool) (s : State) : State := { s with boot := { s.boot with rstHeld := low } }

/-- CORE_POR; while RESET_N is still low, B0 starts at its rising edge (R551). -/
def execCorePor (straps : Straps) (bad : List (Fin 128)) (s : State) : Host.Outcome State Fault Refusal :=
  .next (holdRst s.boot.rstHeld (coldReset straps bad s))

/-- RESET_N: it rises after at least 10 µs. While a core supply is still below its threshold, core power-on reset goes on holding the
device (R551). -/
def execResetN (straps : Straps) (bad : List (Fin 128)) (s : State) : Host.Outcome State Fault Refusal :=
  .next (if s.boot.porHeld then holdRst false s else warmReset straps bad 1 s)

/-- SOFT_RESET: GL_RST soft_reset is written 1; it acts while GL_KEY is unlocked (R457, R532). -/
def execSoftReset (i : Iface) (straps : Straps) (bad : List (Fin 128)) (s : State) : Host.Outcome State Fault Refusal :=
  .next (regAccess i 0x64 (fun s => if keyOpen s then warmReset straps bad 2 s else s) s)

/-- RESET_N_ASSERTED: RESET_N is low past the filter. -/
def execResetNAsserted (s : State) : Host.Outcome State Fault Refusal :=
  .next (
    if s.vx.safe ∨ s.pw.mode = .hibernate then s
    else if s.boot.porHeld then holdRst true s
    else holdRst true (warmReset (strapLevels s) [] 1 s))

/-- CORE_POR_ASSERTED (R551): a supply falls below its threshold, VDD_CORE (0), VDD_PLL (1), VDD_IO (2) or VDD_SER (3), in HIBERNATE
because PWR_HOLD is low. -/
def execCorePorAsserted (s : State) (rail : Fin 4 := 0) : Host.Outcome State Fault Refusal :=
  .next (
    let t := holdRst s.boot.rstHeld
      (holdPor (s.boot.ioLow || rail == 2) (s.boot.serLow || rail == 3) (resetBase s.boot.straps 0 s))
    if s.pw.mode = .hibernate then { t with pw := s.pw } else t)

/-- VAO_POR (R413, R440): retention and PW registers are cleared and PWR_HOLD is driven high. A device that was in HIBERNATE
waits for its core supply as in any power-up. -/
def execVaoPor (s : State) : Host.Outcome State Fault Refusal :=
  .next (
    let hib := s.pw.mode == PwMode.hibernate
    let s := { s with ret := Ret.reset, pw := { Pw.reset with mode := if hib then .run else s.pw.mode } }
    if hib then holdPor false false s else s)

/-- VAO_LOST (R415): retention, counters and the wake latch are lost; PWR_HOLD is no longer driven. -/
def execVaoLost (s : State) : Host.Outcome State Fault Refusal :=
  .next ({ s with ret := Ret.reset }.modPw fun p =>
    { p with latch := 0, byFrame := [], winCount := [], pwrHold := false, vao := false })

/-! ## Phases (R443, R444) -/

/-- Bring-up stands in phase p, and the device is neither held in reset nor in the safe state. -/
def bringUp (p : Phase) (s : State) : Bool := s.boot.phase == p && !s.boot.inReset && !s.vx.safe

/-- Changes bring-up. -/
def State.modBoot (s : State) (f : Boot → Boot) : State := { s with boot := f s.boot }

/-- ROM_CHECK_DONE: a failure is source 35 and the safe state. -/
def execRomCheckDone (ok : Bool) (s : State) : Host.Outcome State Fault Refusal :=
  .next (
    if bringUp .b0 s && !s.boot.rom then
      if ok then s.modBoot fun b => { b with rom := true } else enterSafe (vxAssert 35 0 s)
    else s)

/-- Channel n begins in the reduced service (R392, R447): integrating, its transceiver NORMAL. -/
def joinReduced (n : Nat) (s : State) : State :=
  if heldBy s (.chan n) then s
  else s.modChan n fun c => { c with state := .integrating, trx := 0, trxTgt := 0, settling := false, pinsDrv := true }

/-- REFERENCE_STABLE: B1's reduced service starts with the retained device address (R284), and B2. -/
def execReferenceStable (s : State) : Host.Outcome State Fault Refusal :=
  .next (
    if bringUp .b0 s && s.boot.rom then
      let s := s.modBoot fun b => { b with phase := .b2 }
      let s := s.modBdp fun b => { b with cfg := putFld b.cfg 16 12 (s.ret.devAddr.getD 0xFFF) }
      (List.range 4).foldl (fun s n => joinReduced n s) s
    else s)

/-- REFERENCE_TIMEOUT: source 26 with detail [1]. -/
def execReferenceTimeout (s : State) : Host.Outcome State Fault Refusal :=
  .next (if bringUp .b0 s && s.boot.rom then enterSafe (vxLevelOn 26 2#32 s) else s)

/-- PLL_LOCKED. -/
def execPllLocked (s : State) : Host.Outcome State Fault Refusal :=
  .next (if bringUp .b2 s then s.modBoot fun b => { b with locked := true } else s)

/-- PLL_LOCK_TIMEOUT: source 25. -/
def execPllLockTimeout (s : State) : Host.Outcome State Fault Refusal :=
  .next (if bringUp .b2 s && !s.boot.locked then enterSafe (vxLevelOn 25 0 s) else s)

/-- BIST_DONE: B3 with the pool clear and the wheel's rounds counted from here, or B3_FAILED with reason BIST and source 23;
`us`: the microseconds from B1 entry, for GL_BOOT_T. -/
def execBistDone (ok : Bool) (us : Nat) (s : State) : Host.Outcome State Fault Refusal :=
  .next (
    if bringUp .b2 s && s.boot.locked then
      let s := s.modBoot fun b => { b with cycles := us * 480 }
      if ok then
        { (s.modPool fun p => { p with mem := [] }) with boot := { s.boot with phase := .b3 }, round := 0 }
      else vxAssert 23 0xFF#32 (recordFail (plainFail 0x0C) (s.modBoot fun b => { b with phase := .failed }))
    else s)

/-- SEQUENCER_WATCHDOG: source 34. -/
def execSequencerWatchdog (s : State) : Host.Outcome State Fault Refusal :=
  .next (if s.boot.inReset then s else vxAssert 34 0 s)

/-! ## Flash boot (R445, R446, R449) -/

/-- A flash copy is being read: B3 with BOOT_SEL FLASH. -/
def flashReads (s : State) : Bool := bringUp .b3 s && s.boot.straps.bootSel == 0

/-- The copy being read has failed: copy B follows A, and after B no image is left. -/
def copyFailed (f : ImgFail) (s : State) : State :=
  let s := recordFail f s
  if s.boot.reading = 0 then s.modBoot fun b => { b with reading := 1 }
  else vxAssert 36 (w32 f.sec) (s.modBoot fun b => { b with phase := .failed })

/-- The commit of the copy being read. -/
def copyCommit (img : List Byte) (s : State) : Option ImgFail × State :=
  commitImage none false img { s with boot := { s.boot with copy := s.boot.reading } }

/-- The image being read is staged in the cell pool through the host DMA slots (R446), in cells that hold nothing else; which they are
is left open (log entry 46). -/
def stageCopy (img : List Byte) (s : State) : State :=
  let b := (img.take 1048576)
  let n := (b.length + 63) / 64
  let c := (Config.flashCell s.freeCtr).toNat % (65537 - s.sq.stgCells - n)
  s.freshTick.modPool fun p => { p with mem := memWrite p.mem (64 * c) b }

/-- A copy has been read whole. -/
def copyRead (img : List Byte) (s : State) : State :=
  afterChecks (fun f => copyFailed f s) (afterChecks (fun f => copyFailed f s) (copyCommit img s).2 (copyCommit img s).1)
    (imageFail img)

/-- FLASH_COPY_DONE: `image` has been read from the copy. -/
def execFlashCopyDone (image : List Byte) (s : State) : Host.Outcome State Fault Refusal :=
  .next (if flashReads s then copyRead image (stageCopy image s) else s)

/-- FLASH_HEADER_TIMEOUT: reason FLASH. -/
def execFlashHeaderTimeout (s : State) : Host.Outcome State Fault Refusal :=
  .next (if flashReads s then copyFailed (plainFail 0x0B) s else s)

end Sys2Proof.Machine
end

