-- ==== Sys2Proof/Machine/Access.lean ====
section
/-!
DEFINITION. Register access over both host interfaces (R5, R9, R490 to R492, R523, R524), the global commands (R518), DMA reads for
commands (R496), the housekeeping slot (R32) and the answers of bring-up (R281, R448).
-/
namespace Sys2Proof.Machine

/-! ## Register access -/

/-- The offset lies in the TS block, whose behaviour with TESTMODE high the manual does not give (R542). -/
def testBlock (s : State) (off : Nat) : Bool := s.vx.testMode && decide (0x60000 ≤ off ∧ off < 0x70000)

/-- A whole-word write of a register; GL_RST resets the device, and the straps are sampled (R442, R457). -/
def putReg (i : Iface) (off : Nat) (v : Word) (s : State) : State :=
  if off = 0x64 then (if bitOf v 0 && keyOpen s then warmReset (strapLevels s) [] 2 s else s) else writeAt i off v s

/-- A discarded WRITE (R491). -/
def serialDiscard (k : HlKind) (s : State) : State := hostFault k (s.modSq fun q => { q with serialBad := true })

/-- REGISTER_WRITE (R5, R9): byte enables that are not all four set leave the register as it is; over the serial port an address
that is not aligned is a framing error. -/
def execRegisterWrite (i : Iface) (off : Fin 1048576) (v : Word) (be : Fin 16) (s : State) :
    Host.Outcome State Fault Refusal :=
  if testBlock s off.val then .refused .testBlock
  else if i == .serial && off.val % 4 != 0 then .next (if coreLive s then serialDiscard .serialFrame s else s)
  else .next (if be.val = 15 then regAccess i off.val (putReg i off.val v) s else s)

/-- A read of the word at an address of R492's map: a register, or a word of the pool window, which over PCI Express is
BAR2. -/
def wordGet (i : Iface) (addr : Nat) (s : State) : State × Word :=
  if addr < 0x100000 then regRead i addr s
  else if regReach i 0x100 s ∧ 0x1000000 ≤ addr ∧ addr < 0x1400000 then poolRead ((addr - 0x1000000) / 4) s
  else (s, 0#32)

/-- LOW_WORD_READ (R5, R6, R197, R524): a read of one word, which leaves over the interface. Over PCI Express an address that
is not aligned returns the whole word; over the serial port it is a framing error and reads 0. -/
def execLowWordRead (i : Iface) (addr : Fin 20971520) (s : State) : Host.Outcome State Fault Refusal :=
  if i == .serial && addr.val % 4 != 0 then
    .next ((if coreLive s then hostFault .serialFrame s else s).emit (.regRead i addr.val 0#32))
  else if testBlock s addr.val then .refused .testBlock
  else
    let x := wordGet i (addr.val / 4 * 4) s
    .next (x.1.emit (.regRead i addr.val x.2))

/-! ## The serial host port (R490 to R492) -/

/-- A word of a serial WRITE at its address (R492). -/
def serialPut (addr : Nat) (v : Word) (s : State) : State :=
  if addr < 0x100000 then regAccess .serial addr (putReg .serial addr v) s
  else if 0x1000000 ≤ addr ∧ addr < 0x1400000 then regAccess .serial 0x100 (poolWrite ((addr - 0x1000000) / 4) 15 v) s
  else if 0x2000000 ≤ addr ∧ addr < 0x2000000 + s.sq.stgCells * 60 then
    regAccess .serial 0x100 (fun s => stgWrite s (addr - 0x2000000) (bytesOf v)) s
  else s

/-- The words of a serial WRITE in address order. -/
def serialPuts (addr : Nat) : List Word → State → State
  | [], s => s
  | v :: t, s => serialPuts (addr + 4) t (serialPut addr v s)

/-- A word of a serial READ at its address (R492). -/
def serialGet (addr : Nat) (s : State) : State × Word :=
  if regReach .serial 0x100 s ∧ 0x2000000 ≤ addr ∧ addr < 0x2000000 + s.sq.stgCells * 60 then
    (s, wordAt (stgRead s (addr - 0x2000000) 4) 0)
  else wordGet .serial addr s

/-- `n` words of a serial READ. -/
def serialGets (addr : Nat) : Nat → State → State × List Word
  | 0, s => (s, [])
  | n + 1, s =>
    let x := serialGet addr s
    let y := serialGets (addr + 4) n x.1
    (y.1, x.2 :: y.2)

/-- One of `n` words from an address on lies in the TS block with TESTMODE high. -/
def serialTest (s : State) (addr n : Nat) : Bool := (List.range n).any fun k => testBlock s (addr + 4 * k)

/-- The bytes that the CRC of a WRITE covers (R490): instruction, address most significant byte first, count, data. -/
def writeCovered (addr : Word) (words : List Word) : List Byte :=
  [0x02#8, byteOf addr 3, byteOf addr 2, byteOf addr 1, byteOf addr 0, BitVec.ofNat 8 (words.length - 1)]
  ++ bytesOfWords words

/-- SERIAL_WRITE (R491): the words are applied only when the CRC matches and the clock count is exact. -/
def execSerialWrite (addr : Word) (words : List Word) (crc : BitVec 16) (clocks : Nat) (s : State) :
    Host.Outcome State Fault Refusal :=
  let a := addr.toNat
  if !coreLive s then .next s
  else if a % 4 ≠ 0 ∨ clocks ≠ 22 + 8 * words.length then .next (serialDiscard .serialFrame s)
  else if crc.toNat ≠ crc16 (writeCovered addr words) then .next (serialDiscard .serialCrc s)
  else if serialTest s a words.length then .refused .testBlock
  else .next (serialPuts a words (s.modSq fun q => { q with serialBad := false }))

/-- The bytes that the CRC of a READ covers (R490): instruction, address most significant byte first, count, data. -/
def readCovered (addr : Word) (words : List Word) : List Byte :=
  [0x0B#8, byteOf addr 3, byteOf addr 2, byteOf addr 1, byteOf addr 0, BitVec.ofNat 8 (words.length - 1)]
  ++ bytesOfWords words

/-- The answer of a READ leaves the device. -/
def serialAnswer (addr : Word) (words : List Word) (s : State) : State :=
  s.emit (.serialWords words (crc16 (readCovered addr words)))

/-- The answer of a READ ends with its CRC when HS_CS_N stays low for all its clocks; a transaction of another length is a framing
error as well (R491, R514). -/
def serialEnd (addr : Word) (words : List Word) (clocks : Nat) (s : State) : State :=
  let full := 32 + 8 * words.length
  let s := if clocks < full then s else serialAnswer addr words s
  if clocks = full then s else hostFault .serialFrame s

/-- SERIAL_READ (R5, R490, R491) of n + 1 words; it reads every word in its count, even when HS_CS_N rises early. -/
def execSerialRead (addr : Word) (n : Fin 64) (s : State) (clocks : Nat := 40 + 8 * n.val) : Host.Outcome State Fault Refusal :=
  let a := addr.toNat
  let k := n.val + 1
  if !coreLive s then .next s
  else if a % 4 ≠ 0 then
    .next (hostFault .serialFrame (if clocks < 32 + 8 * k then s else serialAnswer addr (List.replicate k 0#32) s))
  else if serialTest s a k then .refused .testBlock
  else
    let x := serialGets a k s
    .next (serialEnd addr x.2 clocks x.1)

/-! ## Global commands (R506, R518) -/

/-- NOP. -/
def execNop (r : Fin 4) (s : State) : Host.Outcome State Fault Refusal :=
  .next (beginOp r.val 0x00 (fun ws s => complete r.val stOk (wd ws 2) (wd ws 3) s) s)

/-- Result word 1 of IDENTIFY; the silicon revision is 1 (R529). -/
def identifyWord (s : State) : Word :=
  packW [(0, 12, devAddr s), (12, 3, phaseCode s.boot.phase), (15, 1, b1 s.boot.profile), (16, 8, 1), (24, 3, s.dx.state),
    (27, 1, s.dx.unit)]

/-- IDENTIFY. -/
def execIdentify (r : Fin 4) (s : State) : Host.Outcome State Fault Refusal :=
  .next (beginOp r.val 0x01 (fun _ s => complete r.val stOk 0x4B461664#32 (identifyWord s) s) s)

/-- Result word 0 of READ_STATUS. -/
def statusWord (s : State) : Word :=
  packW [(0, 2, worst s), (2, 1, b1 s.vx.safe), (3, 1, b1 s.dx.linkUp), (4, 3, s.dx.state), (8, 2, s.pw.ballot),
    (10, 1, b1 s.pw.doze), (11, 1, b1 s.pw.committed),
    (16, 16, (List.range 16).foldl (fun a n => a + (if (s.chan n).state == .safe then 2 ^ n else 0)) 0)]

/-- READ_STATUS. -/
def execReadStatus (r : Fin 4) (s : State) : Host.Outcome State Fault Refusal :=
  .next (beginOp r.val 0x04 (fun _ s =>
    complete r.val stOk (statusWord s) (packW [(0, 16, notStopped s), (16, 16, s.sq.evLost)]) s) s)

/-- UNDEFINED_OPCODE (R506): the first of the checks. -/
def execUndefinedOpcode (r : Fin 4) (s : State) : Host.Outcome State Fault Refusal :=
  .next (
    match ready s r.val with
    | some ws =>
      if definedOpcode (pOpcode ws) then s
      else complete r.val eUnsupported 0 0 (s.modCmd r.val fun c => { c with begun := true })
    | none => s)

/-! ## DMA reads for commands (R496) -/

/-- The command of ring r takes the data it waited for. -/
def dmaGood (r : Nat) (data : List Byte) (s : State) : State :=
  let op := fld (pkt s r 0) 0 8
  if op = 0x03 then loadImageData r data s
  else if op = 0x10 then chConfigData r data s
  else if op = 0x20 then ltWriteData r data s
  else if op = 0x40 then submitData r data s
  else if op = 0x42 then primeData r data s
  else if op = 0x58 then tgConfigData r data s
  else if op = 0x61 then (if fld (pkt s r 1) 5 3 = 1 then ckRestoreData r data s else ckFeedData r data s)
  else s

/-- The status of a command whose DMA read fails (R496). -/
def dmaStatus (k : HlKind) : Nat := match k with | .cplTimeout => eTimeout | _ => eCheck

/-- A command's DMA read fails (R496): source 37 asserts with the kind, the command completes with `st` and the kind in result word
1 [7:0]. One that copies in pieces keeps what it has taken of `before`, the bytes that came before the failing read, and
reports it in result word 0; any other changes nothing. -/
def dmaFail (r st : Nat) (k : HlKind) (before : List Byte) (s : State) : State :=
  let op := fld (pkt s r 0) 0 8
  let info := packW [(0, 8, hlCode k)]
  let s := hostFault k s
  if op = 0x20 then ltWriteCut r st info before s
  else if op = 0x03 then loadImageCut r st info before s
  else if op = 0x61 ∧ fld (pkt s r 1) 5 3 = 2 then ckFeedCut r st info before s
  else complete r st 0 info s

/-- DMA_COMPLETION_TIMEOUT (R496). -/
def execDmaCompletionTimeout (r : Fin 4) (s : State) (before : List Word := []) : Host.Outcome State Fault Refusal :=
  .next (if dmaWaits s r.val then dmaFail r.val eTimeout .cplTimeout (bytesOfWords before) s else s)

/-- DMA_READ_DONE: the host's data is carried in host DMA slots (R33, R494); a failed read carries what came before it (R496). -/
def execDmaReadDone (r : Fin 4) (result : Dma) (s : State) : Host.Outcome State Fault Refusal :=
  .next (
    if dmaWaits s r.val && hostIdle s then
      match result with
      | .good ws => inSlot .hostDma (dmaGood r.val (bytesOfWords ws)) s
      | .bad k before => dmaFail r.val (dmaStatus k) k (bytesOfWords before) s
    else s)

/-! ## The housekeeping slot (R32) -/

/-- The user whose turn the round gives has work pending (R32). -/
def turnPending (s : State) : Bool :=
  if s.round % 4 = 1 then auditRuns s else if s.round % 4 = 3 then plannerDue s else latPending s

/-- The user whose turn the round gives is served: Lattice, the list audit, or the margin planner (R32). -/
def housekeeping (s : State) : State :=
  if !turnPending s then s
  else inSlot .housekeeping (fun s =>
    if s.round % 4 = 1 then auditStep s else if s.round % 4 = 3 then plannerTurn s else latTurn s) s

/-- HOUSEKEEPING_TURN; `ups`: the stored words that have changed by a fault in the storage since the last command that says
so. The wheel turns from the end of B2 while the core is clocked; in the round every channel's slots have come by (R25). -/
def execHousekeepingTurn (ups : List Upset) (s : State) : Host.Outcome State Fault Refusal :=
  .next (
    let s := applyUpsets ups s
    if ringsUsable s then
      let s := housekeeping ((List.range 16).foldl (fun s n => returnsDue n s) s)
      { s with round := s.round + 1 }
    else s)

/-- LT_DRAIN_DONE (R138): the commits whose channels have all drained complete. -/
def execLtDrainDone (s : State) : Host.Outcome State Fault Refusal :=
  .next (s.lat.commits.foldl (fun s c => commitDone c s) s)

/-! ## Answers of bring-up (R281, R284, R448) -/

/-- A Classical CAN data frame with a 29-bit identifier and 8 bytes, as the reduced service sends it. -/
def classicalFrame (ident : Nat) (data : List Byte) : Frame :=
  { fmt := .cc, tfmt := 0, ide := true, ident := BitVec.ofNat 29 ident, rtr := false, res := false, brs := false,
    esi := false, sec := false, sdt := 0, vcid := 0, af := 0, dlc := data.length, data := data }

/-- An IDENTIFY_ANS that channel n owes is no longer owed. -/
def answered (n : Nat) (s : State) : State := s.modBdp fun b => { b with answers := b.answers.filter (· != n) }

/-- IDENTIFY_ANS_COMMIT (R281, R284): in service it is a BDP item like any other; in the reduced service it leaves as a
Classical CAN frame. -/
def execIdentifyAnsCommit (ch : Fin 16) (pick : Fin 65536) (s : State) : Host.Outcome State Fault Refusal :=
  let n := ch.val
  .next (
    if !s.bdp.answers.contains n then s
    else if inService s then bdpTry n kIdAns pick.val (bdpDue n kIdAns (ansWords s) (answered n s))
    else if reduced s n && (s.chan n).state == .active then
      (bump n 0x5C (answered n s)).emit
        (.busFrame n (classicalFrame (bdpIdent 0x10 kIdAns 0 (devAddr s)) (bytesOfWords (ansWords s))))
    else s)

/-- The value with which a console request is answered (R448). -/
def consoleValue (s : State) (w : Word) (well : Bool) : Word := if well then regWord s w.toNat else 0xFFFFFFFF#32

/-- CONSOLE_ANSWER (R448): the oldest request is answered on its channel; reading has no side effect. -/
def execConsoleAnswer (s : State) : Host.Outcome State Fault Refusal :=
  .next (
    match s.boot.console with
    | (n, w, well) :: rest =>
      let t := s.modBoot fun b => { b with console := rest }
      if (s.chan n).state = .active then
        t.emit (.busFrame n (classicalFrame (0x1FFF0000 + devAddr s) (bytesOf w ++ bytesOf (consoleValue s w well))))
      else if reduced s n then s else t
    | [] => s)

end Sys2Proof.Machine
end

