-- ==== Sys2Proof/Machine/Dispatch.lean ====
section
/-!
DEFINITION. The dispatch: each command to its meaning.
-/
namespace Sys2Proof.Machine

/-- The effect of a command on everything but the queue of waiting commands. -/
def exec (i : Instr) (s : State) : Host.Outcome State Fault Refusal :=
  match i with
  | .vaoPor => Sys2Proof.Machine.execVaoPor s
  | .corePor straps bad => Sys2Proof.Machine.execCorePor straps bad s
  | .resetN straps bad => Sys2Proof.Machine.execResetN straps bad s
  | .softReset via straps bad => Sys2Proof.Machine.execSoftReset via straps bad s
  | .pePerstN => Sys2Proof.Machine.execPePerstN s
  | .romCheckDone ok => Sys2Proof.Machine.execRomCheckDone ok s
  | .referenceStable => Sys2Proof.Machine.execReferenceStable s
  | .referenceTimeout => Sys2Proof.Machine.execReferenceTimeout s
  | .pllLocked => Sys2Proof.Machine.execPllLocked s
  | .pllLockTimeout => Sys2Proof.Machine.execPllLockTimeout s
  | .bistDone ok us => Sys2Proof.Machine.execBistDone ok us s
  | .flashCopyDone image => Sys2Proof.Machine.execFlashCopyDone image s
  | .flashHeaderTimeout => Sys2Proof.Machine.execFlashHeaderTimeout s
  | .sequencerWatchdog => Sys2Proof.Machine.execSequencerWatchdog s
  | .pllLockLoss => Sys2Proof.Machine.execPllLockLoss s
  | .clockMonitorFault clocks => Sys2Proof.Machine.execClockMonitorFault clocks s
  | .supplyExcursion supply high => Sys2Proof.Machine.execSupplyExcursion supply high s
  | .temperatureAlarm => Sys2Proof.Machine.execTemperatureAlarm s
  | .monitorDeassert k => Sys2Proof.Machine.execMonitorDeassert k s
  | .complementMismatch off => Sys2Proof.Machine.execComplementMismatch off s
  | .safeStateComplete => Sys2Proof.Machine.execSafeStateComplete s
  | .tagWindowEnd => Sys2Proof.Machine.execTagWindowEnd s
  | .aliveToggle => Sys2Proof.Machine.execAliveToggle s
  | .aliveTimeout => Sys2Proof.Machine.execAliveTimeout s
  | .proofTestTimeout => Sys2Proof.Machine.execProofTestTimeout s
  | .nop r => Sys2Proof.Machine.execNop r s
  | .identify r => Sys2Proof.Machine.execIdentify r s
  | .commitConfig r => Sys2Proof.Machine.execCommitConfig r s
  | .commitConfigEmpty r => Sys2Proof.Machine.execCommitConfigEmpty r s
  | .loadImage r => Sys2Proof.Machine.execLoadImage r s
  | .loadImageCommit r => Sys2Proof.Machine.execLoadImageCommit r s
  | .readStatus r => Sys2Proof.Machine.execReadStatus r s
  | .setProfile r => Sys2Proof.Machine.execSetProfile r s
  | .undefinedOpcode r => Sys2Proof.Machine.execUndefinedOpcode r s
  | .cmdDoorbell via r v => Sys2Proof.Machine.execCmdDoorbell via r v s
  | .cqDoorbell via k v => Sys2Proof.Machine.execCqDoorbell via k v s
  | .ringEnable via ring v => Sys2Proof.Machine.execRingEnable via ring v s
  | .ringDisable via ring v => Sys2Proof.Machine.execRingDisable via ring v s
  | .commandFetch entry => Sys2Proof.Machine.execCommandFetch entry s
  | .completionWrite r => Sys2Proof.Machine.execCompletionWrite r s
  | .coalesceTimeout k => Sys2Proof.Machine.execCoalesceTimeout k s
  | .dmaReadDone r result => Sys2Proof.Machine.execDmaReadDone r result s
  | .dmaCompletionTimeout r before => Sys2Proof.Machine.execDmaCompletionTimeout r s before
  | .serialWrite addr words crc clocks => Sys2Proof.Machine.execSerialWrite addr words crc clocks s
  | .serialRead addr n clocks => Sys2Proof.Machine.execSerialRead addr n s clocks
  | .serialStatus clocks => Sys2Proof.Machine.execSerialStatus s clocks
  | .serialUnknownInstruction => Sys2Proof.Machine.execSerialUnknownInstruction s
  | .pcieLinkDown => Sys2Proof.Machine.execPcieLinkDown s
  | .pcieBadTlp poisoned => Sys2Proof.Machine.execPcieBadTlp poisoned s
  | .stagingSet via v => Sys2Proof.Machine.execStagingSet via v s
  | .stagingRelease via v => Sys2Proof.Machine.execStagingRelease via v s
  | .glKeyArm via => Sys2Proof.Machine.execGlKeyArm via s
  | .glKeyUnlock via => Sys2Proof.Machine.execGlKeyUnlock via s
  | .glKeyLock via => Sys2Proof.Machine.execGlKeyLock via s
  | .glKeyOtherCode via v => Sys2Proof.Machine.execGlKeyOtherCode via v s
  | .keyArmTimeout => Sys2Proof.Machine.execKeyArmTimeout s
  | .keyRelockTimeout => Sys2Proof.Machine.execKeyRelockTimeout s
  | .registerWrite via off v be => Sys2Proof.Machine.execRegisterWrite via off v be s
  | .lowWordRead via off => Sys2Proof.Machine.execLowWordRead via off s
  | .chConfigure r => Sys2Proof.Machine.execChConfigure r s
  | .chStart r => Sys2Proof.Machine.execChStart r s
  | .chStop r => Sys2Proof.Machine.execChStop r s
  | .chSetState r => Sys2Proof.Machine.execChSetState r s
  | .chRecover r => Sys2Proof.Machine.execChRecover r s
  | .chCounters r => Sys2Proof.Machine.execChCounters r s
  | .integrationDone ch => Sys2Proof.Machine.execIntegrationDone ch s
  | .rxFrame ch waited p => Sys2Proof.Machine.execRxFrame ch waited p s
  | .rxCommit ch fault => Sys2Proof.Machine.execRxCommit ch fault s
  | .stagedCellWrite ch pick fault => Sys2Proof.Machine.execStagedCellWrite ch pick fault s
  | .txHeadFetch ch fault => Sys2Proof.Machine.execTxHeadFetch ch fault s
  | .txAttempt ch waited p => Sys2Proof.Machine.execTxAttempt ch waited p s
  | .backoffElapsed ch => Sys2Proof.Machine.execBackoffElapsed ch s
  | .recoveryDone ch => Sys2Proof.Machine.execRecoveryDone ch s
  | .boffWindowClose ch => Sys2Proof.Machine.execBoffWindowClose ch s
  | .dupHoldRelease via ch v => Sys2Proof.Machine.execDupHoldRelease via ch v s
  | .trxChangeApplied ch => Sys2Proof.Machine.execTrxChangeApplied ch s
  | .trxSettled ch => Sys2Proof.Machine.execTrxSettled ch s
  | .primeArm via ch b v => Sys2Proof.Machine.execPrimeArm via ch b v s
  | .txSubmit r => Sys2Proof.Machine.execTxSubmit r s
  | .hostItemCommit r pick => Sys2Proof.Machine.execHostItemCommit r pick s
  | .bpTimeout r => Sys2Proof.Machine.execBpTimeout r s
  | .txCancel r => Sys2Proof.Machine.execTxCancel r s
  | .txPrime r => Sys2Proof.Machine.execTxPrime r s
  | .ltWrite r => Sys2Proof.Machine.execLtWrite r s
  | .ltWriteDone => Sys2Proof.Machine.execLtWriteDone s
  | .ltCommit r => Sys2Proof.Machine.execLtCommit r s
  | .ltDrainDone => Sys2Proof.Machine.execLtDrainDone s
  | .ltCopyDone ch => Sys2Proof.Machine.execLtCopyDone ch s
  | .ltRead r => Sys2Proof.Machine.execLtRead r s
  | .ltOwned r => Sys2Proof.Machine.execLtOwned r s
  | .housekeepingTurn ups => Sys2Proof.Machine.execHousekeepingTurn ups s
  | .elementWindowLowWrite via c p v => Sys2Proof.Machine.execElementWindowLowWrite via c p v s
  | .elementWindowHighWrite via c p v => Sys2Proof.Machine.execElementWindowHighWrite via c p v s
  | .gateEnable via g v => Sys2Proof.Machine.execGateEnable via g v s
  | .gateDisable via g v => Sys2Proof.Machine.execGateDisable via g v s
  | .gateHighestWrite via g v => Sys2Proof.Machine.execGateHighestWrite via g v s
  | .qCreate r => Sys2Proof.Machine.execQCreate r s
  | .qRemove r => Sys2Proof.Machine.execQRemove r s
  | .qFlush r => Sys2Proof.Machine.execQFlush r s
  | .qFlushRepair r => Sys2Proof.Machine.execQFlushRepair r s
  | .qBudget r => Sys2Proof.Machine.execQBudget r s
  | .qStatus r => Sys2Proof.Machine.execQStatus r s
  | .windowLockRead via q => Sys2Proof.Machine.execWindowLockRead via q s
  | .windowDataRead via q k => Sys2Proof.Machine.execWindowDataRead via q k s
  | .windowPop via q v => Sys2Proof.Machine.execWindowPop via q v s
  | .windowRelease via q v => Sys2Proof.Machine.execWindowRelease via q v s
  | .lockTimeout q => Sys2Proof.Machine.execLockTimeout q s
  | .auditPassEnd bad freeBad ownerBad => Sys2Proof.Machine.execAuditPassEnd bad freeBad ownerBad s
  | .poolWindowWrite addr be v => Sys2Proof.Machine.execPoolWindowWrite addr be v s
  | .cdRouteAdd r => Sys2Proof.Machine.execCdRouteAdd r s
  | .cdRouteReenable r => Sys2Proof.Machine.execCdRouteReenable r s
  | .cdRouteRemove r => Sys2Proof.Machine.execCdRouteRemove r s
  | .cdStats r => Sys2Proof.Machine.execCdStats r s
  | .chordSelect ch => Sys2Proof.Machine.execChordSelect ch s
  | .chordJudge ch => Sys2Proof.Machine.execChordJudge ch s
  | .cdStall ch => Sys2Proof.Machine.execCdStall ch s
  | .tokenAdd r => Sys2Proof.Machine.execTokenAdd r s
  | .cutThroughCommit ch => Sys2Proof.Machine.execCutThroughCommit ch s
  | .tmSet r => Sys2Proof.Machine.execTmSet r s
  | .tmStep r => Sys2Proof.Machine.execTmStep r s
  | .tmRate r => Sys2Proof.Machine.execTmRate r s
  | .tmRole r => Sys2Proof.Machine.execTmRole r s
  | .ppsInEdge waited => Sys2Proof.Machine.execPpsInEdge waited s
  | .ppsOutRise waited => Sys2Proof.Machine.execPpsOutRise waited s
  | .ppsOutFall => Sys2Proof.Machine.execPpsOutFall s
  | .syncInterval => Sys2Proof.Machine.execSyncInterval s
  | .servoHoldTimeout => Sys2Proof.Machine.execServoHoldTimeout s
  | .holdoverLimit => Sys2Proof.Machine.execHoldoverLimit s
  | .identifyAnsCommit ch pick => Sys2Proof.Machine.execIdentifyAnsCommit ch pick s
  | .marginEchoCommit ch pick => Sys2Proof.Machine.execMarginEchoCommit ch pick s
  | .consoleAnswer => Sys2Proof.Machine.execConsoleAnswer s
  | .heartbeatInterval => Sys2Proof.Machine.execHeartbeatInterval s
  | .claimInterval => Sys2Proof.Machine.execClaimInterval s
  | .tgConfig r => Sys2Proof.Machine.execTgConfig r s
  | .tgEnable r => Sys2Proof.Machine.execTgEnable r s
  | .tgDisable r => Sys2Proof.Machine.execTgDisable r s
  | .tgMode r => Sys2Proof.Machine.execTgMode r s
  | .tgSetpoint r => Sys2Proof.Machine.execTgSetpoint r s
  | .tgRead r => Sys2Proof.Machine.execTgRead r s
  | .tgInstant c waited => Sys2Proof.Machine.execTgInstant c waited s
  | .tgEvaluation => Sys2Proof.Machine.execTgEvaluation s
  | .tgEmitCommit pick => Sys2Proof.Machine.execTgEmitCommit pick s
  | .setpointItemRead => Sys2Proof.Machine.execSetpointItemRead s
  | .tgReplay => Sys2Proof.Machine.execTgReplay s
  | .ckConfig r => Sys2Proof.Machine.execCkConfig r s
  | .ckSave r => Sys2Proof.Machine.execCkSave r s
  | .ckRestore r => Sys2Proof.Machine.execCkRestore r s
  | .ckFeedHost r fault => Sys2Proof.Machine.execCkFeedHost r fault s
  | .ckFeedQueue r => Sys2Proof.Machine.execCkFeedQueue r s
  | .ckFeedItem u fault => Sys2Proof.Machine.execCkFeedItem u fault s
  | .dxConfig r => Sys2Proof.Machine.execDxConfig r s
  | .dxReinit r => Sys2Proof.Machine.execDxReinit r s
  | .dxSwap r => Sys2Proof.Machine.execDxSwap r s
  | .dxStatus r => Sys2Proof.Machine.execDxStatus r s
  | .dxResync r => Sys2Proof.Machine.execDxResync r s
  | .linkHbSend => Sys2Proof.Machine.execLinkHbSend s
  | .hbPacket p w0 w1 => Sys2Proof.Machine.execHbPacket p w0 w1 s
  | .laneAlignLoss lane => Sys2Proof.Machine.execLaneAlignLoss lane s
  | .linkHbTimeout => Sys2Proof.Machine.execLinkHbTimeout s
  | .noticePacket p w0 => Sys2Proof.Machine.execNoticePacket p w0 s
  | .verdictPacket p w0 => Sys2Proof.Machine.execVerdictPacket p w0 s
  | .refReqPacket p words => Sys2Proof.Machine.execRefReqPacket p words s
  | .refAnsPacket p w0 w1 => Sys2Proof.Machine.execRefAnsPacket p w0 w1 s
  | .swapPrepPacket p lo hi => Sys2Proof.Machine.execSwapPrepPacket p lo hi s
  | .swapAckPacket p lo hi => Sys2Proof.Machine.execSwapAckPacket p lo hi s
  | .swapRefusePacket p lo hi => Sys2Proof.Machine.execSwapRefusePacket p lo hi s
  | .ctlPacket p words => Sys2Proof.Machine.execCtlPacket p words s
  | .resyncPacket p w0 => Sys2Proof.Machine.execResyncPacket p w0 s
  | .recPacket p words after => Sys2Proof.Machine.execRecPacket p words s after
  | .chunkPacket p words => Sys2Proof.Machine.execChunkPacket p words s
  | .commitPacket p w0 w1 w2 => Sys2Proof.Machine.execCommitPacket p w0 w1 w2 s
  | .pairingTimeout => Sys2Proof.Machine.execPairingTimeout s
  | .busHbTimeout => Sys2Proof.Machine.execBusHbTimeout s
  | .cmpMissingTimeout c => Sys2Proof.Machine.execCmpMissingTimeout c s
  | .refereeTimeout => Sys2Proof.Machine.execRefereeTimeout s
  | .epochBoundary waited app => Sys2Proof.Machine.execEpochBoundary waited app s
  | .swapInstant waited => Sys2Proof.Machine.execSwapInstant waited s
  | .swapAckTimeout => Sys2Proof.Machine.execSwapAckTimeout s
  | .swapClaimTimeout => Sys2Proof.Machine.execSwapClaimTimeout s
  | .resyncEpochLimit => Sys2Proof.Machine.execResyncEpochLimit s
  | .vxStatus r => Sys2Proof.Machine.execVxStatus r s
  | .vxClear r => Sys2Proof.Machine.execVxClear r s
  | .vxProofTest r latency => Sys2Proof.Machine.execVxProofTest r latency s
  | .vxFactoryTest r latency => Sys2Proof.Machine.execVxFactoryTest r latency s
  | .vxClasses r => Sys2Proof.Machine.execVxClasses r s
  | .pwSleepPrepare r => Sys2Proof.Machine.execPwSleepPrepare r s
  | .pwSleepCommit r => Sys2Proof.Machine.execPwSleepCommit r s
  | .pwWakeConfig r => Sys2Proof.Machine.execPwWakeConfig r s
  | .dozeOn r => Sys2Proof.Machine.execDozeOn r s
  | .dozeOff r => Sys2Proof.Machine.execDozeOff r s
  | .pwModeSleep r => Sys2Proof.Machine.execPwModeSleep r s
  | .pwModeHibernate r => Sys2Proof.Machine.execPwModeHibernate r s
  | .reasonSet r => Sys2Proof.Machine.execReasonSet r s
  | .reasonClear r => Sys2Proof.Machine.execReasonClear r s
  | .deviceSleepEntry => Sys2Proof.Machine.execDeviceSleepEntry s
  | .entryComplete => Sys2Proof.Machine.execEntryComplete s
  | .entryTimeout step => Sys2Proof.Machine.execEntryTimeout step s
  | .exitComplete ticks bad => Sys2Proof.Machine.execExitComplete ticks bad s
  | .busWake ch => Sys2Proof.Machine.execBusWake ch s
  | .hostWakePin => Sys2Proof.Machine.execHostWakePin s
  | .wakeTimer => Sys2Proof.Machine.execWakeTimer s
  | .confirmTimeout ch => Sys2Proof.Machine.execConfirmTimeout ch s
  | .fwWindowClose ch => Sys2Proof.Machine.execFwWindowClose ch s
  | .keepAwakeInterval => Sys2Proof.Machine.execKeepAwakeInterval s
  | .ballotWindowEnd => Sys2Proof.Machine.execBallotWindowEnd s
  | .ballotSendTimeout => Sys2Proof.Machine.execBallotSendTimeout s
  | .ballotLapse => Sys2Proof.Machine.execBallotLapse s
  | .ballotDelayEnd => Sys2Proof.Machine.execBallotDelayEnd s
  | .groupSleepDelayEnd => Sys2Proof.Machine.execGroupSleepDelayEnd s
  | .awakeTimerExpiry => Sys2Proof.Machine.execAwakeTimerExpiry s
  | .mpReport r => Sys2Proof.Machine.execMpReport r s
  | .mpFold r => Sys2Proof.Machine.execMpFold r s
  | .mpRevert r => Sys2Proof.Machine.execMpRevert r s
  | .mpNomSp r => Sys2Proof.Machine.execMpNomSp r s
  | .planningCycleEnd x => Sys2Proof.Machine.execPlanningCycleEnd x s
  | .mpStepApply ch => Sys2Proof.Machine.execMpStepApply ch s
  | .hostDmaDrain q => Sys2Proof.Machine.execHostDmaDrain q s
  | .bdpItemCommit ch kind pick => Sys2Proof.Machine.execBdpItemCommit ch kind pick s
  | .laneAligned lane => Sys2Proof.Machine.execLaneAligned lane s
  | .linkPacketEnd => Sys2Proof.Machine.execLinkPacketEnd s
  | .pcieLinkUp two fast => Sys2Proof.Machine.execPcieLinkUp two fast s
  | .resetNAsserted => Sys2Proof.Machine.execResetNAsserted s
  | .corePorAsserted rail => Sys2Proof.Machine.execCorePorAsserted s rail
  | .vaoLost => Sys2Proof.Machine.execVaoLost s
  | .clockMonitorRecovered => Sys2Proof.Machine.execClockMonitorRecovered s
  | .recoveryOccurrence ch => Sys2Proof.Machine.execRecoveryOccurrence ch s

end Sys2Proof.Machine
end

