-- ==== Sys2Proof/Safety.lean ====
section
/-!
DEFINITION. What claims call a good state, a command that completes, and a step that does not stop.
-/
namespace Sys2Proof.Machine

/-- The invariant of every state a run reaches: the cell pool's memory is in its canonical form. -/
def Inv (s : State) : Prop := Memory.wf s.pool.mem = true

/-- A command answers the given next state. -/
def Completes (c : Instr) (s t : State) : Prop := exec c s = .next t

/-- A command answers some next state of which `p` holds. -/
def CompletesWith (c : Instr) (s : State) (p : State → Prop) : Prop := ∃ t, exec c s = .next t ∧ p t

/-- Ring r holds the fetched packet `ws`, which has neither begun nor completed and which nothing holds back (R499, R503). -/
def Waits (s : State) (r : Nat) (ws : List Word) : Prop :=
  ready s r = some ws ∧ (s.cr r).cmd.bind (·.comp) = none

/-- A waiting command which none of the checks that R506 places before those of the opcode's chapter refuses. -/
def Accepted (s : State) (r : Nat) (ws : List Word) : Prop := Waits s r ws ∧ sharedCheck s ws = none

/-- The state in which the command of ring r has begun. -/
def started (r : Nat) (s : State) : State := s.modCmd r fun c => { c with begun := true }

/-- The state in which the command of ring r has reached its completion point with a status and two result words (R504,
R516); nothing but that ring is changed. -/
def ended (r st : Nat) (r0 r1 : Word) (s : State) : State :=
  s.modCr r fun c => { c with
    done := wrapInc c.done
    cmd := c.cmd.map fun d => { d with begun := true, dma := false, sub := none,
                                       comp := some { status := st, r0 := r0, r1 := r1 }, arr := s.pool.nextSeq } }

/-- The command of ring r has ended in state t with this status and these result words. -/
def EndedIn (t : State) (r st : Nat) (r0 r1 : Word) : Prop :=
  (t.cr r).cmd.bind (·.comp) = some { status := st, r0 := r0, r1 := r1 }

/-- The commands of a ring whose opcode has one row, with the packets they are for. -/
def oneForm : List ((Fin 4 → Instr) × (List Word → Bool)) :=
  [(.nop, fun ws => pOpcode ws == 0x00), (.identify, fun ws => pOpcode ws == 0x01),
    (.readStatus, fun ws => pOpcode ws == 0x04), (.setProfile, fun ws => pOpcode ws == 0x05),
    (.chConfigure, fun ws => pOpcode ws == 0x10), (.chStart, fun ws => pOpcode ws == 0x11),
    (.chStop, fun ws => pOpcode ws == 0x12), (.chSetState, fun ws => pOpcode ws == 0x13),
    (.chRecover, fun ws => pOpcode ws == 0x14), (.chCounters, fun ws => pOpcode ws == 0x15),
    (.ltWrite, fun ws => pOpcode ws == 0x20), (.ltCommit, fun ws => pOpcode ws == 0x21),
    (.ltRead, fun ws => pOpcode ws == 0x22), (.ltOwned, fun ws => pOpcode ws == 0x23),
    (.qBudget, fun ws => pOpcode ws == 0x32), (.qStatus, fun ws => pOpcode ws == 0x33),
    (.txSubmit, fun ws => pOpcode ws == 0x40), (.txCancel, fun ws => pOpcode ws == 0x41),
    (.txPrime, fun ws => pOpcode ws == 0x42), (.cdRouteRemove, fun ws => pOpcode ws == 0x49),
    (.cdStats, fun ws => pOpcode ws == 0x4A), (.tmRole, fun ws => pOpcode ws == 0x51),
    (.tgConfig, fun ws => pOpcode ws == 0x58), (.tgEnable, fun ws => pOpcode ws == 0x59),
    (.tgDisable, fun ws => pOpcode ws == 0x5A), (.tgMode, fun ws => pOpcode ws == 0x5B),
    (.tgSetpoint, fun ws => pOpcode ws == 0x5C), (.tgRead, fun ws => pOpcode ws == 0x5D),
    (.ckConfig, fun ws => pOpcode ws == 0x60), (.dxSwap, fun ws => pOpcode ws == 0x69),
    (.dxStatus, fun ws => pOpcode ws == 0x6A), (.dxResync, fun ws => pOpcode ws == 0x6B),
    (.vxStatus, fun ws => pOpcode ws == 0x70), (.vxClear, fun ws => pOpcode ws == 0x71),
    (.vxClasses, fun ws => pOpcode ws == 0x73), (.pwSleepPrepare, fun ws => pOpcode ws == 0x78),
    (.pwSleepCommit, fun ws => pOpcode ws == 0x79), (.pwWakeConfig, fun ws => pOpcode ws == 0x7A),
    (.mpReport, fun ws => pOpcode ws == 0x7C)]

/-- The commands of a ring whose opcode has several rows (a flag or an op chooses), with the packets they are for; `fault`, `a` and `b` are
the operands of the three that take one besides the ring. -/
def someForms (fault : Bool) (a : Option Nat) (b : Nat) : List ((Fin 4 → Instr) × (List Word → Bool)) :=
  [(.commitConfig, isCommit false), (.commitConfigEmpty, isCommit true), (.loadImage, isLoad false),
    (.loadImageCommit, isLoad true), (.qCreate, isQCreate false), (.qRemove, isQCreate true), (.qFlush, isQFlush false),
    (.qFlushRepair, isQFlush true), (.cdRouteAdd, isRouteAdd false), (.cdRouteReenable, isRouteAdd true),
    (.tmSet, isTmSet fun op => op == 0 || op == 3), (.tmStep, isTmSet fun op => op == 1),
    (.tmRate, isTmSet fun op => op == 2), (.ckSave, isCkContext fun op => op == 0 || decide (4 ≤ op)),
    (.ckRestore, isCkContext fun op => op == 1), (.ckFeedQueue, isCkContext fun op => op == 3), (.dxConfig, isDxConfig false),
    (.dxReinit, isDxConfig true), (.dozeOn, isPwMode (· == 1)), (.dozeOff, isPwMode fun op => op == 0 || op == 6 || op == 7),
    (.pwModeSleep, isPwMode (· == 2)), (.pwModeHibernate, isPwMode (· == 3)), (.reasonSet, isPwMode (· == 4)),
    (.reasonClear, isPwMode (· == 5)), (.mpFold, isMpApply fun op => op == 0 || op == 3),
    (.mpRevert, isMpApply fun op => op == 1), (.mpNomSp, isMpApply fun op => op == 2),
    (fun r => .ckFeedHost r fault, isCkContext fun op => op == 2), (fun r => .vxProofTest r a, isProof false),
    (fun r => .vxFactoryTest r b, isProof true)]

/-- The commands that a packet in a ring stands for, with the packets they are for; UNDEFINED_OPCODE apart. -/
def ringForms (fault : Bool) (a : Option Nat) (b : Nat) : List ((Fin 4 → Instr) × (List Word → Bool)) :=
  oneForm ++ someForms fault a b

/-- From s to t of the completion rings at most the event ring has changed: in its state, its tail and phase, and the count of entries
since its last signal. -/
def CqsTold (s t : State) : Prop :=
  (∀ k, k ≠ 4 → t.cq k = s.cq k) ∧ t.cq 4 = { s.cq 4 with
    state := (t.cq 4).state, tail := (t.cq 4).tail, phase := (t.cq 4).phase, unsig := (t.cq 4).unsig }

/-- From s to t events and interrupts may have been told, and nothing else has happened: the entries of the event ring, its
position and its state, the unconsumed and the lost events, what has left the device, the pending bits of both interfaces; of the
pool only staging cells, which lie at its end (R493, R508 to R511). -/
def Told (s t : State) : Prop :=
  t = { s with
    outs := t.outs
    pool := { s.pool with mem := t.pool.mem }
    sq := { s.sq with cqs := t.sq.cqs, evOut := t.sq.evOut, evLost := t.sq.evLost, lostSince := t.sq.lostSince
                      irqPend := t.sq.irqPend, msixPend := t.sq.msixPend } }
  ∧ (∀ a, a < (65536 - s.sq.stgCells) * 64 → memGet t.pool.mem a = memGet s.pool.mem a) ∧ CqsTold s t

/-- A command ends in a state that differs from `t` at most by the events and interrupts it tells. -/
def CompletesTelling (c : Instr) (s t : State) : Prop := ∃ u, exec c s = .next u ∧ Told t u

/-- From s to t only the host side, the cell pool with its queues, the channels with the requests for their transceivers, the
BDP's list of its own items, the routes' counters and what waits for a half of a list to drain have changed. -/
def ChanSide (s t : State) : Prop :=
  t = { s with sq := t.sq, outs := t.outs, pool := t.pool, chans := t.chans, bdp := t.bdp
               pw := { s.pw with locals := t.pw.locals }, cd := { s.cd with routes := t.cd.routes }
               lat := { s.lat with drain := t.lat.drain, copying := t.lat.copying } }

/-- From s to t only what candidates that leave, counters and events change has changed: beside the host side, the pool and the
BDP's list of its own items, of each channel its counters, its loaded frame, its taken items with the cells still to be returned, and
its prime buffers. -/
def TxSide (s t : State) : Prop :=
  t = { s with sq := t.sq, outs := t.outs, pool := t.pool, chans := t.chans, bdp := t.bdp } ∧ ∀ n, t.chan n = { s.chan n with
    cnt := (t.chan n).cnt, loaded := (t.chan n).loaded, loadedCell := (t.chan n).loadedCell, taken := (t.chan n).taken
    rets := (t.chan n).rets, primes := (t.chan n).primes }

/-- In state t item i stands in queue q; or, where the picker of channel m has removed it as it became a candidate, its cells have gone
back or wait to (R45, R212, R219, R220). -/
def StandsIn (t : State) (q m : Nat) (i : Item) : Prop :=
  i ∈ (t.queue q).items ∨ ∀ c ∈ i.cells, c ∈ (t.chan m).rets ∨ ∀ e ∈ t.pool.owner, e.1 ≠ c

/-- What a prime buffer of source b of channel n becomes when it is armed with the contents of `p` (R45, R207, R219, R220): a candidate,
unless the picker removes it as it becomes one, which ends it with its outcome. The frame on the wire is not judged again. -/
def armedPrime (s : State) (n b : Nat) (p : Prime) : Prime :=
  if ((s.chan n).latch.any fun l => l.source == b) then { p with armed := true }
  else match judge s n (primeItem p) with
    | none => { p with armed := true }
    | some o => { p with armed := false, outcome := o, done := true, lastTag := itTag (primeItem p) }

/-- A prime buffer with the item of a TX_PRIME in place of what it held (R206, R222). -/
def loadedPrime (p : Prime) (it : TxItem) : Prime :=
  { p with desc := (List.range 4).map fun k => (k, wd it.words k)
           data := (List.range 16).map fun k => (k, wordAt it.data (4 * k))
           ctl := wd it.words 6 }

/-- The item that bytes from host memory are, with word 6 replaced by the control word of a TX_PRIME (R222, R567). -/
def primeWords (data : List Byte) (ctl : Word) : TxItem :=
  { words := (wordsOf data 8).set 6 ctl, data := (data.drop 32).take (itemBytes ((wordsOf data 8).set 6 ctl)) }

/-- From s to t only what a fault report and its reaction touch has changed: beside `ChanSide`, Vertex, GL_KEY, the power
mode, the link transmitter, and VX_LAST3 in the retention. -/
def FaultSide (s t : State) : Prop :=
  t = { s with sq := t.sq, outs := t.outs, pool := t.pool, chans := t.chans, bdp := t.bdp, vx := t.vx, gl := t.gl, pw := t.pw
               dx := t.dx, ret := t.ret, cd := { s.cd with routes := t.cd.routes }
               lat := { s.lat with drain := t.lat.drain, copying := t.lat.copying } }

/-- A step that neither faults nor is refused. -/
def SafeStep (s : State) : Prop := ∃ t, step s = .next t

end Sys2Proof.Machine
end

