-- ==== Sys2Proof/Certificates/Slice0/Obligations.lean ====
section
/-!
DEFINITION. The statements for the provers.
-/
open Sys2Proof Sys2Proof.Machine

/-! ## The step, and what every command keeps -/

/-- A step takes the command at the front of the queue and is that command on the state with the queue's rest. -/
def Obligations.StepRunsFront : Prop :=
  ∀ (c : Instr) (s : State), step { s with pending := c :: s.pending } = exec c s

/-- The state after reset meets the invariant: the pool's memory is in its canonical form (R191, R443: the pool is cleared). -/
def Obligations.ResetMeetsInv : Prop := Inv State.reset

/-- Every step that answers a next state keeps the invariant, from every state that meets it. -/
def Obligations.StepKeepsInv : Prop := ∀ s t : State, Inv s → step s = .next t → Inv t

/-- No command touches the queue of the commands that wait. -/
def Obligations.ExecKeepsQueue : Prop := ∀ (c : Instr) (s t : State), exec c s = .next t → t.pending = s.pending

/-- The registers after core power-on reset read the Reset column of R528 and R535 to R541 (R8), for every channel, prime buffer,
ring, vector, queue, gate, route, context and unit. Left out are GL_REV (fused), GL_BOOT, GL_GPIO_IN and DX_CLAIM, which the tables mark S,
the retained VX_LAST3, VX_LAST3_INFO and PW_RET0 to 15 (A), and GL_WHEEL_STAT, whose slot number is free (log entry 8); of the other
registers marked S the clause holds for the straps that `State.reset` has, all low (log entry 4). -/
def Obligations.ResetRegisters : Prop :=
  (∀ e ∈ ([(0x0, 0x4B461664#32), (0x10, 0#32), (0x14, 0x2710#32), (0x50, 0x0FFF0010#32), (0x54, 0#32),
      (0x64, 0#32), (0x68, 0#32), (0x70, 0#32), (0x80, 0#32), (0x84, 0#32),
      (0x1000, 0#32), (0x1004, 0x23F#32), (0x1008, 0#32), (0x100C, 0#32), (0x1010, 0#32), (0x1020, 0#32), (0x1024, 0#32),
      (0x1028, 0#32), (0x102C, 0#32), (0x1030, 0#32), (0x1034, 0#32), (0x1038, 0xFFFFFFFF#32), (0x103C, 0xFFFFFFFF#32),
      (0x1300, 0#32), (0x1304, 0#32), (0x1308, 0x00010008#32), (0x130C, 0#32), (0x1310, 0x1000#32), (0x1C00, 0#32),
      (0x1C04, 0#32)] : List (Nat × Word)), regWord State.reset e.1 = e.2)
  ∧ (∀ e ∈ ([(0x2000, 0#32), (0x2004, 0#32), (0x2008, 0#32), (0x200C, 0#32), (0x2010, 0#32), (0x2014, 0#32), (0x2018, 0#32),
      (0x2020, 0xAAAAAAAA#32), (0x2024, 0x57FD7552#32), (0x2028, 0x005855F5#32), (0x202C, 0x30000000#32), (0x2030, 1#32),
      (0x2034, 0#32), (0x2038, 0#32), (0x203C, 0#32), (0x2048, 0#32),
      (0x3000, 0#32), (0x3004, 0x02580000#32), (0x3008, 0x00140000#32), (0x300C, 0x01F4000A#32), (0x3010, 0#32), (0x3014, 0#32),
      (0x3018, 0x258#32),
      (0x4000, 0#32), (0x4004, 0#32), (0x4008, 0#32), (0x400C, 4#32), (0x4010, 0x03E82831#32), (0x4014, 0x003C01F4#32),
      (0x4018, 0#32), (0x401C, 0#32), (0x4020, 0x7D#32), (0x4024, 0x00640000#32), (0x4028, 0#32), (0x402C, 0#32), (0x4030, 0#32),
      (0x5000, 0x43C#32), (0x5004, 0x64#32), (0x5008, 0x002803E8#32), (0x5010, 0#32), (0x5014, 0#32), (0x5018, 0#32),
      (0x501C, 0#32), (0x5020, 0#32), (0x5024, 0#32), (0x5028, 0#32),
      (0x6000, 0x003C0001#32), (0x6004, 0x3201#32), (0x6008, 0#32), (0x6010, 0#32), (0x6014, 0#32), (0x6018, 0#32), (0x601C, 0#32),
      (0x6020, 0#32), (0x6024, 0#32), (0x6028, 0#32), (0x602C, 0#32)] : List (Nat × Word)),
      regWord State.reset e.1 = e.2)
  ∧ (∀ e ∈ ([(0x20000, 0#32), (0x20004, 0#32), (0x20008, 0#32), (0x2000C, 1#32), (0x20A00, 0#32), (0x20A04, 0#32),
      (0x20A10, 0#32), (0x34000, 0x00010000#32), (0x34004, 0#32), (0x34008, 0x000A0064#32), (0x3400C, 0x1000#32), (0x34010, 1#32),
      (0x40000, 0x3E8#32), (0x40004, 0#32), (0x50000, 0#32), (0x50004, 0#32), (0x50008, 0#32), (0x5000C, 0#32)]
      : List (Nat × Word)), regWord State.reset e.1 = e.2)
  ∧ (∀ r, r < 4 → ∀ e ∈ ([(0x100, 0#32), (0x104, 0#32), (0x108, 8#32), (0x10C, 0#32), (0x110, 0#32), (0x114, 0#32), (0x200, 0#32),
      (0x204, 0#32), (0x208, 0x00010008#32), (0x20C, 0#32), (0x210, 0x1000#32)] : List (Nat × Word)),
      regWord State.reset (0x1000 + 0x40 * r + e.1) = e.2)
  ∧ (∀ v, v < 64 → regWord State.reset (0x1800 + 16 * v) = 0#32 ∧ regWord State.reset (0x1804 + 16 * v) = 0#32
      ∧ regWord State.reset (0x1808 + 16 * v) = 0#32 ∧ regWord State.reset (0x180C + 16 * v) = 1#32)
  ∧ (∀ n, n < 16 → ∀ e ∈ ([(0x0, 0#32), (0x4, 0x1F0#32), (0x8, 0x5EBEF801#32), (0xC, 0x17175E00#32), (0x10, 0x05051000#32),
      (0x14, 0x00086001#32), (0x18, 0x00081201#32), (0x1C, 0x903#32), (0x20, 0#32), (0x24, 0x03E80800#32), (0x28, 0#32),
      (0x2C, 0x07FFFF03#32), (0x30, 0#32), (0x34, 0xA#32), (0x38, 0x24201115#32), (0x3C, 0x32#32), (0x40, 0#32), (0x44, 0x1F#32),
      (0x48, 0#32)] : List (Nat × Word)), regWord State.reset (0x10000 + 0x1000 * n + e.1) = e.2)
  ∧ (∀ n b k, n < 16 → b < 3 → k ≤ 0x16 → regWord State.reset (0x10100 + 0x1000 * n + 0x80 * b + 4 * k) = 0#32)
  ∧ (∀ n, n < 16 → regWord State.reset (0x3100 + 16 * n) = 0x00080510#32 ∧ regWord State.reset (0x3104 + 16 * n) = 0x01000000#32
      ∧ regWord State.reset (0x3108 + 16 * n) = 0x64#32 ∧ regWord State.reset (0x4100 + 16 * n) = 0#32
      ∧ regWord State.reset (0x4104 + 16 * n) = 0#32 ∧ regWord State.reset (0x4108 + 16 * n) = 0#32
      ∧ regWord State.reset (0x410C + 16 * n) = 0#32 ∧ regWord State.reset (0x6100 + 0x20 * n) = 0x00408204#32
      ∧ regWord State.reset (0x6104 + 0x20 * n) = 0x006400FA#32 ∧ regWord State.reset (0x6108 + 0x20 * n) = 0x7FFF0000#32
      ∧ regWord State.reset (0x610C + 0x20 * n) = 0#32 ∧ regWord State.reset (0x6110 + 0x20 * n) = 0#32
      ∧ regWord State.reset (0x6114 + 0x20 * n) = 0x12601260#32 ∧ regWord State.reset (0x20100 + 4 * n) = 0#32
      ∧ regWord State.reset (0x40100 + 8 * n) = 0#32 ∧ regWord State.reset (0x40104 + 8 * n) = 0#32)
  ∧ (∀ u k, u < 32 → 1 ≤ k → k ≤ 0xD →
      regWord State.reset (0x7000 + 0x80 * u) = 0x80#32 ∧ regWord State.reset (0x7000 + 0x80 * u + 4 * k) = 0#32)
  ∧ (∀ q k, q < 256 → k ≤ 9 → regWord State.reset (0x30000 + 0x40 * q + 4 * k) = if k = 2 then 0x00020000#32 else 0#32)
  ∧ (∀ q k, q < 256 → k ≤ 0x13 →
      regWord State.reset (0x38000 + 0x80 * q + 4 * k) = if k = 0x10 then 2#32 else if k = 0x13 then 0x20#32 else 0#32)
  ∧ (∀ g, g < 256 → regWord State.reset (0x20200 + 8 * g) = 0#32 ∧ regWord State.reset (0x20204 + 8 * g) = 0#32)
  ∧ (∀ r k, r < 1024 → k < 4 → regWord State.reset (0x44000 + 0x10 * r + 4 * k) = 0#32)
  ∧ (∀ c, c < 512 → regWord State.reset (0x51000 + 4 * c) = 0#32 ∧ regWord State.reset (0x52000 + 8 * c) = 0#32
      ∧ regWord State.reset (0x52004 + 8 * c) = 0#32)
/-! ## Reset and bring-up (chapter 16) -/

/-- Core power-on reset restarts bring-up at B0 and sets every register to its Reset value; the retention, the PW registers
and VX_LAST3 are kept (R440), the straps are sampled (R442), the claim is the retained one (R347); where RESET_N is low, it holds the
device on (R551). On the exit from HIBERNATE the cause reads 3 and PWR_HOLD is high (R418); with TESTMODE high source 63 is set (R407).
Clearing the pending latch and the reasons is as R437 says. What `State.reset` gives where the spec gives nothing is the model's: the
straps and pins (log entry 4), Lattice's table at END (log entry 7), the pool's bytes (log entry 11), the CTL count of a context (log
entry 82), the registers of log entry 6; the queue, the outputs and the free values' counter stay (log entry 2). More choices in
it: log entry 107. -/
def Obligations.CorePowerOnReset : Prop :=
  (∀ (straps : Straps) (s : State), s.pw.mode ≠ .hibernate → straps.testMode = false →
    exec (.corePor straps []) s = .next { State.reset with
      pw := { s.pw with mode := .run, ballot := 0, bal := none, committed := false, latch := 0, byFrame := [], hostHeld := false
                        appCodes := [], hostWake := [], traffic := [], wakeInput := [], locals := [], reenter := none
                        lapsed := 0 }
      ret := s.ret
      gl := { Gl.reset with gpioPins := s.gl.gpioPins / 4 * 4 + straps.b1Rate.val }
      dx := { Dx.reset with unit := straps.unitId.val, claim := s.ret.claim, highest := s.ret.claim }
      boot := { Boot.reset with straps := straps, pins := straps, rstHeld := s.boot.rstHeld }
      outs := s.outs, freeCtr := s.freeCtr, pending := s.pending, tap := s.tap })
  ∧ (∀ (straps : Straps) (bad : List (Fin 128)) (s : State), ∃ t, exec (.corePor straps bad) s = .next t
    ∧ t.boot = { Boot.reset with straps := straps, pins := straps, rstHeld := s.boot.rstHeld
                                 cause := if s.pw.mode = .hibernate then 3 else 0 }
    ∧ t.vx.testMode = straps.testMode ∧ bitOf64 t.vx.stat 63 = straps.testMode ∧ t.dx.claim = t.ret.claim
    ∧ (s.pw.mode = .hibernate → t.pw.pwrHold = true))

/-- RESET_N and a soft reset with GL_KEY unlocked reset as core power-on reset does, but keep Vertex's registers, the claim
gates, the wheel's parity record, the guard steps, the largest slowdown and TESTMODE as sampled (R38, R142, R391, R407, R440, R442,
R459, R464); a soft
reset with GL_KEY locked does nothing (R532). While a core supply is below its threshold RESET_N's edge leaves core power-on reset on
(R551); in HIBERNATE there is no core to reset (R417). The model's choices in it: log entries 2, 4, 6, 7, 11, 82 and 107. -/
def Obligations.WarmResets : Prop :=
  (∀ (straps : Straps) (s : State) (c : Instr) (cause : Nat), s.vx.safe = false → s.pw.mode ≠ .hibernate →
    (c = .resetN straps [] ∧ cause = 1 ∧ s.boot.porHeld = false
      ∨ ∃ i, c = .softReset i straps [] ∧ cause = 2 ∧ regReach i 0x64 s = true ∧ s.gl.unlocked = true) →
    exec c s = .next { State.reset with
      pw := { s.pw with mode := .run, ballot := 0, bal := none, committed := false, latch := 0, byFrame := [], hostHeld := false
                        appCodes := [], hostWake := [], traffic := [], wakeInput := [], locals := [], reenter := none
                        lapsed := 0 }
      ret := s.ret
      vx := { s.vx with level := putBit64 s.vx.level 31 false, aliveRun := false, alivePin := false, proof := none
                        held := s.vx.held.filter keepHeld }
      lat := { Lat.reset with gates := s.lat.gates, gateErr := s.lat.gateErr }
      gl := { Gl.reset with gpioPins := s.gl.gpioPins / 4 * 4 + straps.b1Rate.val, perrSlot := s.gl.perrSlot
                            perrLane := s.gl.perrLane, perrSeen := s.gl.perrSeen }
      mp := { Mp.reset with guard := putFld (putFld Mp.reset.guard 1 3 (fld s.mp.guard 1 3)) 16 16 (fld s.mp.guard 16 16) }
      dx := { Dx.reset with unit := straps.unitId.val, claim := s.ret.claim, highest := s.ret.claim }
      boot := { Boot.reset with straps := { straps with testMode := s.boot.straps.testMode }, pins := straps, cause := cause }
      outs := s.outs, freeCtr := s.freeCtr, pending := s.pending, tap := s.tap })
  ∧ (∀ (straps : Straps) (bad : List (Fin 128)) (i : Iface) (s : State), s.gl.unlocked = false →
    exec (.softReset i straps bad) s = .next s)
  ∧ (∀ (straps : Straps) (bad : List (Fin 128)) (s : State), s.boot.porHeld = true →
    exec (.resetN straps bad) s = .next { s with boot := { s.boot with rstHeld := false } })
  ∧ (∀ (straps : Straps) (bad : List (Fin 128)) (i : Iface) (s : State), s.pw.mode = .hibernate → s.boot.rstHeld = false →
    exec (.resetN straps bad) s = .next s ∧ exec .resetNAsserted s = .next s ∧ exec (.softReset i straps bad) s = .next s)

/-- R441: in the safe state RESET_N, its falling edge and a soft reset, asked for in either way, change nothing at all, while no core supply is below its
threshold (that is core power-on reset, which ends the safe state: R395). -/
def Obligations.ResetsInSafeState : Prop :=
  ∀ (straps : Straps) (bad : List (Fin 128)) (i : Iface) (v : Word) (s : State), s.vx.safe = true → s.boot.porHeld = false →
    exec (.resetN straps bad) s = .next s ∧ exec .resetNAsserted s = .next s ∧ exec (.softReset i straps bad) s = .next s
    ∧ exec (.registerWrite i 0x64 v 15) s = .next s

/-- The reset lines, the always-on supply and PE_PERST_N: RESET_N held low and a core supply below its threshold hold the
device in reset with every channel's engine at its reset state (R440, R551); core power-on reset alone ends the safe state
(R395), and VDD_IO and VDD_SER below theirs leave their pins undriven (R545, R551); VAO_POR clears the retention and the PW registers and drives PWR_HOLD high, and changes nothing else (R440); VAO_LOST
loses the retention, the counters and the wake latch, and PWR_HOLD is no longer driven (R415). PE_PERST_N resets the endpoint: the link,
the configuration space, the MSI-X table and its pending bits (the last two are the model's choice, log entry 12), and disables the rings of
PCI Express, whose commands run on with their completions discarded (R488). The straps and pins kept while a reset is asserted are the model's choice (log entry 4), and
so is what log entry 108 says. -/
def Obligations.ResetLines : Prop :=
  (∀ s : State, s.vx.safe = false → s.pw.mode ≠ .hibernate → s.boot.porHeld = false → ∃ t, exec .resetNAsserted s = .next t
    ∧ t.boot = { Boot.reset with straps := { strapLevels s with testMode := s.boot.straps.testMode }, pins := strapLevels s
                                 cause := 1, rstHeld := true } ∧ t.chans = [] ∧ t.ret = s.ret)
  ∧ (∀ s : State, s.vx.safe = false → s.pw.mode ≠ .hibernate → s.boot.porHeld = true →
    exec .resetNAsserted s = .next { s with boot := { s.boot with rstHeld := true } })
  ∧ (∀ (s : State) (rail : Fin 4), ∃ t, exec (.corePorAsserted rail) s = .next t
    ∧ t.boot = { Boot.reset with straps := s.boot.straps, pins := s.boot.pins, porHeld := true, rstHeld := s.boot.rstHeld
                                 ioLow := s.boot.ioLow || rail == 2, serLow := s.boot.serLow || rail == 3 }
    ∧ t.vx = Vx.reset ∧ t.chans = [] ∧ t.ret = s.ret ∧ (s.pw.mode = .hibernate → t.pw = s.pw))
  ∧ (∀ s : State, s.pw.mode ≠ .hibernate →
    exec .vaoPor s = .next { s with ret := Ret.reset, pw := { Pw.reset with mode := s.pw.mode } })
  ∧ (∀ s : State, s.pw.mode = .hibernate →
    exec .vaoPor s = .next { s with ret := Ret.reset, pw := Pw.reset, boot := { s.boot with
      porHeld := true, ioLow := false, serLow := false } })
  ∧ (∀ s : State, exec .vaoLost s = .next { s with
      ret := Ret.reset
      pw := { s.pw with latch := 0, byFrame := [], winCount := [], pwrHold := false, vao := false } })
  ∧ (∀ s : State, ∃ t, exec .pePerstN s = .next t ∧ t = { s with sq := t.sq }
    ∧ t.sq.linkUp = false ∧ t.sq.ep = Endpoint.reset ∧ t.sq.msix = [] ∧ t.sq.msixPend = 0#64 ∧ t.sq.stgCells = s.sq.stgCells ∧ t.sq.irqPend = s.sq.irqPend
    ∧ (∀ r, r < 4 → (s.cr r).serial = true → t.cr r = s.cr r)
    ∧ (∀ r, r < 4 → (s.cr r).serial = false →
        t.cr r = { s.cr r with en := false, state := .disabled
                               cmd := (s.cr r).cmd.map fun d => { d with discard := true } })
    ∧ (∀ k, k < 5 → (s.cq k).serial = true → t.cq k = s.cq k)
    ∧ (∀ k, k < 5 → (s.cq k).serial = false → t.cq k = { s.cq k with en := false, state := .disabled }))

/-- The phases of bring-up (R443 to R446): the ROM check passes, the reference is stable and the reduced service begins on
channels 0 to 3, the PLL locks, BIST passes and B3 begins with the pool cleared; a phase that fails ends as its rule says.
The model's choices in it: log entry 11. -/
def Obligations.BringUp : Prop :=
  ((∀ s : State, bringUp .b0 s = true → s.boot.rom = false →
    exec (.romCheckDone true) s = .next { s with boot := { s.boot with rom := true } })
  ∧ (∀ s : State, bringUp .b0 s = true → s.boot.rom = true → ∃ t, exec .referenceStable s = .next t
    ∧ t = { s with boot := { s.boot with phase := .b2 }, chans := t.chans
                   bdp := { s.bdp with cfg := putFld s.bdp.cfg 16 12 (s.ret.devAddr.getD 0xFFF) } }
    ∧ (∀ n, n < 4 → heldBy s (.chan n) = false → t.chan n = { s.chan n with
        state := .integrating, trx := 0, trxTgt := 0, settling := false, pinsDrv := true })
    ∧ ∀ n, 4 ≤ n → t.chan n = s.chan n)
  ∧ (∀ s : State, bringUp .b2 s = true → exec .pllLocked s = .next { s with boot := { s.boot with locked := true } })
  ∧ (∀ (s : State) (us : Nat), bringUp .b2 s = true → s.boot.locked = true →
    exec (.bistDone true us) s = .next { s with
      pool := { s.pool with mem := [] }, boot := { s.boot with phase := .b3, cycles := us * 480 }, round := 0 }))
  ∧ ((∀ (s : State) (c : Instr) (src : Nat), bitOf64 s.vx.level src = false →
    (c = .romCheckDone false ∧ src = 35 ∧ bringUp .b0 s = true ∧ s.boot.rom = false
      ∨ c = .referenceTimeout ∧ src = 26 ∧ bringUp .b0 s = true ∧ s.boot.rom = true
      ∨ c = .pllLockTimeout ∧ src = 25 ∧ bringUp .b2 s = true ∧ s.boot.locked = false) →
    ∃ t, exec c s = .next t ∧ bitOf64 t.vx.stat src = true ∧ t.vx.safe = true ∧ FaultSide s t)
  ∧ (∀ s : State, s.boot.porHeld = false → s.boot.rstHeld = false → ∃ t, exec .sequencerWatchdog s = .next t ∧ bitOf64 t.vx.stat 34 = true
    ∧ (classMapOf s.vx.classes 34 = 3 → t.vx.safe = true) ∧ FaultSide s t)
  ∧ (∀ (s : State) (us : Nat), bringUp .b2 s = true → s.boot.locked = true → s.boot.reason = 0 →
    ∃ t, exec (.bistDone false us) s = .next t ∧ bitOf64 t.vx.stat 23 = true
      ∧ t.boot = { s.boot with phase := .failed, cycles := us * 480, reason := 0x0C, failSec := 0 })
  ∧ (∀ s : State, flashReads s = true → s.boot.reading = 0 → s.boot.reason = 0 →
    exec .flashHeaderTimeout s = .next { s with boot := { s.boot with reason := 0x0B, failSec := 0, reading := 1 } })
  ∧ (∀ s : State, flashReads s = true → s.boot.reading ≠ 0 → s.boot.reason ≠ 0 →
    ∃ t, exec .flashHeaderTimeout s = .next t ∧ t.boot = { s.boot with phase := .failed } ∧ bitOf64 t.vx.stat 36 = true))

/-- A flash copy read whole, staged in cells of the pool (which is left open: log entry 46): copy A, where it fails a check of R451, gives way to copy B with its reason recorded (R446, R457), and
copy B, where it fails too, leaves bring-up in B3_FAILED with source 36; one
that passes every check, those of R13 and R452 among them, is committed and the device enters SERVICE with ALIVE toggling (R443). -/
def Obligations.FlashCopyDecides : Prop :=
  (∀ (s : State) (img : List Byte) (f : ImgFail), flashReads s = true → s.boot.reading = 0 → s.boot.reason = 0 →
    imageFail img = some f →
    ∃ t, exec (.flashCopyDone img) s = .next t ∧ t = { s with pool := { s.pool with mem := t.pool.mem }, freeCtr := t.freeCtr
                                                              boot := { s.boot with reason := f.reason, failSec := f.sec, reading := 1 } }
      ∧ ∃ c, ∀ k, k < img.length → k < 1048576 → memGet t.pool.mem (64 * c + k) = byteAt img k)
  ∧ (∀ (s : State) (img : List Byte), flashReads s = true → imageFail img = none →
    commitFail { stageCopy img s with boot := { s.boot with copy := s.boot.reading } } false img = none →
    ∃ t, exec (.flashCopyDone img) s = .next t ∧ t.boot.phase = .service ∧ t.vx.aliveRun = true)
  ∧ (∀ (s : State) (img : List Byte) (f : ImgFail), flashReads s = true → s.boot.reading ≠ 0 → s.boot.reason ≠ 0 →
    imageFail img = some f → ∃ t, exec (.flashCopyDone img) s = .next t ∧ t.boot = { s.boot with phase := .failed }
      ∧ bitOf64 t.vx.stat 36 = true)
/-! ## Global commands, rings and the host interface (chapters 18 to 20) -/

/-- The global commands (R482 to R484, R506, R518): an undefined opcode ends with E_UNSUPPORTED, NOP returns words 2 and 3,
IDENTIFY gives GL_ID and its word 1, READ_STATUS its two words. SET_PROFILE changes the profile in force, from_image then
reads 0 and every setting is as it was; its result word 0 is GL_PROFILE whatever its status (R484); word 1 [31:1] must be 0, in SERVICE the device must be quiet, and LEGACY is refused
with the limit that the configuration breaks. The model's choices in it: log entry 105. -/
def Obligations.GlobalCommands : Prop :=
  (∀ (s : State) (r : Fin 4) (ws : List Word), Waits s r.val ws →
    (definedOpcode (pOpcode ws) = false → exec (.undefinedOpcode r) s = .next (ended r.val eUnsupported 0 0 s))
    ∧ (sharedCheck s ws = none → pOpcode ws = 0x00 → exec (.nop r) s = .next (ended r.val stOk (wd ws 2) (wd ws 3) s))
    ∧ (sharedCheck s ws = none → pOpcode ws = 0x01 → exec (.identify r) s = .next (ended r.val stOk 0x4B461664#32
        (packW [(0, 12, devAddr s), (12, 3, phaseCode s.boot.phase), (15, 1, b1 s.boot.profile), (16, 8, 1),
                (24, 3, s.dx.state), (27, 1, s.dx.unit)]) s))
    ∧ (sharedCheck s ws = none → pOpcode ws = 0x04 → exec (.readStatus r) s = .next (ended r.val stOk
        (packW [(0, 2, worst s), (2, 1, b1 s.vx.safe), (3, 1, b1 s.dx.linkUp), (4, 3, s.dx.state), (8, 2, s.pw.ballot),
          (10, 1, b1 s.pw.doze), (11, 1, b1 s.pw.committed),
          (16, 16, (List.range 16).foldl (fun a n => a + (if (s.chan n).state == .safe then 2 ^ n else 0)) 0)])
        (packW [(0, 16, notStopped s), (16, 16, s.sq.evLost)]) s)))
  ∧ (∀ (s : State) (r : Fin 4) (ws : List Word), Accepted s r.val ws → pOpcode ws = 0x05 →
    (fld (wd ws 1) 1 31 ≠ 0 → exec (.setProfile r) s = .next (ended r.val eParam (glProfile s.boot) 0 s))
    ∧ (fld (wd ws 1) 1 31 = 0 → s.boot.phase = .service → quiescent s = false →
        exec (.setProfile r) s = .next (ended r.val eState (glProfile s.boot) 0 s))
    ∧ (fld (wd ws 1) 1 31 = 0 → (s.boot.phase = .service → quiescent s = true) →
        bitOf (wd ws 1) 0 = true → s.boot.profile = false → legacyBlocked s ≠ 0 →
        exec (.setProfile r) s = .next (ended r.val eProfile (glProfile s.boot) (w32 (legacyBlocked s)) s))
    ∧ (fld (wd ws 1) 1 31 = 0 → (s.boot.phase = .service → quiescent s = true) →
        (bitOf (wd ws 1) 0 = true → s.boot.profile = true ∨ legacyBlocked s = 0) →
        exec (.setProfile r) s = .next (ended r.val stOk (packW [(0, 1, b1 (bitOf (wd ws 1) 0)), (1, 1, 0)]) 0
          { s with boot := { s.boot with profile := bitOf (wd ws 1) 0, fromImg := false } })))

/-- A command that a check of R506 (2 to 6) refuses ends at once with that check's status, whichever command it is; nothing but its
ring is changed. Its result words are 0, with the limit in word 1 on E_PROFILE (R480), and but for what the tables of 0x05, 0x71, 0x72 and
0x73 give whatever the status: GL_PROFILE, the bits of the mask still set, VX_FIRST, VX_CLASS1 and VX_CLASS2 (R410, R484); 0x20 has
written no element (R158). That those words are given with these statuses too is the model's reading (log entry 169). -/
def Obligations.SharedChecksRefuse : Prop :=
  ∀ (s : State) (r : Fin 4) (ws : List Word) (e : Nat × Word) (fault : Bool) (a : Option Nat) (b : Nat)
    (f : (Fin 4 → Instr) × (List Word → Bool)), f ∈ ringForms fault a b →
    Waits s r.val ws → f.2 ws = true → sharedCheck s ws = some e → (∀ w ∈ s.lat.writes, w.ring ≠ r.val) →
    ∃ r0 r1, exec (f.1 r) s = .next (ended r.val e.1 r0 r1 s) ∧ (e.1 = eProfile → r1 = e.2)
      ∧ (pOpcode ws ∉ [0x05, 0x71, 0x72, 0x73] → r0 = 0#32 ∧ r1 = e.2)
      ∧ (pOpcode ws = 0x05 → r0 = glProfile s.boot ∧ r1 = e.2)
      ∧ (pOpcode ws = 0x71 → r0 = lo32 (join64 (wd ws 2) (wd ws 3) &&& s.vx.stat)
          ∧ (e.1 ≠ eProfile → r1 = hi32 (join64 (wd ws 2) (wd ws 3) &&& s.vx.stat)))
      ∧ (pOpcode ws = 0x72 → r0 = 0#32 ∧ (e.1 ≠ eProfile → r1 = vxFirst s.vx))
      ∧ (pOpcode ws = 0x73 → r0 = mget 0 s.vx.classes 1 ∧ (e.1 ≠ eProfile → r1 = mget 0 s.vx.classes 2))

/-- LOAD_IMAGE and COMMIT_CONFIG (R444, R452, R455, R456, R565): an image in staging that passes the checks of R451 is kept
(and committed with commit = 1), one that fails ends with that check's status and leaves no image (log entry 41); a commit
without an image, or in SERVICE where R456 does not allow one, ends with E_STATE, one that fails the checks of R13 and R452 with the failure's status; a
commit that passes them takes the device to SERVICE with ALIVE toggling. Over PCI Express a load waits for its data. The model's choices in it: log entries 109 and 110.
-/
def Obligations.ImageCommands : Prop :=
  (∀ (s : State) (r : Fin 4) (ws : List Word) (c : Instr), Accepted s r.val ws →
    (isLoad false ws = true ∧ c = .loadImage r ∨ isLoad true ws = true ∧ c = .loadImageCommit r) →
    (addrOk s r.val (wd ws 2) (wd ws 3) (wd ws 4).toNat = false → exec c s = .next (ended r.val eParam 0 0 s))
    ∧ (addrOk s r.val (wd ws 2) (wd ws 3) (wd ws 4).toNat = true → loadPossible s (s.cr r.val).serial = false →
        exec c s = .next (ended r.val eState 0 0 s))
    ∧ (addrOk s r.val (wd ws 2) (wd ws 3) (wd ws 4).toNat = true → loadPossible s (s.cr r.val).serial = true →
        (∀ k, k < 4 → k ≠ r.val → pOpcode ((s.cr k).cmd.elim [] (·.words)) ≠ 0x03) → (s.cr r.val).serial = false →
        exec c s = .next ((started r.val s).modCmd r.val fun d => { d with dma := true }))
    ∧ (addrOk s r.val (wd ws 2) (wd ws 3) (wd ws 4).toNat = true → loadPossible s (s.cr r.val).serial = true →
        (∀ k, k < 4 → k ≠ r.val → pOpcode ((s.cr k).cmd.elim [] (·.words)) ≠ 0x03) → (s.cr r.val).serial = true →
        let img := stgRead s (wd ws 2).toNat (wd ws 4).toNat
        (∀ f, imageFail img = some f → exec c s = .next (ended r.val (failStatus f) 0 (failWord f)
            (recordFail f { s with boot := { s.boot with image := none } })))
        ∧ (imageFail img = none → c = .loadImage r → exec c s = .next (ended r.val stOk (w32 (fld (wordAt img 4) 16 16)) 0
            { s with boot := { s.boot with image := some img } }))
        ∧ (imageFail img = none → c = .loadImageCommit r →
            commitFail { s with boot := { s.boot with image := some img } } true img = none →
            ∃ t, exec c s = .next t ∧ t.boot.phase = .service ∧ t.vx.aliveRun = true)
        ∧ (∀ f, imageFail img = none → c = .loadImageCommit r →
            commitFail { s with boot := { s.boot with image := some img } } true img = some f →
            exec c s = .next (ended r.val (failStatus f) 0 (failWord f)
              (recordFail f { s with boot := { s.boot with image := some img } })))))
  ∧ (∀ (s : State) (r : Fin 4) (ws : List Word), Accepted s r.val ws → isCommit false ws = true →
    (s.boot.image = none ∨ s.boot.phase = .service ∧ quiescent s = false →
      exec (.commitConfig r) s = .next (ended r.val eState 0 0 s))
    ∧ (∀ img f, s.boot.image = some img → (s.boot.phase = .service → quiescent s = true) →
        commitFail s (s.cr r.val).serial img = some f →
        exec (.commitConfig r) s = .next (ended r.val (failStatus f) 0 (failWord f) (recordFail f s)))
    ∧ (∀ img, s.boot.image = some img → (s.boot.phase = .service → quiescent s = true) →
        commitFail s (s.cr r.val).serial img = none →
        ∃ t, exec (.commitConfig r) s = .next t ∧ t.boot.phase = .service ∧ t.vx.aliveRun = true))
  ∧ (∀ (s : State) (r : Fin 4) (ws : List Word), Accepted s r.val ws → isCommit true ws = true →
    (s.boot.phase ≠ .b3 ∨ s.boot.straps.bootSel ≠ 3 → exec (.commitConfigEmpty r) s = .next (ended r.val eState 0 0 s))
    ∧ (s.boot.phase = .b3 → s.boot.straps.bootSel = 3 → emptyFail s = none →
        ∃ t, exec (.commitConfigEmpty r) s = .next t ∧ t.boot.phase = .service ∧ t.vx.aliveRun = true)
    ∧ (∀ f, s.boot.phase = .b3 → s.boot.straps.bootSel = 3 → s.lat.elemErr = [] → emptyFail s = some f →
        exec (.commitConfigEmpty r) s = .next (ended r.val (failStatus f) 0 (failWord f) (recordFail f s))))

/-- The doorbells (R498, R510): a tail below the ring's size and a head from the old head to the tail take effect; a head of the event
ring also consumes the events that it passes; every other value is ignored, sets db_err and raises 0x04 SQ_DB_ERR with the
ring's number. -/
def Obligations.Doorbells : Prop :=
  (∀ (s : State) (i : Iface) (r : Fin 4) (v : Word), regReach i 0x110C s = true →
    (fld v 0 12 < 2 ^ (s.cr r.val).log2 →
      exec (.cmdDoorbell i r v) s = .next (s.modCr r.val fun c => { c with tail := fld v 0 12 }))
    ∧ (2 ^ (s.cr r.val).log2 ≤ fld v 0 12 →
      exec (.cmdDoorbell i r v) s = .next (raise 0x04 r.val [(16, r.val)] (s.modCr r.val fun c => { c with dbErr := true }))
      ∧ CompletesTelling (.cmdDoorbell i r v) s (s.modCr r.val fun c => { c with dbErr := true })))
  ∧ (∀ (s : State) (i : Iface) (k : Fin 5) (v : Word), regReach i 0x120C s = true →
    (fld v 0 12 < 2 ^ (s.cq k.val).log2 → (fld v 0 12 + 2 ^ (s.cq k.val).log2 - (s.cq k.val).head) % 2 ^ (s.cq k.val).log2
        ≤ ((s.cq k.val).tail + 2 ^ (s.cq k.val).log2 - (s.cq k.val).head) % 2 ^ (s.cq k.val).log2 →
      CompletesTelling (.cqDoorbell i k v) s (s.modCq k.val fun c => { c with head := fld v 0 12 })
      ∧ (k.val < 4 → exec (.cqDoorbell i k v) s = .next (s.modCq k.val fun c => { c with head := fld v 0 12 }))
      ∧ (k.val = 4 → s.sq.lostSince = 0 → exec (.cqDoorbell i k v) s = .next { s with
          sq := { (s.modCq 4 fun c => { c with head := fld v 0 12 }).sq with
            evOut := s.sq.evOut.drop ((fld v 0 12 + 2 ^ (s.cq 4).log2 - (s.cq 4).head) % 2 ^ (s.cq 4).log2) } }))
    ∧ (2 ^ (s.cq k.val).log2 ≤ fld v 0 12
        ∨ ((s.cq k.val).tail + 2 ^ (s.cq k.val).log2 - (s.cq k.val).head) % 2 ^ (s.cq k.val).log2
          < (fld v 0 12 + 2 ^ (s.cq k.val).log2 - (s.cq k.val).head) % 2 ^ (s.cq k.val).log2 →
      exec (.cqDoorbell i k v) s =
        .next (raise 0x04 (k.val + 4) [(16, k.val + 4)] (s.modCq k.val fun c => { c with dbErr := true }))
      ∧ CompletesTelling (.cqDoorbell i k v) s (s.modCq k.val fun c => { c with dbErr := true })))

/-- RING_ENABLE and RING_DISABLE (R500, R517): a ring in DISABLED whose base is aligned, whose size is in range, which lies in staging if it
is serial, and, for a command ring, whose completion ring runs, is RUNNING with head and tail 0, a completion or event ring with phase 1;
otherwise it stays DISABLED, en reads 0 and a command ring's halt_kind is CONFIG. A ring that is not DISABLED keeps its base, size and state; its other
fields are written. A running command ring is DISABLING while it
has a command and DISABLED otherwise, a halted one is DISABLED; en = 0 for a completion ring is ignored while its command ring is
not DISABLED, and for a running event ring while any command ring is not (log entry 151). The event ring reports the events lost before
(R510), and forgets those not consumed (log entry 139). -/
def Obligations.RingEnableDisable : Prop :=
  ((∀ (s : State) (i : Iface) (r : Fin 4) (ring : Fin 9) (v : Word), ring.val = r.val → bitOf v 0 = true →
    regReach i 0x1108 s = true →
    ((s.cr r.val).state = .disabled →
      ringConfigOk s (s.cr r.val).baseLo (s.cr r.val).baseHi (bitOf v 1) (fld v 2 4) 32 = true →
      (s.cq r.val).state = .running →
      exec (.ringEnable i ring v) s = .next (s.modCr r.val fun c => { c with
        en := true, serial := bitOf v 1, log2 := fld v 2 4, state := .running, head := 0, tail := 0, haltKind := 0
        dbErr := c.dbErr && !bitOf v 11 }))
    ∧ ((s.cr r.val).state = .disabled →
      (ringConfigOk s (s.cr r.val).baseLo (s.cr r.val).baseHi (bitOf v 1) (fld v 2 4) 32 = false
        ∨ (s.cq r.val).state ≠ .running) →
      exec (.ringEnable i ring v) s = .next (s.modCr r.val fun c => { c with
        en := false, serial := bitOf v 1, log2 := fld v 2 4, haltKind := 1, dbErr := c.dbErr && !bitOf v 11 }))
    ∧ ((s.cr r.val).state ≠ .disabled →
      exec (.ringEnable i ring v) s = .next (s.modCr r.val fun c => { c with
        serial := bitOf v 1, dbErr := c.dbErr && !bitOf v 11 })))
  ∧ (∀ (s : State) (i : Iface) (k : Fin 5) (ring : Fin 9) (v : Word) (c : CqRing), ring.val = k.val + 4 → bitOf v 0 = true →
    regReach i 0x1108 s = true →
    c = { s.cq k.val with serial := bitOf v 1, dbErr := (s.cq k.val).dbErr && !bitOf v 6
                          vector := fld v 8 6, coalN := fld v 16 8, coalUs := fld v 24 8 } →
    ((s.cq k.val).state = .disabled →
      ringConfigOk s (s.cq k.val).baseLo (s.cq k.val).baseHi (bitOf v 1) (fld v 2 4) 16 = true →
      let u := s.modCq k.val fun _ => { c with
        en := true, log2 := fld v 2 4, state := .running, head := 0, tail := 0, phase := true, unsig := 0 }
      (k.val < 4 → exec (.ringEnable i ring v) s = .next u)
      ∧ (k.val = 4 → s.sq.lostSince = 0 → exec (.ringEnable i ring v) s = .next { u with sq := { u.sq with evOut := [] } })
      ∧ (k.val = 4 → s.sq.lostSince ≠ 0 → evMasked s 2 = false → ∃ t, exec (.ringEnable i ring v) s = .next t ∧ Told u t
        ∧ t.sq.lostSince = 0 ∧ t.sq.evOut = [2 * 2 ^ 32] ∧ (t.cq 4).state = .running ∧ (t.cq 4).tail = 1
        ∧ (t.cq 4).phase = true))
    ∧ ((s.cq k.val).state = .disabled →
      ringConfigOk s (s.cq k.val).baseLo (s.cq k.val).baseHi (bitOf v 1) (fld v 2 4) 16 = false →
      exec (.ringEnable i ring v) s = .next (s.modCq k.val fun _ => { c with en := false, log2 := fld v 2 4 }))
    ∧ ((s.cq k.val).state ≠ .disabled → exec (.ringEnable i ring v) s = .next (s.modCq k.val fun _ => c))))
  ∧ ((∀ (s : State) (i : Iface) (r : Fin 4) (ring : Fin 9) (v : Word), ring.val = r.val → bitOf v 0 = false →
    regReach i 0x1108 s = true →
    ((s.cr r.val).state = .running ∨ (s.cr r.val).state = .halted →
      exec (.ringDisable i ring v) s = .next (s.modCr r.val fun c => { c with
        en := false, serial := bitOf v 1, dbErr := c.dbErr && !bitOf v 11
        state := if c.state = .running ∧ c.cmd.isSome then .disabling else .disabled }))
    ∧ ((s.cr r.val).state = .disabling →
      exec (.ringDisable i ring v) s = .next (s.modCr r.val fun c => { c with
        serial := bitOf v 1, dbErr := c.dbErr && !bitOf v 11 }))
    ∧ ((s.cr r.val).state = .disabled →
      exec (.ringDisable i ring v) s = .next (s.modCr r.val fun c => { c with
        en := false, serial := bitOf v 1, log2 := fld v 2 4, dbErr := c.dbErr && !bitOf v 11 })))
  ∧ (∀ (s : State) (i : Iface) (k : Fin 5) (ring : Fin 9) (v : Word) (c : CqRing), ring.val = k.val + 4 → bitOf v 0 = false →
    regReach i 0x1108 s = true →
    c = { s.cq k.val with serial := bitOf v 1, dbErr := (s.cq k.val).dbErr && !bitOf v 6
                          vector := fld v 8 6, coalN := fld v 16 8, coalUs := fld v 24 8, en := false } →
    (k.val < 4 → (s.cq k.val).state ≠ .disabled → (s.cr k.val).state ≠ .disabled →
      exec (.ringDisable i ring v) s = .next s)
    ∧ (k.val < 4 → (s.cq k.val).state ≠ .disabled → (s.cr k.val).state = .disabled →
      exec (.ringDisable i ring v) s = .next (s.modCq k.val fun _ => { c with state := .disabled }))
    ∧ (k.val = 4 → (s.cq 4).state = .running → (∃ r, r < 4 ∧ (s.cr r).state ≠ .disabled) →
      exec (.ringDisable i ring v) s = .next s)
    ∧ (k.val = 4 → (s.cq 4).state ≠ .disabled → (s.cq 4).state ≠ .running ∨ (∀ r, r < 4 → (s.cr r).state = .disabled) →
      exec (.ringDisable i ring v) s = .next (s.modCq 4 fun _ => { c with state := .disabled }))
    ∧ ((s.cq k.val).state = .disabled →
      exec (.ringDisable i ring v) s = .next (s.modCq k.val fun _ => { c with log2 := fld v 2 4 }))))

/-- COMMAND_FETCH (R33, R499, R500): in a host DMA slot, once no earlier request waits for one (how requests are ordered is the model's
choice: log entry 155), the next ring in round-robin order takes the entry at its head, of a serial ring from staging, and
holds it as a command that has not begun; a fetch that fails with a kind of R496 halts the ring with that kind and is a host-link fault, and an
entry beyond staging halts it with halt_kind STAGING. Only a running ring that is not empty and has no command in progress fetches. A
fetch whose transfer is disturbed is discarded with source 22 (R35). -/
def Obligations.CommandFetch : Prop :=
  (∀ (s : State) (ws : List Word) (r : Nat), ringsUsable s = true → nextRing s = some r → hostIdle s = true →
    slotBad s .hostDma = none → (s.cr r).serial = false →
    exec (.commandFetch (.good ws)) s = .next
      { (s.modCr r fun c => { c with
          head := (c.head + 1) % 2 ^ c.log2
          cmd := some { words := (List.range 8).map (wd ws), seq := s.sq.fetched, begun := false, dma := false
                        discard := false, sub := none, aux := [], comp := none } }) with
        sq := { (s.modCr r fun c => { c with
            head := (c.head + 1) % 2 ^ c.log2
            cmd := some { words := (List.range 8).map (wd ws), seq := s.sq.fetched, begun := false, dma := false
                          discard := false, sub := none, aux := [], comp := none } }).sq with
          fetched := s.sq.fetched + 1, lastRing := r } })
  ∧ (∀ (s : State) (k : HlKind) (before : List Word) (r : Nat), k ∈ [HlKind.ecrc, .poisoned, .cplTimeout, .cplAbort] →
    ringsUsable s = true → nextRing s = some r → hostIdle s = true → slotBad s .hostDma = none → (s.cr r).serial = false →
    ∃ t, exec (.commandFetch (.bad k before)) s = .next t ∧ FaultSide s t ∧ bitOf64 t.vx.stat 37 = true
      ∧ (t.cr r).state = .halted ∧ (t.cr r).haltKind = hlCode k + 1 ∧ (t.cr r).cmd = none)
  ∧ (∀ (s : State) (entry : Dma) (r : Nat), ringsUsable s = true → nextRing s = some r → hostIdle s = true →
    slotBad s .hostDma = none → (s.cr r).serial = true →
    (baseOf (s.cr r).baseLo (s.cr r).baseHi + 32 * (s.cr r).head + 32 ≤ s.sq.stgCells * 60 →
      ∃ t, exec (.commandFetch entry) s = .next t ∧ t = { s with sq := t.sq } ∧ t.cr r = { s.cr r with
        head := ((s.cr r).head + 1) % 2 ^ (s.cr r).log2
        cmd := some { words := (List.range 8).map (wd (wordsOf
                        (stgRead s (baseOf (s.cr r).baseLo (s.cr r).baseHi + 32 * (s.cr r).head) 32) 8))
                      seq := s.sq.fetched, begun := false, dma := false, discard := false, sub := none, aux := [], comp := none } })
    ∧ (s.sq.stgCells * 60 < baseOf (s.cr r).baseLo (s.cr r).baseHi + 32 * (s.cr r).head + 32 →
      CompletesTelling (.commandFetch entry) s
        { (s.modCr r fun c => { c with state := .halted, haltKind := 8 }) with
          sq := { (s.modCr r fun c => { c with state := .halted, haltKind := 8 }).sq with lastRing := r } }))
  ∧ (∀ (s : State) (entry : Dma) (r : Nat), ringsUsable s = true → nextRing s = some r → hostIdle s = true →
    slotBad s .hostDma ≠ none →
    ∃ t, exec (.commandFetch entry) s = .next t ∧ FaultSide s t ∧ bitOf64 t.vx.stat 22 = true ∧ t.sq.fetched = s.sq.fetched)
  ∧ (∀ (s : State) (r : Nat), nextRing s = some r →
      (s.cr r).state = .running ∧ (s.cr r).head ≠ (s.cr r).tail ∧ (s.cr r).cmd = none)

/-- COMPLETION_WRITE (R502, R504, R511): with room in its completion ring the completion is written there as four words, in host memory or in
staging, the tail moves on, the phase changes at the wrap, the ring signals its vector when the entries since its last signal have reached coal_n or coal_us is
0, and the command leaves its ring (a DISABLING ring is then DISABLED). Without room it waits; so it does while a request that arose
earlier waits for the host DMA slots (R33; the model's order of them: log entry 155). An entry beyond staging halts the completion
ring. A completion that R488 discards is written nowhere.
COALESCE_TIMEOUT (R511) signals a ring that has unsignalled entries. The model's choices in it: log entries 101 and 144. -/
def Obligations.CompletionWrite : Prop :=
  (∀ (s : State) (r : Fin 4) (c : Cmd) (e : Comp) (q : CqRing) (u : State) (b : List Byte),
    (s.cr r.val).cmd = some c → c.comp = some e → c.discard = false → coreLive s = true → slotBad s .hostDma = none →
    q = s.cq r.val →
    b = bytesOfWords [packW [(0, 16, pTag c.words), (16, 8, pOpcode c.words)],
          putFld (packW [(0, 8, e.status), (8, 2, r.val)]) 31 1 (b1 q.phase), e.r0, e.r1] →
    u = (s.modCr r.val fun c => { c with
          cmd := none, state := if c.state = .disabling then .disabled else c.state }).modCq r.val (fun _ => { q with
          tail := (q.tail + 1) % 2 ^ q.log2, phase := if q.tail + 1 = 2 ^ q.log2 then !q.phase else q.phase
          unsig := if (Nat.max 1 q.coalN ≤ q.unsig + 1 ∨ q.coalUs = 0) then 0 else q.unsig + 1 }) →
    (cqRoom q = false → exec (.completionWrite r) s = .next s)
    ∧ (cqRoom q = true → hostFirst s (2 * c.arr, c.seq) = false → exec (.completionWrite r) s = .next s)
    ∧ (cqRoom q = true → hostFirst s (2 * c.arr, c.seq) = true → cqEntryOk s r.val = false →
        CompletesTelling (.completionWrite r) s (s.modCq r.val fun c => { c with state := .halted }))
    ∧ (cqRoom q = true → hostFirst s (2 * c.arr, c.seq) = true → q.serial = false →
        ∃ t, exec (.completionWrite r) s = .next t
        ∧ t = { u with outs := t.outs, sq := { u.sq with msixPend := t.sq.msixPend } }
        ∧ Output.hostWrite (baseOf q.baseLo q.baseHi + 16 * q.tail) b ∈ t.outs
        ∧ ((Nat.max 1 q.coalN ≤ q.unsig + 1 ∨ q.coalUs = 0) →
            s.sq.ep.msixMask = false → bitOf (msixWord s q.vector 3) 0 = false →
            t.outs.head? = some (.msix q.vector (join64 (msixWord s q.vector 0) (msixWord s q.vector 1)) (msixWord s q.vector 2)))
        ∧ ((Nat.max 1 q.coalN ≤ q.unsig + 1 ∨ q.coalUs = 0) →
            s.sq.ep.msixMask = true ∨ bitOf (msixWord s q.vector 3) 0 = true →
            t.sq.msixPend = putBit64 s.sq.msixPend q.vector true))
    ∧ (cqRoom q = true → hostFirst s (2 * c.arr, c.seq) = true → cqEntryOk s r.val = true → q.serial = true →
        ∃ t, exec (.completionWrite r) s = .next t
        ∧ t = { u with pool := { s.pool with mem := t.pool.mem }, sq := { u.sq with irqPend := t.sq.irqPend } }
        ∧ t.sq.irqPend = (if Nat.max 1 q.coalN ≤ q.unsig + 1 ∨ q.coalUs = 0 then putBit64 s.sq.irqPend q.vector true
            else s.sq.irqPend)
        ∧ (∀ i, i < 16 → memGet t.pool.mem (stgAddr s (baseOf q.baseLo q.baseHi + 16 * q.tail + i)) = byteAt b i)
        ∧ ∀ a, (∀ i, i < 16 → a ≠ stgAddr s (baseOf q.baseLo q.baseHi + 16 * q.tail + i)) →
            memGet t.pool.mem a = memGet s.pool.mem a))
  ∧ (∀ (s : State) (r : Fin 4) (c : Cmd) (e : Comp), (s.cr r.val).cmd = some c → c.comp = some e → c.discard = true →
      coreLive s = true → exec (.completionWrite r) s = .next (s.modCr r.val fun c => { c with
        cmd := none, state := if c.state = .disabling then .disabled else c.state }))
  ∧ (∀ (s : State) (r : Fin 4), coreLive s = false → exec (.completionWrite r) s = .next s)
  ∧ (∀ (s : State) (k : Fin 5), (s.cq k.val).unsig ≠ 0 → (s.cq k.val).serial = true →
      exec (.coalesceTimeout k) s = .next { s with
        sq := { (s.modCq k.val fun c => { c with unsig := 0 }).sq with
          irqPend := putBit64 s.sq.irqPend (s.cq k.val).vector true } })
  ∧ (∀ (s : State) (k : Fin 5), (s.cq k.val).unsig ≠ 0 → (s.cq k.val).serial = false →
      s.sq.ep.msixMask = false → bitOf (msixWord s (s.cq k.val).vector 3) 0 = false →
      exec (.coalesceTimeout k) s = .next { (s.modCq k.val fun c => { c with unsig := 0 }) with
        outs := .msix (s.cq k.val).vector (join64 (msixWord s (s.cq k.val).vector 0)
                         (msixWord s (s.cq k.val).vector 1)) (msixWord s (s.cq k.val).vector 2) :: s.outs })
  ∧ (∀ (s : State) (k : Fin 5), (s.cq k.val).unsig ≠ 0 → (s.cq k.val).serial = false →
      s.sq.ep.msixMask = true ∨ bitOf (msixWord s (s.cq k.val).vector 3) 0 = true →
      exec (.coalesceTimeout k) s = .next { s with
        sq := { (s.modCq k.val fun c => { c with unsig := 0 }).sq with
          msixPend := putBit64 s.sq.msixPend (s.cq k.val).vector true } })
  ∧ (∀ (s : State) (k : Fin 5), (s.cq k.val).unsig = 0 → exec (.coalesceTimeout k) s = .next s)

/-- A DMA read made for a command (R33, R496): once no earlier request waits for the host DMA slots (the model's order of them: log entry 155)
its data arrives; for 0x03 LOAD_IMAGE without commit an image that passes its checks
is kept and the command ends OK (the data of the other commands: ChannelConfigureAndStart, PrimeBuffers, HostSubmissions, LatticeTable, TangentCommands and
CheckUnits). A read that fails or comes late is a host-link fault, source 37 with its kind, and ends the command with E_TIMEOUT or E_CHECK, the kind
in result word 1 and nothing changed; LT_WRITE, LOAD_IMAGE and CK_CONTEXT FEED_HOST report what they had taken before it, and LOAD_IMAGE has then replaced the image
that was loaded (log entry 41). Where the class of source 37 is 3, every command in progress ends with E_FAULT instead (R393, R507). -/
def Obligations.DmaReads : Prop :=
  (∀ (s : State) (r : Fin 4) (ws : List Word), dmaWaits s r.val = true → hostIdle s = true → slotBad s .hostDma = none →
    fld (pkt s r.val 0) 0 8 = 0x03 →
    bitOf (pkt s r.val 0) 8 = false → imageFail ((bytesOfWords ws).take (pkt s r.val 4).toNat) = none →
    exec (.dmaReadDone r (.good ws)) s = .next (ended r.val stOk
      (w32 (fld (wordAt ((bytesOfWords ws).take (pkt s r.val 4).toNat) 4) 16 16)) 0
      { s with boot := { s.boot with image := some ((bytesOfWords ws).take (pkt s r.val 4).toNat) } }))
  ∧ (∀ (s : State) (r : Fin 4) (ws : List Word), dmaWaits s r.val = true → hostIdle s = true → slotBad s .hostDma ≠ none →
    ∃ t, exec (.dmaReadDone r (.good ws)) s = .next t ∧ FaultSide s t ∧ bitOf64 t.vx.stat 22 = true)
  ∧ (∀ (s : State) (r : Fin 4) (k : HlKind) (before : List Word) (c : Instr) (st : Nat), dmaWaits s r.val = true →
    (c = .dmaReadDone r (.bad k before) ∧ k ∈ [HlKind.ecrc, .poisoned, .cplAbort] ∧ hostIdle s = true ∧ st = eCheck
      ∨ c = .dmaReadDone r (.bad k before) ∧ k = .cplTimeout ∧ hostIdle s = true ∧ st = eTimeout
      ∨ c = .dmaCompletionTimeout r before ∧ k = .cplTimeout ∧ st = eTimeout) →
    ∃ t, exec c s = .next t ∧ bitOf64 t.vx.stat 37 = true ∧ inProgress t r.val = false
      ∧ (fld (pkt s r.val 0) 0 8 ∉ [0x03, 0x20] → (fld (pkt s r.val 0) 0 8 = 0x61 → fld (pkt s r.val 1) 5 3 ≠ 2) →
          FaultSide s t)
      ∧ (fld (pkt s r.val 0) 0 8 ∉ [0x03, 0x20] → (fld (pkt s r.val 0) 0 8 = 0x61 → fld (pkt s r.val 1) 5 3 ≠ 2) →
          classMapOf s.vx.classes 37 ≠ 3 → EndedIn t r.val st 0 (w32 (hlCode k)))
      ∧ (fld (pkt s r.val 0) 0 8 = 0x03 → classMapOf s.vx.classes 37 ≠ 3 →
          EndedIn t r.val st (w32 (Nat.min (bytesOfWords before).length (pkt s r.val 4).toNat)) (w32 (hlCode k))
          ∧ (before = [] → t.boot = s.boot) ∧ (before ≠ [] → (pkt s r.val 4).toNat ≠ 0 → t.boot = { s.boot with image := none })))

/-- The serial host port and PCI Express (R489 to R492, R514), while the core is powered and no reset holds it. A WRITE with an aligned address, the exact clock count and a
matching CRC applies its words in address order and clears STATUS [0]; a word of staging puts its four bytes there. Any other
WRITE writes nothing, sets STATUS [0] and is a host-link fault of kind SERIAL_FRAME or SERIAL_CRC. A READ answers the words at its
addresses in rising order with their CRC, GL_ID at address 0 (R2); a misaligned one answers zeros and is a fault, and so is one, or a STATUS, of another clock
count. STATUS answers
its byte. An unknown instruction, a bad TLP and the link's loss while the device is awake are host-link faults; each fault asserts
source 37 (R514). In SLEEP, HIBERNATE and reset the port does nothing (R412, R417). -/
def Obligations.SerialAndLink : Prop :=
  (∀ (s : State) (addr : Word) (words : List Word) (crc : BitVec 16) (clocks : Nat), coreLive s = true →
    (addr.toNat % 4 = 0 → clocks = 22 + 8 * words.length → crc.toNat = crc16 (writeCovered addr words) →
      (serialTest s addr.toNat words.length = false → exec (.serialWrite addr words crc clocks) s = .next
        (serialPuts addr.toNat words { s with sq := { s.sq with serialBad := false } }))
      ∧ (serialTest s addr.toNat words.length = true → exec (.serialWrite addr words crc clocks) s = .refused .testBlock))
    ∧ (addr.toNat % 4 ≠ 0 ∨ clocks ≠ 22 + 8 * words.length ∨ crc.toNat ≠ crc16 (writeCovered addr words) →
      exec (.serialWrite addr words crc clocks) s = .next (hostFault
        (if addr.toNat % 4 ≠ 0 ∨ clocks ≠ 22 + 8 * words.length then HlKind.serialFrame else HlKind.serialCrc)
        { s with sq := { s.sq with serialBad := true } })
      ∧ ∃ t, exec (.serialWrite addr words crc clocks) s = .next t ∧ FaultSide s t ∧ bitOf64 t.vx.stat 37 = true
        ∧ t.sq.serialBad = true))
  ∧ (∀ (s : State) (addr w : Word) (crc : BitVec 16), regReach .serial 0x100 s = true → addr.toNat % 4 = 0 →
    0x2000000 ≤ addr.toNat → addr.toNat < 0x2000000 + s.sq.stgCells * 60 → crc.toNat = crc16 (writeCovered addr [w]) →
    exec (.serialWrite addr [w] crc 30) s = .next
      (stgWrite { s with sq := { s.sq with serialBad := false } } (addr.toNat - 0x2000000) (bytesOf w)))
  ∧ (∀ s : State, regReach .serial 0 s = true → exec (.serialRead 0#32 0 40) s = .next { s with
      outs := .serialWords [0x4B461664#32] (crc16 (readCovered 0#32 [0x4B461664#32])) :: s.outs })
  ∧ (∀ (s : State) (addr : Word) (n : Fin 64) (clocks : Nat) (x : State × List Word), coreLive s = true →
    (addr.toNat % 4 = 0 → serialTest s addr.toNat (n.val + 1) = false → x = serialGets addr.toNat (n.val + 1) s →
      (clocks = 32 + 8 * x.2.length → exec (.serialRead addr n clocks) s = .next { x.1 with
          outs := .serialWords x.2 (crc16 (readCovered addr x.2)) :: x.1.outs })
      ∧ (clocks ≠ 32 + 8 * x.2.length → ∃ t, exec (.serialRead addr n clocks) s = .next t ∧ FaultSide x.1 t
          ∧ bitOf64 t.vx.stat 37 = true))
    ∧ (addr.toNat % 4 ≠ 0 → ∃ t, exec (.serialRead addr n clocks) s = .next t ∧ FaultSide s t ∧ bitOf64 t.vx.stat 37 = true
        ∧ (40 + 8 * n.val ≤ clocks → Output.serialWords (List.replicate (n.val + 1) 0#32)
            (crc16 (readCovered addr (List.replicate (n.val + 1) 0#32))) ∈ t.outs)))
  ∧ (∀ (s : State) (clocks : Nat) (u : State), coreLive s = true → u = { s with
      outs := .serialStatus (b1 s.sq.serialBad + 2 * b1 (irqLow s) + 4 * phaseCode s.boot.phase) :: s.outs } →
    (clocks = 10 → exec (.serialStatus clocks) s = .next u)
    ∧ (clocks ≠ 10 → ∃ t, exec (.serialStatus clocks) s = .next t ∧ FaultSide u t ∧ bitOf64 t.vx.stat 37 = true))
  ∧ (∀ s : State, coreLive s = true → exec .serialUnknownInstruction s = .next (hostFault .serialFrame s)
      ∧ ∃ t, exec .serialUnknownInstruction s = .next t ∧ FaultSide s t ∧ bitOf64 t.vx.stat 37 = true)
  ∧ (∀ (s : State) (addr : Word) (words : List Word) (crc : BitVec 16) (n : Fin 64) (clocks : Nat) (c : Instr),
    coreLive s = false → c ∈ [.serialWrite addr words crc clocks, .serialRead addr n clocks, .serialStatus clocks,
      .serialUnknownInstruction] → exec c s = .next s)
  ∧ (∀ (s : State) (two fast : Bool), coreLive s = true → exec (.pcieLinkUp two fast) s = .next { s with
      sq := { s.sq with linkUp := true, linkWidth := if two then 2 else 1, linkSpeed := fast } })
  ∧ (∀ s : State, s.pw.awake = false ∨ s.sq.linkUp = false → exec .pcieLinkDown s = .next { s with
      sq := { s.sq with linkUp := false, linkWidth := 0, linkSpeed := false } })
  ∧ (∀ s : State, s.pw.awake = true → s.sq.linkUp = true →
      ∃ t, exec .pcieLinkDown s = .next t ∧ FaultSide s t ∧ bitOf64 t.vx.stat 37 = true ∧ t.sq.linkUp = false)
  ∧ (∀ (s : State) (p : Bool), coreLive s = true →
      ∃ t, exec (.pcieBadTlp p) s = .next t ∧ FaultSide s t ∧ bitOf64 t.vx.stat 37 = true)

/-- Staging (R493): a non-zero write while staging holds no cells takes the cells at the pool's end, when none of them is
owned and the limit of R173 holds; a write of the value that stands changes no cell; another non-zero write is refused and
sets stg_err; a write of 0 returns the cells. The model's choices in it: log entry 150. -/
def Obligations.Staging : Prop :=
  (∀ (s : State) (i : Iface) (v : Word), regReach i 0x1008 s = true → fld v 0 15 ≠ 0 →
    (s.sq.stgCells = 0 → fld v 0 15 ≤ 18432 → minSum s ≤ 65536 - fld v 0 15 →
      (∀ e ∈ s.pool.owner, e.1 < 65536 - fld v 0 15) →
      ∃ t, exec (.stagingSet i v) s = .next t ∧ t = { s with sq := t.sq, pool := t.pool, outs := t.outs }
        ∧ t.sq.stgCells = fld v 0 15)
    ∧ (fld v 0 15 = s.sq.stgCells →
      exec (.stagingSet i v) s = .next { s with sq := { s.sq with stgErr := s.sq.stgErr && !bitOf v 15 } })
    ∧ (fld v 0 15 ≠ s.sq.stgCells → (s.sq.stgCells ≠ 0 ∨ 18432 < fld v 0 15 ∨ 65536 - fld v 0 15 < minSum s
        ∨ ∃ e ∈ s.pool.owner, 65536 - fld v 0 15 ≤ e.1) →
      exec (.stagingSet i v) s = .next { s with sq := { s.sq with stgErr := true } }))
  ∧ (∀ (s : State) (i : Iface) (v : Word), regReach i 0x1008 s = true →
    ∃ t, exec (.stagingRelease i v) s = .next t ∧ t = { s with sq := t.sq, pool := t.pool, outs := t.outs } ∧ t.sq.stgCells = 0)

/-- GL_KEY (R531): the first code arms for its interface, the second code of that interface unlocks, 0 locks, any other write
takes the first code back, the two times end the arming and the unlocking; in the safe state every write is ignored. -/
def Obligations.KeyArmsAndUnlocks : Prop :=
  ∀ (s : State) (i : Iface) (v : Word), regReach i 0x10 s = true →
    (s.vx.safe = true → exec (.glKeyArm i) s = .next s ∧ exec (.glKeyUnlock i) s = .next s ∧ exec (.glKeyLock i) s = .next s
      ∧ exec (.glKeyOtherCode i v) s = .next s)
    ∧ (s.vx.safe = false → s.gl.unlocked = true ∨ s.gl.armed = false →
        exec (.glKeyArm i) s = .next { s with gl := { s.gl with armed := true, armSerial := isSerial i } })
    ∧ (s.vx.safe = false → s.gl.unlocked = false → s.gl.armed = true →
        exec (.glKeyArm i) s = .next { s with gl := { s.gl with armed := false } })
    ∧ (s.vx.safe = false → s.gl.armed = true → s.gl.armSerial = isSerial i →
        exec (.glKeyUnlock i) s = .next { s with gl := { s.gl with armed := false, unlocked := true, bySerial := isSerial i } })
    ∧ (s.vx.safe = false → s.gl.armed = false ∨ s.gl.armSerial ≠ isSerial i →
        exec (.glKeyUnlock i) s = .next { s with gl := { s.gl with armed := false } })
    ∧ (s.vx.safe = false → exec (.glKeyLock i) s = .next { s with gl := { s.gl with armed := false, unlocked := false } })
    ∧ (s.vx.safe = false → fld v 0 16 ∉ [0x5A5A, 0xA5A5, 0] →
        exec (.glKeyOtherCode i v) s = .next { s with gl := { s.gl with armed := false } })
    ∧ exec .keyArmTimeout s = .next { s with gl := { s.gl with armed := false } }
    ∧ (s.gl.relockUs ≠ 0 → exec .keyRelockTimeout s = .next { s with gl := { s.gl with unlocked := false, armed := false } })
    ∧ (s.gl.relockUs = 0 → exec .keyRelockTimeout s = .next s)

/-- Register access (R2, R5, R6, R9, R156, R532): a write without all byte enables changes nothing; guarded fields keep their
values while GL_KEY is locked and take the write while it is unlocked; RW registers take the write; a low word latches its
high word for the interface that reads it; GL_ID reads its value, over PCI Express at each of its four bytes; a misaligned serial read
or write is a host-link fault. With TESTMODE high the TS block refuses (R542). The model's choices in it: log entries 100 and 117. -/
def Obligations.RegisterAccess : Prop :=
  (∀ (s : State) (i : Iface) (off : Fin 1048576) (v : Word) (be : Fin 16), be.val ≠ 15 → testBlock s off.val = false →
    i = .pcie ∨ off.val % 4 = 0 → exec (.registerWrite i off v be) s = .next s)
  ∧ (∀ (s : State) (off : Fin 1048576) (v : Word) (be : Fin 16), testBlock s off.val = false → off.val % 4 ≠ 0 →
    coreLive s = true → ∃ t, exec (.registerWrite .serial off v be) s = .next t ∧ FaultSide s t
      ∧ bitOf64 t.vx.stat 37 = true ∧ t.sq.serialBad = true)
  ∧ (∀ (s : State) (i : Iface) (v : Word), regReach i 0x14 s = true →
    exec (.registerWrite i 0x14 v 15) s = .next (if s.gl.unlocked then { s with gl := { s.gl with relockUs := fld v 0 16 } } else s))
  ∧ (∀ (s : State) (i : Iface) (v : Word), regReach i 0x50 s = true →
    exec (.registerWrite i 0x50 v 15) s = .next
      (if s.gl.unlocked then { s with bdp := { s.bdp with cfg := maskMerge s.bdp.cfg v 0x1FF#32 } } else s))
  ∧ (∀ (s : State) (i : Iface) (v : Word), regReach i 0x4010 s = true →
    exec (.registerWrite i 0x4010 v 15) s = .next { s with tm := { s.tm with servo := v } })
  ∧ (∀ (s : State) (i : Iface) (v : Word), regReach i 0x84 s = true →
    exec (.registerWrite i 0x84 v 15) s = .next { s with gl := { s.gl with gpioOut := fld v 0 16 } })
  ∧ (∀ (s : State) (i : Iface), regReach i 0 s = true →
    exec (.lowWordRead i 0) s = .next { s with outs := .regRead i 0 0x4B461664#32 :: s.outs })
  ∧ (∀ (s : State) (i : Iface) (off : Fin 20971520) (d : DWord), off.val < 0x100000 → regReach i off.val s = true →
    testBlock s off.val = false → off.val % 4 = 0 → windowAt off.val = none → (0x28000 ≤ off.val → s.lat.elemErr = []) → pairAt s off.val = some d →
    exec (.lowWordRead i off) s = .next { s with
      gl := { s.gl with hiLatch := mset s.gl.hiLatch (latchKey i off.val) (hi32 d) }
      outs := .regRead i off.val (lo32 d) :: s.outs })
  ∧ (∀ (s : State) (i : Iface), regReach i 0x4004 s = true → exec (.lowWordRead i 0x4004) s = .next { s with
      outs := .regRead i 0x4004 (mget 0#32 s.gl.hiLatch (latchKey i 0x4000)) :: s.outs })
  ∧ (∀ (s : State) (k : Fin 20971520), k.val < 4 → regReach .pcie 0 s = true → exec (.lowWordRead .pcie k) s = .next { s with
      outs := .regRead .pcie k.val 0x4B461664#32 :: s.outs })
  ∧ (∀ (s : State) (off : Fin 20971520), off.val % 4 ≠ 0 → coreLive s = true →
    ∃ t, exec (.lowWordRead .serial off) s = .next t ∧ FaultSide s t ∧ bitOf64 t.vx.stat 37 = true)
  ∧ (∀ (s : State) (i : Iface) (off : Fin 1048576) (v : Word) (be : Fin 16), testBlock s off.val = true →
    exec (.registerWrite i off v be) s = .refused .testBlock)
  ∧ (∀ (s : State) (i : Iface) (off : Fin 20971520), testBlock s off.val = true → i = .pcie ∨ off.val % 4 = 0 →
    exec (.lowWordRead i off) s = .refused .testBlock)

/-- The pool window (R197): a write takes its enabled bytes while GL_KEY is unlocked; it is ignored while it is locked, and
for word 15 of a cell; a read answers the word. A write whose transfer is disturbed is discarded with source 22 (R35). The
model's choices in it: log entries 118 and 127. -/
def Obligations.PoolWindow : Prop :=
  (∀ (s : State) (addr : Nat) (be : Fin 16) (v : Word), addr < 4194304 → regReach .pcie 0x100 s = true →
    slotBad s .hostDma = none →
    (s.gl.unlocked = false ∨ addr / 4 % 16 = 15 → exec (.poolWindowWrite addr be v) s = .next s)
    ∧ (s.gl.unlocked = true → addr / 4 % 16 ≠ 15 → ∃ t, exec (.poolWindowWrite addr be v) s = .next t
        ∧ t = { s with pool := { s.pool with mem := t.pool.mem } }
        ∧ (∀ i, i < 4 → memGet t.pool.mem (addr / 4 * 4 + i) =
            if be.val.testBit i then byteOf v i else memGet s.pool.mem (addr / 4 * 4 + i))
        ∧ ∀ a, ¬ (addr / 4 * 4 ≤ a ∧ a < addr / 4 * 4 + 4) → memGet t.pool.mem a = memGet s.pool.mem a))
  ∧ (∀ (s : State) (addr : Nat) (be : Fin 16) (v : Word), addr < 4194304 → regReach .pcie 0x100 s = true →
    slotBad s .hostDma ≠ none → s.gl.unlocked = true → addr / 4 % 16 ≠ 15 →
    ∃ t, exec (.poolWindowWrite addr be v) s = .next t ∧ FaultSide s t ∧ bitOf64 t.vx.stat 22 = true)
  ∧ (∀ (s : State) (a : Fin 20971520), 0x1000000 ≤ a.val → regReach .pcie 0x100 s = true → slotBad s .hostDma = none →
    (a.val / 4 % 16 ≠ 15 ∨ s.pool.linkBad = []) → exec (.lowWordRead .pcie a) s = .next { s with
      outs := .regRead .pcie a.val (cellWord s ((a.val - 0x1000000) / 64) ((a.val - 0x1000000) / 4 % 16)) :: s.outs })
  ∧ (∀ (s : State) (addr : Nat) (be : Fin 16) (v : Word), 4194304 ≤ addr →
    exec (.poolWindowWrite addr be v) s = .fault .poolAddress)
/-! ## Vertex (chapter 14) -/

/-- R395, the safe state. Every ring command but NOP, IDENTIFY, READ_STATUS, CH_COUNTERS and VX_STATUS completes with E_FAULT (its result
words: SharedChecksRefuse), the sleep and hibernate requests among them; those five are checked as outside it. From every state in the safe state, no
command row but the two of the core power-on reset leads to a state outside it: no RESET_N, no soft reset, no power mode. A core
supply below its threshold ends it. -/
def Obligations.SafeStateEnds : Prop :=
  (∀ (s : State) (r : Fin 4) (ws : List Word) (fault : Bool) (a : Option Nat) (b : Nat)
      (f : (Fin 4 → Instr) × (List Word → Bool)), f ∈ ringForms fault a b →
    Waits s r.val ws → f.2 ws = true → s.vx.safe = true → pOpcode ws ∉ [0x00, 0x01, 0x04, 0x15, 0x70] →
    ∃ r0 r1, exec (f.1 r) s = .next (ended r.val eFault r0 r1 s))
  ∧ (∀ (s : State) (ws : List Word), pOpcode ws ∈ [0x00, 0x01, 0x04, 0x15, 0x70] →
    sharedCheck s ws = sharedCheck { s with vx := { s.vx with safe := false } } ws)
  ∧ (∀ (c : Instr) (s t : State), s.vx.safe = true → exec c s = .next t → t.vx.safe = false →
    (∃ rail, c = .corePorAsserted rail) ∨ ∃ straps bad, c = .corePor straps bad)
  ∧ (∀ (s : State) (rail : Fin 4), ∃ t, exec (.corePorAsserted rail) s = .next t ∧ t.vx.safe = false)

/-- A level source whose line goes active asserts (R381, R386, R393, R404): its status bit and its line are set, an injected
mark is removed, class 3 puts the device in the safe state; a line that is active already asserts nothing. Nothing outside the
reach of a reaction changes. The complement check reaches the safe state whatever the class map says (R402). -/
def Obligations.LevelSourcesAssert : Prop :=
  (∀ (s : State) (c : Instr) (src : Nat) (d : Word),
    (c = .pllLockLoss ∧ src = 25 ∧ d = 0#32 ∨ (∃ k : Fin 8, c = .clockMonitorFault k ∧ src = 26 ∧ d = w32 k.val)
      ∨ (∃ (k : Fin 3) (high : Bool), c = .supplyExcursion k high ∧ src = 27 + k.val ∧ d = if high then 2#32 else 1#32)
      ∨ c = .temperatureAlarm ∧ src = 30 ∧ d = 0#32) →
    (bitOf64 s.vx.level src = true → exec c s = .next s)
    ∧ (bitOf64 s.vx.level src = false → ∃ t, exec c s = .next t
        ∧ t.vx.stat = putBit64 s.vx.stat src true ∧ t.vx.inj = putBit64 s.vx.inj src false
        ∧ t.vx.level = putBit64 s.vx.level src true ∧ t.vx.classes = s.vx.classes
        ∧ t.vx.safe = (s.vx.safe || classOf s src d == 3) ∧ FaultSide s t))
  ∧ (∀ (s : State) (off : Fin 4096), ∃ t, exec (.complementMismatch off) s = .next t ∧ t.vx.cplErr = true ∧ t.vx.safe = true
    ∧ bitOf64 t.vx.level 62 = true ∧ (bitOf64 s.vx.level 62 = false → bitOf64 t.vx.stat 62 = true) ∧ FaultSide s t)

/-- The lines go inactive, the safe state completes, a tag window ends, ALIVE toggles only while it runs (R381, R394, R396,
R400): each changes that and nothing else; status bits stay. -/
def Obligations.VertexLines : Prop :=
  (∀ (s : State) (k : Fin 4), exec (.monitorDeassert k) s = .next { s with
      vx := { s.vx with level := putBit64 s.vx.level (27 + k.val) false } })
  ∧ (∀ s : State, exec .clockMonitorRecovered s = .next { s with vx := { s.vx with level := putBit64 s.vx.level 26 false } })
  ∧ (∀ s : State, s.vx.safe = true → exec .safeStateComplete s = .next { s with vx := { s.vx with safeDone := true } })
  ∧ (∀ (s : State) (w : Target × List Nat) (rest : List (Target × List Nat)), s.vx.windows = w :: rest →
      w.1 ≠ .device ∨ s.vx.safeDone = true → exec .tagWindowEnd s = .next { s with vx := { s.vx with windows := rest } })
  ∧ (∀ s : State, s.vx.safeDone = false → (∀ w ∈ s.vx.windows, w.1 = Target.device) → exec .tagWindowEnd s = .next s)
  ∧ (∀ s : State, s.vx.aliveRun = true → s.vx.safe = false → (bitOf s.vx.cfg 2 = false ∨ s.vx.held = []) → timeRuns s = true →
      exec .aliveToggle s = .next { s with vx := { s.vx with alivePin := !s.vx.alivePin } })
  ∧ (∀ s : State, s.vx.aliveRun = false ∨ s.vx.safe = true ∨ (bitOf s.vx.cfg 2 = true ∧ s.vx.held ≠ []) →
      exec .aliveToggle s = .next { s with vx := { s.vx with alivePin := false } })
  ∧ (∀ s : State, exec .aliveTimeout s = .next { s with vx := { s.vx with alivePin := false } })

/-- The first-fault latch (R387, R388, R397), seen with the temperature alarm: an empty latch takes source, class, detail and time of a
genuine fault; a latch with an earlier genuine record keeps it and sets overflow; of two assertions at one time-base value the graver stands
in it, where the time base counts, that is not before the end of B2 (log entry 141); a tagged assertion does none of this and is counted. -/
def Obligations.FirstFault : Prop :=
  ∀ s : State, bitOf64 s.vx.level 30 = false → classMapOf s.vx.classes 30 < 3 →
    (classMapOf s.vx.classes 30 ≠ 2 → tagged s 30 (classMapOf s.vx.classes 30) 0#32 = false → s.vx.fValid = false → ∃ t, exec .temperatureAlarm s = .next t
      ∧ t.vx.fValid = true ∧ t.vx.fSource = 30 ∧ t.vx.fClass = classOf s 30 0#32 ∧ t.vx.fInjected = false
      ∧ t.vx.fInfo = 0#32 ∧ t.vx.fTime = s.tm.now ∧ t.vx.fOverflow = s.vx.fOverflow ∧ t.vx.conseq = s.vx.conseq)
    ∧ (classMapOf s.vx.classes 30 ≠ 2 → tagged s 30 (classMapOf s.vx.classes 30) 0#32 = false → s.vx.fValid = true →
        s.vx.fInjected = false → (s.vx.fTime ≠ s.tm.now ∨ s.boot.phase = .b0 ∨ s.boot.phase = .b2) → ∃ t, exec .temperatureAlarm s = .next t
      ∧ t.vx.fSource = s.vx.fSource ∧ t.vx.fClass = s.vx.fClass ∧ t.vx.fInfo = s.vx.fInfo ∧ t.vx.fTime = s.vx.fTime
      ∧ t.vx.fValid = true ∧ t.vx.fOverflow = true)
    ∧ (classMapOf s.vx.classes 30 ≠ 2 → tagged s 30 (classMapOf s.vx.classes 30) 0#32 = false → s.vx.fValid = true →
        s.vx.fInjected = false → s.vx.fTime = s.tm.now → s.boot.phase ≠ .b0 → s.boot.phase ≠ .b2 →
        s.vx.fClass < classMapOf s.vx.classes 30 →
        ∃ t, exec .temperatureAlarm s = .next t
      ∧ t.vx.fSource = 30 ∧ t.vx.fClass = classOf s 30 0#32 ∧ t.vx.fInfo = 0#32 ∧ t.vx.fValid = true ∧ t.vx.fOverflow = true)
    ∧ (classMapOf s.vx.classes 30 ≠ 2 → tagged s 30 (classMapOf s.vx.classes 30) 0#32 = true →
        ∃ t, exec .temperatureAlarm s = .next t
      ∧ t.vx.conseq = satInc 0xFFFF s.vx.conseq ∧ t.vx.conseqLast = 30 ∧ t.vx.fValid = s.vx.fValid
      ∧ t.vx.fSource = s.vx.fSource ∧ t.vx.fOverflow = s.vx.fOverflow)

/-- The Vertex commands (R403, R410): VX_STATUS reports the status word; VX_CLASSES takes a class map that changes no fixed class,
gives class 2 only to sources with a target and changes no class of a set source, and reports the map in force where it refuses; VX_CLEAR
clears exactly the bits of its mask whose cause is gone, reports those of the mask that stay set, and with source 41 unlatches the
channels that had latched (R90). -/
def Obligations.VertexCommands : Prop :=
  (∀ (s : State) (r : Fin 4) (ws : List Word), Accepted s r.val ws → pOpcode ws = 0x70 →
    exec (.vxStatus r) s = .next (ended r.val stOk (lo32 s.vx.stat) (hi32 s.vx.stat) s))
  ∧ (∀ (s : State) (r : Fin 4) (ws : List Word) (m : List (Nat × Word)), Accepted s r.val ws → pOpcode ws = 0x73 →
    m = [(0, wd ws 2), (1, wd ws 3), (2, wd ws 4), (3, wd ws 5)] →
    (((∃ i, i < 64 ∧ (classFixed i = true ∧ classMapOf m i ≠ classMapOf Vx.classMap i
        ∨ classMapOf m i = 2 ∧ mayContain i = false)) → exec (.vxClasses r) s =
        .next (ended r.val eParam (mget 0 s.vx.classes 1) (mget 0 s.vx.classes 2) s)))
    ∧ ((∀ i, i < 64 → (classFixed i = true → classMapOf m i = classMapOf Vx.classMap i)
        ∧ (classMapOf m i = 2 → mayContain i = true)) →
      ((∃ i, i < 64 ∧ bitOf64 s.vx.stat i = true ∧ classMapOf m i ≠ classMapOf s.vx.classes i) →
        exec (.vxClasses r) s = .next (ended r.val eState (mget 0 s.vx.classes 1) (mget 0 s.vx.classes 2) s))
      ∧ ((∀ i, i < 64 → bitOf64 s.vx.stat i = true → classMapOf m i = classMapOf s.vx.classes i) →
        exec (.vxClasses r) s = .next (ended r.val stOk (wd ws 3) (wd ws 4) { s with vx := { s.vx with classes := m } }))))
  ∧ (∀ (s : State) (r : Fin 4) (ws : List Word), Accepted s r.val ws → pOpcode ws = 0x71 →
    (join64 (wd ws 2) (wd ws 3) = 0#64 → pFlags ws = 0 → exec (.vxClear r) s = .next (ended r.val eParam 0 0 s))
    ∧ (join64 (wd ws 2) (wd ws 3) ≠ 0#64 ∨ pFlags ws ≠ 0 → ∃ t, exec (.vxClear r) s = .next t ∧ FaultSide s t
        ∧ (∀ i, i < 64 → bitOf64 t.vx.stat i =
            (bitOf64 s.vx.stat i && !(bitOf64 (join64 (wd ws 2) (wd ws 3)) i && !bitOf64 s.vx.level i
              && (!bitOf64 s.vx.genuine3 i || bitOf64 s.vx.inj i))))
        ∧ t.vx.level = s.vx.level ∧ t.vx.safe = s.vx.safe
        ∧ (s.vx.held = [] → EndedIn t r.val (if join64 (wd ws 2) (wd ws 3) &&& t.vx.stat = 0#64 then stOk else eState)
            (lo32 (join64 (wd ws 2) (wd ws 3) &&& t.vx.stat)) (hi32 (join64 (wd ws 2) (wd ws 3) &&& t.vx.stat)))
        ∧ (bitOf64 (join64 (wd ws 2) (wd ws 3)) 41 = true → bitOf64 s.vx.stat 41 = true → bitOf64 t.vx.stat 41 = false →
            s.vx.held = [] → ∀ n, n < 16 → (s.chan n).ceil = true → (t.chan n).ceil = false ∧ (t.chan n).boffCnt = 0)))

/-- Proof tests (R405 to R407, R410): the test of a source waits for its detector; one that detects sets the status bit, reports its
latency, and no reaction follows; 100 µs without an assertion end it with E_CHECK; a failure reports VX_FIRST. The factory test of a reaction path is refused with
TESTMODE low and has the real reaction otherwise. The model's choices in it: log entries 97 and 98. -/
def Obligations.ProofTests : Prop :=
  (∀ (s : State) (r : Fin 4) (ws : List Word) (lat : Option Nat), Accepted s r.val ws → isProof false ws = true →
    (44 ≤ fld (wd ws 1) 0 6 ∨ instanceOk (fld (wd ws 1) 0 6) (fld (wd ws 1) 6 16) = false →
      exec (.vxProofTest r lat) s = .next (ended r.val eParam 0 (vxFirst s.vx) s))
    ∧ (fld (wd ws 1) 0 6 < 44 → instanceOk (fld (wd ws 1) 0 6) (fld (wd ws 1) 6 16) = true → s.vx.proof.isSome = true →
      exec (.vxProofTest r lat) s = .next (ended r.val eBusy 0 (vxFirst s.vx) s))
    ∧ (fld (wd ws 1) 0 6 < 44 → instanceOk (fld (wd ws 1) 0 6) (fld (wd ws 1) 6 16) = true → s.vx.proof = none →
      exec (.vxProofTest r none) s = .next { started r.val s with
        vx := { s.vx with proof := some { source := fld (wd ws 1) 0 6, inst := fld (wd ws 1) 6 16, ring := r.val, start := s.tm.now } } })
    ∧ (fld (wd ws 1) 0 6 < 44 → instanceOk (fld (wd ws 1) 0 6) (fld (wd ws 1) 6 16) = true → s.vx.proof = none → ∀ k,
      ∃ t, exec (.vxProofTest r (some k)) s = .next t ∧ bitOf64 t.vx.stat (fld (wd ws 1) 0 6) = true
        ∧ (bitOf64 s.vx.stat (fld (wd ws 1) 0 6) = false → bitOf64 t.vx.inj (fld (wd ws 1) 0 6) = true)
        ∧ t.vx.safe = s.vx.safe ∧ t.vx.held = s.vx.held ∧ t.vx.proof = none
        ∧ EndedIn t r.val stOk (packW [(0, 1, 1), (8, 8, Nat.min 255 k)]) (vxFirst t.vx)
        ∧ t = { s with sq := t.sq, vx := t.vx, outs := t.outs, pool := { s.pool with mem := t.pool.mem } }))
  ∧ (∀ (s : State) (p : ProofTest), s.vx.proof = some p → ∃ t, exec .proofTestTimeout s = .next t
    ∧ (inProgress s p.ring = true → EndedIn t p.ring eCheck 0 (vxFirst s.vx)) ∧ inProgress t p.ring = false
    ∧ t = { s with sq := t.sq, vx := { s.vx with proof := none }, outs := t.outs, pool := { s.pool with mem := t.pool.mem } })
  ∧ (∀ (s : State) (r : Fin 4) (ws : List Word) (lat : Nat), Accepted s r.val ws → isProof true ws = true →
    (fld (wd ws 2) 0 2 = 3 → exec (.vxFactoryTest r lat) s = .next (ended r.val eParam 0 (vxFirst s.vx) s))
    ∧ (fld (wd ws 2) 0 2 ≠ 3 → s.vx.testMode = false → exec (.vxFactoryTest r lat) s = .next (ended r.val eState 0 (vxFirst s.vx) s))
    ∧ (fld (wd ws 2) 0 2 ≠ 3 → s.vx.testMode = true → s.vx.proof.isSome = true →
        exec (.vxFactoryTest r lat) s = .next (ended r.val eBusy 0 (vxFirst s.vx) s))
    ∧ (fld (wd ws 2) 0 2 ≠ 3 → s.vx.testMode = true → s.vx.proof = none → ∃ t, exec (.vxFactoryTest r lat) s = .next t
        ∧ FaultSide s t ∧ (fld (wd ws 2) 0 2 ≠ 1 → t.vx.safe = true)
        ∧ (fld (wd ws 2) 0 2 = 1 → t.vx.aliveRun = false ∧ t.vx.alivePin = false ∧ t.vx.safe = s.vx.safe
            ∧ EndedIn t r.val stOk (packW [(0, 1, 1), (8, 8, Nat.min 255 lat)]) (vxFirst s.vx))))
/-! ## Channels (chapters 3 and 4) -/

/-- CH_CONFIGURE and CH_START (R54, R61, R75, R83, R92, R519): a wrong word 1 ends with E_PARAM, any state but STOPPED with
E_STATE, and so does a start while ceil_latched is 1; the image's RWC fields, from staging or as a DMA read brings them (R496), are taken unless it sets a reserved bit; a start
whose settings break a limit ends with that check's status, any other starts the channel INTEGRATING with TEC and REC 0. The
model's choices in it: log entries 32 and 49. -/
def Obligations.ChannelConfigureAndStart : Prop :=
  (∀ (s : State) (r : Fin 4) (ws : List Word) (n : Nat), Accepted s r.val ws → n = fld (wd ws 1) 0 4 → pOpcode ws = 0x10 →
    (fld (wd ws 1) 4 28 ≠ 0 ∨ addrOk s r.val (wd ws 2) (wd ws 3) 256 = false →
      exec (.chConfigure r) s = .next (ended r.val eParam 0 0 s))
    ∧ (fld (wd ws 1) 4 28 = 0 → addrOk s r.val (wd ws 2) (wd ws 3) 256 = true → (s.chan n).state ≠ .stopped →
      exec (.chConfigure r) s = .next (ended r.val eState 0 0 s))
    ∧ (fld (wd ws 1) 4 28 = 0 → (s.chan n).state = .stopped → (s.cr r.val).serial = false →
      exec (.chConfigure r) s = .next ((started r.val s).modCmd r.val fun d => { d with dma := true }))
    ∧ (fld (wd ws 1) 4 28 = 0 → addrOk s r.val (wd ws 2) (wd ws 3) 256 = true → (s.chan n).state = .stopped →
      (s.cr r.val).serial = true → ∀ img, img = stgRead s (wd ws 2).toNat 256 →
      ((∃ e ∈ chRegs, wordAt img e.1 &&& e.2.2 ≠ 0#32) → exec (.chConfigure r) s = .next (ended r.val eParam 0 0 s))
      ∧ ((∀ e ∈ chRegs, wordAt img e.1 &&& e.2.2 = 0#32) → ∃ u t, exec (.chConfigure r) s = .next t ∧ TxSide u t
          ∧ u = { s with mp := u.mp, chans := u.chans, sq := u.sq } ∧ (∀ m, m ≠ n → u.chan m = s.chan m)
          ∧ (u.chan n).state = .stopped ∧ EndedIn t r.val stOk (u.chan n).mode (u.chan n).nom
          ∧ ∀ e ∈ chRegs, chCfgWord (u.chan n) e.1 = maskMerge (chCfgWord (s.chan n) e.1) (wordAt img e.1) e.2.1)))
  ∧ (∀ (s : State) (r : Fin 4) (data : List Word) (n : Nat) (img : List Byte), dmaWaits s r.val = true → hostIdle s = true →
    slotBad s .hostDma = none → fld (pkt s r.val 0) 0 8 = 0x10 → n = fld (pkt s r.val 1) 0 4 → img = bytesOfWords data →
    ((s.chan n).state ≠ .stopped → exec (.dmaReadDone r (.good data)) s = .next (ended r.val eState 0 0 s))
    ∧ ((s.chan n).state = .stopped → (∃ e ∈ chRegs, wordAt img e.1 &&& e.2.2 ≠ 0#32) →
      exec (.dmaReadDone r (.good data)) s = .next (ended r.val eParam 0 0 s))
    ∧ ((s.chan n).state = .stopped → (∀ e ∈ chRegs, wordAt img e.1 &&& e.2.2 = 0#32) →
      ∃ u t, exec (.dmaReadDone r (.good data)) s = .next t ∧ TxSide u t
          ∧ u = { s with mp := u.mp, chans := u.chans, sq := u.sq } ∧ (∀ m, m ≠ n → u.chan m = s.chan m)
          ∧ (u.chan n).state = .stopped ∧ EndedIn t r.val stOk (u.chan n).mode (u.chan n).nom
          ∧ ∀ e ∈ chRegs, chCfgWord (u.chan n) e.1 = maskMerge (chCfgWord (s.chan n) e.1) (wordAt img e.1) e.2.1))
  ∧ (∀ (s : State) (r : Fin 4) (ws : List Word) (n : Nat), Accepted s r.val ws → n = fld (wd ws 1) 0 4 → pOpcode ws = 0x11 →
    (fld (wd ws 1) 4 28 ≠ 0 → exec (.chStart r) s = .next (ended r.val eParam 0 0 s))
    ∧ (fld (wd ws 1) 4 28 = 0 → (s.chan n).state ≠ .stopped ∨ (s.chan n).ceil = true →
      exec (.chStart r) s = .next (ended r.val eState 0 0 s))
    ∧ (fld (wd ws 1) 4 28 = 0 → (s.chan n).state = .stopped → (s.chan n).ceil = false → startStatus s n ≠ stOk →
      exec (.chStart r) s = .next (ended r.val (startStatus s n) 0 0 s))
    ∧ (fld (wd ws 1) 4 28 = 0 → (s.chan n).state = .stopped → (s.chan n).ceil = false → startStatus s n = stOk →
      ∃ t, exec (.chStart r) s = .next t ∧ EndedIn t r.val stOk (chStateWord t n) 0
        ∧ TxSide (s.modChan n fun c => { c with
            state := .integrating, tecCnt := 0, recCnt := 0, boff := .none, seqCnt := 0
            xlErrsig := bitOf c.mode 6 && bitOf c.mode 8 && !bitOf c.mode 9, xlFast := bitOf c.mode 6 && bitOf c.mode 9 }) t))

/-- CH_RECOVER (R92): OK with the sequence started in WAIT_HOST and BACKOFF, OK with nothing changed in RECOVERING, E_STATE in
LATCHED and outside BUS_OFF; CH_START with ceil_latched ends with E_STATE; and neither stopping nor starting a channel changes any
channel's ceil_latched. -/
def Obligations.ChannelRecover : Prop :=
  (∀ (s : State) (r : Fin 4) (ws : List Word) (n : Nat), Accepted s r.val ws → n = fld (wd ws 1) 0 4 → fld (wd ws 1) 4 28 = 0 →
    (pOpcode ws = 0x14 → (s.chan n).boff = .waitHost ∨ (s.chan n).boff = .backoff →
      exec (.chRecover r) s = .next (ended r.val stOk (boffStatWord { s.chan n with boff := .recovering, seqCnt := 0 }) 0
        (s.modChan n fun c => { c with boff := .recovering, seqCnt := 0 })))
    ∧ (pOpcode ws = 0x14 → (s.chan n).boff = .recovering →
      exec (.chRecover r) s = .next (ended r.val stOk (boffStatWord (s.chan n)) 0 s))
    ∧ (pOpcode ws = 0x14 → (s.chan n).boff = .latched ∨ (s.chan n).boff = .none →
      exec (.chRecover r) s = .next (ended r.val eState 0 0 s))
    ∧ (pOpcode ws = 0x11 → (s.chan n).ceil = true → exec (.chStart r) s = .next (ended r.val eState 0 0 s)))
  ∧ (∀ (s t : State) (r : Fin 4) (m : Nat), exec (.chStop r) s = .next t ∨ exec (.chStart r) s = .next t →
    (t.chan m).ceil = (s.chan m).ceil)

/-- A channel's timers and counts (R74, R87, R88, R89, R91, R97, R108): 11 recessive bits end the integration; a backoff ends
with the recovery sequence; its occurrences are counted up to 127 and the 128th ends bus-off with TEC and REC 0; the window of
bus-off entries closes with its count; a write to CH_DUP_STAT releases the sources it names. -/
def Obligations.ChannelTimers : Prop :=
  ∀ (s : State) (ch : Fin 16),
    ((s.chan ch.val).state = .integrating → samples s ch.val = true → (s.chan ch.val).settling = false →
      ∃ t, exec (.integrationDone ch) s = .next t ∧ TxSide (s.modChan ch.val fun c => { c with state := .active }) t)
    ∧ ((s.chan ch.val).state ≠ .integrating ∨ samples s ch.val = false → exec (.integrationDone ch) s = .next s)
    ∧ ((s.chan ch.val).boff = .backoff →
      exec (.backoffElapsed ch) s = .next (s.modChan ch.val fun c => { c with boff := .recovering, seqCnt := 0 }))
    ∧ ((s.chan ch.val).boff = .recovering → samples s ch.val = true → (s.chan ch.val).seqCnt < 127 →
      exec (.recoveryOccurrence ch) s = .next (s.modChan ch.val fun c => { c with seqCnt := c.seqCnt + 1 }))
    ∧ ((s.chan ch.val).boff = .recovering → samples s ch.val = true → (s.chan ch.val).seqCnt = 127 →
      ∃ t, exec (.recoveryDone ch) s = .next t
        ∧ TxSide (s.modChan ch.val fun c => { c with state := .active, boff := .none, seqCnt := 0, tecCnt := 0, recCnt := 0 }) t)
    ∧ ((s.chan ch.val).seqCnt ≠ 127 → exec (.recoveryDone ch) s = .next s)
    ∧ ((s.chan ch.val).window = true →
      exec (.boffWindowClose ch) s = .next (s.modChan ch.val fun c => { c with window := false, boffCnt := 0 }))
    ∧ (∀ (i : Iface) (v : Word), regReach i 0x10030 s = true → ∃ t, exec (.dupHoldRelease i ch v) s = .next t
        ∧ TxSide (s.modChan ch.val fun c => { c with
            dupStat := c.dupStat &&& ~~~v
            dupCnt := if bitOf c.dupStat c.dupSrc && bitOf v c.dupSrc then 0 else c.dupCnt }) t)

/-- CH_STOP and CH_COUNTERS (R74, R75, R102, R519, R520): in STOPPED and SAFE a stop changes nothing, in STOPPING it waits,
with a frame on the wire of an ACTIVE channel it makes it STOPPING, otherwise STOPPED at once; CH_COUNTERS writes the block
of 64 words. The model's choices in it: log entries 32 and 126. -/
def Obligations.ChannelStopAndCounters : Prop :=
  (∀ (s : State) (r : Fin 4) (ws : List Word) (n : Nat), Accepted s r.val ws → n = fld (wd ws 1) 0 4 → pOpcode ws = 0x12 →
    (fld (wd ws 1) 4 28 ≠ 0 → exec (.chStop r) s = .next (ended r.val eParam 0 0 s))
    ∧ (fld (wd ws 1) 4 28 = 0 → (s.chan n).state = .stopped ∨ (s.chan n).state = .safe →
      exec (.chStop r) s = .next (ended r.val stOk (stopResult s n 0).1 (stopResult s n 0).2 s))
    ∧ (fld (wd ws 1) 4 28 = 0 → (s.chan n).state = .stopping → exec (.chStop r) s = .next (started r.val s))
    ∧ (fld (wd ws 1) 4 28 = 0 → (s.chan n).state = .active → frameOnWire s n = true →
      ∃ t, exec (.chStop r) s = .next t ∧ TxSide (s.modChan n fun c => { c with state := .stopping }) t)
    ∧ (fld (wd ws 1) 4 28 = 0 → (s.chan n).state = .active → frameOnWire s n = false →
      ∃ t, exec (.chStop r) s = .next t ∧ TxSide (s.modChan n fun c => { c with state := .stopped }) t)
    ∧ (fld (wd ws 1) 4 28 = 0 → (s.chan n).state = .integrating ∨ (s.chan n).state = .busOff →
      ∃ t, exec (.chStop r) s = .next t
        ∧ TxSide (s.modChan n fun c => { c with state := .stopped, boff := .none, seqCnt := 0 }) t))
  ∧ (∀ (s : State) (r : Fin 4) (ws : List Word) (n : Nat), Accepted s r.val ws → n = fld (wd ws 1) 0 4 → pOpcode ws = 0x15 →
    (fld (wd ws 1) 4 28 ≠ 0 ∨ addrOk s r.val (wd ws 2) (wd ws 3) 256 = false →
      exec (.chCounters r) s = .next (ended r.val eParam 0 0 s))
    ∧ (fld (wd ws 1) 4 28 = 0 → (s.cr r.val).serial = false → exec (.chCounters r) s = .next
        (ended r.val stOk (errcWord (s.chan n)) (chStateWord s n) { s with
          outs := .hostWrite (baseOf (wd ws 2) (wd ws 3)) (bytesOfWords ((List.range 64).map fun k =>
            w32 (if k < 44 then mget 0 (s.chan n).cnt (4 * k) else 0))) :: s.outs }))
    ∧ (fld (wd ws 1) 4 28 = 0 → (s.cr r.val).serial = true → addrOk s r.val (wd ws 2) (wd ws 3) 256 = true →
      ∃ t, exec (.chCounters r) s = .next t ∧ EndedIn t r.val stOk (errcWord (s.chan n)) (chStateWord s n)
        ∧ t = { ended r.val stOk (errcWord (s.chan n)) (chStateWord s n) s with pool := { s.pool with mem := t.pool.mem } }))

/-- Transceivers (R105, R107 to R110): CH_SET_STATE is refused in R110's order, a request for the state in force only drives the
pins, a change between NORMAL and LISTEN is made at once with no frame on the wire and waits for its end otherwise, a change to STANDBY
or SLEEP cuts a frame on the wire and settles for settle_us, and one out of STANDBY or SLEEP settles too, unless the channel's group is committed to sleep: then the request
waits and latches LOCAL (R424, R431); TRX_CHANGE_APPLIED and TRX_SETTLED end those waits and with them the command. That reserved bits of word 1 are judged before
R110's order is the model's reading (DEDUCED, log entry 32). -/
def Obligations.Transceivers : Prop :=
  (∀ (s : State) (r : Fin 4) (ws : List Word) (n tr : Nat), Accepted s r.val ws → pOpcode ws = 0x13 →
    n = fld (wd ws 1) 0 4 → tr = fld (wd ws 2) 0 2 →
    (fld (wd ws 1) 4 28 ≠ 0 → exec (.chSetState r) s = .next (ended r.val eParam 0 0 s))
    ∧ (fld (wd ws 1) 4 28 = 0 → (s.chan n).forced = true → exec (.chSetState r) s = .next (ended r.val eState 0 0 s))
    ∧ (fld (wd ws 1) 4 28 = 0 → (s.chan n).forced = false → (s.chan n).settling = true →
      exec (.chSetState r) s = .next (ended r.val eBusy 0 0 s))
    ∧ (fld (wd ws 1) 4 28 = 0 → (s.chan n).forced = false → (s.chan n).settling = false → encBad (s.chan n).trxEnc tr = true →
      exec (.chSetState r) s = .next (ended r.val eParam 0 0 s))
    ∧ (fld (wd ws 1) 4 28 = 0 → (s.chan n).forced = false → (s.chan n).settling = false → encBad (s.chan n).trxEnc tr = false →
      (tr = (s.chan n).trx → exec (.chSetState r) s = .next
        (ended r.val stOk (chTrxWord { s.chan n with pinsDrv := true }) 0 (s.modChan n fun c => { c with pinsDrv := true })))
      ∧ (tr ≠ (s.chan n).trx → tr < 2 → (s.chan n).trx < 2 → frameOnWire s n = true → exec (.chSetState r) s = .next
          ((started r.val s).modChan n fun c => { c with trxTgt := tr, settling := true, pinsDrv := true, trxRing := some r.val }))
      ∧ (tr ≠ (s.chan n).trx → tr < 2 → (s.chan n).trx < 2 → frameOnWire s n = false → (s.chan n).trxRing = none →
          ∃ t, exec (.chSetState r) s = .next t ∧ TxSide (s.modChan n fun c => { c with
            trx := tr, trxTgt := tr, settling := false, pinsDrv := true, trxRing := none }) t ∧ inProgress t r.val = false)
      ∧ (2 ≤ tr → tr ≠ (s.chan n).trx → frameOnWire s n = false → (s.chan n).trxRing = none → (s.chan n).state ≠ .stopping →
          fld (s.chan n).trxTim 0 16 ≠ 0 → ∃ t, exec (.chSetState r) s = .next t ∧ TxSide (s.modChan n fun c => { c with
            trx := tr, trxTgt := tr, settling := true, pinsDrv := true, trxRing := some r.val, dataPh := false
            state := if c.state = .active then .integrating else c.state }) t)
      ∧ (2 ≤ tr → tr ≠ (s.chan n).trx → frameOnWire s n = true → (s.chan n).trxRing = none → (s.chan n).state = .active →
          fld (s.chan n).trxTim 0 16 ≠ 0 → ∃ t, exec (.chSetState r) s = .next t ∧ frameOnWire t n = false
            ∧ (t.chan n).trx = tr ∧ (t.chan n).trxTgt = tr ∧ (t.chan n).settling = true ∧ (t.chan n).state = .integrating
            ∧ (t.chan n).trxRing = some r.val)
      ∧ (tr < 2 → 2 ≤ (s.chan n).trx → groupCommitted s n = false → fld (s.chan n).trxTim 0 16 ≠ 0 →
          ∃ t, exec (.chSetState r) s = .next t ∧ (t.chan n).trx = tr ∧ (t.chan n).trxTgt = tr ∧ (t.chan n).settling = true
            ∧ (t.chan n).trxRing = some r.val ∧ (t.chan n).state = (s.chan n).state)
      ∧ (tr < 2 → 2 ≤ (s.chan n).trx → groupCommitted s n = true → ∃ t, exec (.chSetState r) s = .next t
            ∧ (t.chan n).trx = (s.chan n).trx ∧ t.pw.latch.testBit 18 = true
            ∧ t.pw.locals = s.pw.locals ++ [{ ch := n, trx := tr, source := 2, ring := some r.val }])))
  ∧ (∀ (s : State) (ch : Fin 16),
    ((s.chan ch.val).settling = true → (s.chan ch.val).trx = (s.chan ch.val).trxTgt → ∃ t, exec (.trxSettled ch) s = .next t
      ∧ TxSide (s.modChan ch.val fun c => { c with settling := false, trxRing := none }) t
      ∧ ∀ r, (s.chan ch.val).trxRing = some r → inProgress t r = false)
    ∧ ((s.chan ch.val).settling = true → (s.chan ch.val).trx < 2 → (s.chan ch.val).trxTgt < 2 →
      (s.chan ch.val).trx ≠ (s.chan ch.val).trxTgt → frameOnWire s ch.val = false → ∃ t, exec (.trxChangeApplied ch) s = .next t
      ∧ TxSide (s.modChan ch.val fun c => { c with trx := c.trxTgt, settling := false, pinsDrv := true, trxRing := none }) t
      ∧ ∀ r, (s.chan ch.val).trxRing = some r → inProgress t r = false))
/-! ## The transmit path and the receive path (chapters 3, 5, 6 and 7) -/

/-- Prime buffers (R206, R207, R222, R567): a write of arm checks the buffer and makes it a candidate, or sets arm_err; an
armed buffer ignores it. A candidate that R45, R219 or R220 forbids is removed as it becomes one, with its outcome. TX_PRIME loads and
arms a buffer with an item from host memory, at once over the serial port and when the data has arrived over PCI Express; an armed
buffer is E_BUSY, buffer 3 E_PARAM. The model's choices in it: log entry 54. -/
def Obligations.PrimeBuffers : Prop :=
  (∀ (s : State) (i : Iface) (ch : Fin 16) (b : Fin 3) (v : Word) (p : Prime), regReach i 0x10154 s = true →
    p = primeOf s ch.val b.val →
    (bitOf v 0 = false ∨ p.armed = true → exec (.primeArm i ch b v) s = .next s)
    ∧ (bitOf v 0 = true → p.armed = false → armRefused (primeItem p) = true →
      ∃ t, exec (.primeArm i ch b v) s = .next t ∧ TxSide s t ∧ primeOf t ch.val b.val = { p with armErr := true })
    ∧ (bitOf v 0 = true → p.armed = false → armRefused (primeItem p) = false →
      ∃ t, exec (.primeArm i ch b v) s = .next t ∧ primeOf t ch.val b.val = armedPrime s ch.val b.val p
        ∧ TxSide (s.modChan ch.val fun c => { c with dupCnt := if c.dupSrc = b.val then 0 else c.dupCnt }) t))
  ∧ (∀ (s : State) (r : Fin 4) (ws : List Word) (n b : Nat), Accepted s r.val ws → pOpcode ws = 0x42 →
    n = fld (wd ws 1) 0 4 → b = fld (wd ws 1) 4 2 →
    (b = 3 → exec (.txPrime r) s = .next (ended r.val eParam 0 0 s))
    ∧ (b ≠ 3 → (primeOf s n b).armed = true → exec (.txPrime r) s = .next (ended r.val eBusy 0 0 s))
    ∧ (b ≠ 3 → (primeOf s n b).armed = false → (s.cr r.val).serial = false →
      exec (.txPrime r) s = .next ((started r.val s).modCmd r.val fun d => { d with dma := true }))
    ∧ (b ≠ 3 → (primeOf s n b).armed = false → (s.cr r.val).serial = true → stgOk s (wd ws 2) (wd ws 3) 32 = true →
      ∀ m it, m = 32 + itemBytes (wordsOf (stgRead s (wd ws 2).toNat 32) 8) → stgOk s (wd ws 2) (wd ws 3) m = true →
      it = primeWords (stgRead s (wd ws 2).toNat m) (wd ws 4 &&& 0xFFFF0007#32) →
      (armRefused it = true → exec (.txPrime r) s = .next (ended r.val eParam 0 0 s))
      ∧ (armRefused it = false → ∃ t, exec (.txPrime r) s = .next t ∧ EndedIn t r.val stOk (txpStat t n b) 0
        ∧ primeOf t n b = armedPrime s n b (loadedPrime (primeOf s n b) it)
        ∧ TxSide (s.modChan n fun c => { c with dupCnt := if c.dupSrc = b then 0 else c.dupCnt }) t)))
  ∧ (∀ (s : State) (r : Fin 4) (data : List Word) (n b : Nat) (it : TxItem), dmaWaits s r.val = true → hostIdle s = true →
    slotBad s .hostDma = none → fld (pkt s r.val 0) 0 8 = 0x42 → n = fld (pkt s r.val 1) 0 4 → b = fld (pkt s r.val 1) 4 2 →
    it = primeWords (bytesOfWords data) (pkt s r.val 4 &&& 0xFFFF0007#32) →
    ((primeOf s n b).armed = true → exec (.dmaReadDone r (.good data)) s = .next (ended r.val eBusy 0 0 s))
    ∧ ((primeOf s n b).armed = false → armRefused it = true →
      exec (.dmaReadDone r (.good data)) s = .next (ended r.val eParam 0 0 s))
    ∧ (b ≠ 3 → (primeOf s n b).armed = false → armRefused it = false →
      ∃ t, exec (.dmaReadDone r (.good data)) s = .next t ∧ EndedIn t r.val stOk (txpStat t n b) 0
        ∧ primeOf t n b = armedPrime s n b (loadedPrime (primeOf s n b) it)
        ∧ TxSide (s.modChan n fun c => { c with dupCnt := if c.dupSrc = b then 0 else c.dupCnt }) t))

/-- Host submissions (R33, R177, R190, R222, R480): the queue is checked first; the item is read, checked, and waits with its
descriptor's valid bit set; under LEGACY stamp_claim in it is refused before anything else. HOST_ITEM_COMMIT, when it is the
submission's turn, takes the cells it needs and commits the item to its queue, or returns its cells when a flush has marked it; a
refused cell leaves it waiting, and BP_TIMEOUT ends one that has been refused and returns its cells. The model's choices in it: log
entries 53, 67, 127 and 155. -/
def Obligations.HostSubmissions : Prop :=
  (∀ (s : State) (r : Fin 4) (ws : List Word) (q : Nat), Accepted s r.val ws → pOpcode ws = 0x40 → s.boot.profile = false →
    q = fld (wd ws 1) 0 8 →
    ((s.queue q).state = .none → exec (.txSubmit r) s = .next (ended r.val eNotFound 0 0 s))
    ∧ ((s.queue q).state ≠ .none → (s.queue q).consumer ≠ 5 ∨ (s.queue q).state = .broken →
      exec (.txSubmit r) s = .next (ended r.val eState 0 0 s))
    ∧ (submitQueue s q = 0 → (s.cr r.val).serial = false →
      exec (.txSubmit r) s = .next ((started r.val s).modCmd r.val fun d => { d with dma := true }))
    ∧ (submitQueue s q = 0 → (s.cr r.val).serial = true → stgOk s (wd ws 2) (wd ws 3) 32 = false →
      exec (.txSubmit r) s = .next (ended r.val eParam 0 0 s))
    ∧ (submitQueue s q = 0 → (s.cr r.val).serial = true → stgOk s (wd ws 2) (wd ws 3) 32 = true →
      ∀ w m, w = wordsOf (stgRead s (wd ws 2).toNat m) 8 → m = 32 + itemBytes (wordsOf (stgRead s (wd ws 2).toNat 32) 8) →
      stgOk s (wd ws 2) (wd ws 3) m = true → dFormat (wd w 0) ≤ 3 → lengthBad (wd w 0) (wd w 1) (wd w 2) = false →
      (itStamp { words := w, data := [] } = true → dFormat (wd w 0) = 2) →
      exec (.txSubmit r) s = .next ((started r.val s).modCmd r.val fun d => { d with
        dma := false
        sub := some { queue := q, cls := dClass (wd w 0), words := w.set 0 (putFld (wd w 0) 31 1 1)
                      data := ((stgRead s (wd ws 2).toNat m).drop 32).take (itemBytes w), cells := [], waited := false
                      marked := false, arr := s.pool.nextSeq } })))
  ∧ (∀ (s : State) (r : Fin 4) (ws : List Word) (w : List Word), Accepted s r.val ws → pOpcode ws = 0x40 →
    s.boot.profile = true → (s.cr r.val).serial = true → itemOk s r.val (wd ws 2) (wd ws 3) = true →
    w = wordsOf (stgRead s (wd ws 2).toNat (stgItem s (wd ws 2))) 8 → itStamp { words := w, data := [] } = true →
    exec (.txSubmit r) s = .next (ended r.val eProfile 0 0x0B#32 s))
  ∧ (∀ (s : State) (r : Fin 4) (data : List Word) (q : Nat) (w : List Word), dmaWaits s r.val = true → hostIdle s = true →
    slotBad s .hostDma = none → fld (pkt s r.val 0) 0 8 = 0x40 → q = fld (pkt s r.val 1) 0 8 → w = wordsOf (bytesOfWords data) 8 →
    (s.boot.profile = true → itStamp { words := w, data := [] } = true →
      exec (.dmaReadDone r (.good data)) s = .next (ended r.val eProfile 0 0x0B#32 s))
    ∧ (s.boot.profile = false → submitQueue s q ≠ 0 →
      exec (.dmaReadDone r (.good data)) s = .next (ended r.val (submitQueue s q) 0 0 s))
    ∧ (s.boot.profile = false → submitQueue s q = 0 → (3 < dFormat (wd w 0) ∨ lengthBad (wd w 0) (wd w 1) (wd w 2) = true
        ∨ (itStamp { words := w, data := [] } = true ∧ dFormat (wd w 0) ≠ 2)) →
      exec (.dmaReadDone r (.good data)) s = .next (ended r.val eParam 0 0 s))
    ∧ (s.boot.profile = false → submitQueue s q = 0 → dFormat (wd w 0) ≤ 3 → lengthBad (wd w 0) (wd w 1) (wd w 2) = false →
      (itStamp { words := w, data := [] } = true → dFormat (wd w 0) = 2) →
      exec (.dmaReadDone r (.good data)) s = .next (s.modCmd r.val fun d => { d with
        dma := false
        sub := some { queue := q, cls := dClass (wd w 0), words := w.set 0 (putFld (wd w 0) 31 1 1)
                      data := ((bytesOfWords data).drop 32).take (itemBytes w), cells := [], waited := false
                      marked := false, arr := s.pool.nextSeq } })))
  ∧ (∀ (s : State) (r : Fin 4) (pick : Fin 65536) (c : Cmd) (b : Submission), (s.cr r.val).cmd = some c → c.sub = some b →
    c.comp = none → c.begun = true → s.pw.mode = .run → hostFirst s (subKey c b) = true → slotBad s .hostDma = none →
    (∀ f, (s.queue b.queue).flush = some f → f.ring ≠ r.val) →
    (cellsFor b.data.length ≤ b.cells.length → ∃ t, exec (.hostItemCommit r pick) s = .next t ∧ TxSide s t
        ∧ EndedIn t r.val (if b.marked then eState else 0) (w32 b.cells.length) (w32 (b1 b.marked))
        ∧ (b.marked = true → t.pool.owner = s.pool.owner.filter (fun e => !b.cells.contains e.1)
            ∧ (t.queue b.queue).items = (s.queue b.queue).items
            ∧ (t.queue b.queue).itemsDisc = wrapInc (s.queue b.queue).itemsDisc)
        ∧ (b.marked = false → (s.queue b.queue).state ≠ .broken → (s.queue b.queue).notify = false →
            ((s.queue b.queue).consumer = 5 → ∀ src i, candOf s (s.queue b.queue).txCh src = some i ∨ i = readItem s b.cells →
              judge s (s.queue b.queue).txCh i = none) →
            t.pool.owner = s.pool.owner ∧ (t.queue b.queue).items
              = (s.queue b.queue).items ++ [{ cls := b.cls, cells := b.cells, seq := s.pool.nextSeq }]))
    ∧ (b.cells = [] → cellsFor b.data.length = 1 → allocOk s b.queue true = true → ∃ t,
        exec (.hostItemCommit r pick) s = .next t ∧ TxSide s t
        ∧ EndedIn t r.val (if b.marked then eState else 0) 1 (w32 (b1 b.marked))
        ∧ (b.marked = false → (s.queue b.queue).state ≠ .broken → (s.queue b.queue).consumer ≠ 5 → (t.queue b.queue).items
              = (s.queue b.queue).items ++ [{ cls := b.cls, cells := [freeCell s pick.val], seq := s.pool.nextSeq }]))
    ∧ (b.cells.length < cellsFor b.data.length → allocOk s b.queue b.cells.isEmpty = false → ∃ t,
        exec (.hostItemCommit r pick) s = .next t ∧ TxSide s t ∧ (t.queue b.queue).full = true
        ∧ (t.queue b.queue).items = (s.queue b.queue).items
        ∧ (t.cr r.val).cmd.bind (·.sub) = some { b with waited := true, arr := s.pool.nextSeq + 1 }))
  ∧ (∀ (s : State) (r : Fin 4) (c : Cmd) (b : Submission), (s.cr r.val).cmd = some c → c.sub = some b → c.comp = none →
    c.begun = true → b.waited = true → s.pool.bpTmo ≠ 0 → (∀ f, (s.queue b.queue).flush = some f → f.ring ≠ r.val) → ∃ t, exec (.bpTimeout r) s = .next t ∧ TxSide s t ∧ EndedIn t r.val eTimeout 0 0
      ∧ t.pool.owner = s.pool.owner.filter (fun e => !b.cells.contains e.1))

/-- TX_CANCEL and the picker (R97, R209, R211, R212, R214, R216, R217): no candidate or another tag is E_NOTFOUND; a candidate that is
not latched is removed, its buffer disarmed with the outcome or its cells returned; a latched one is marked for its deadline.
TX_HEAD_FETCH loads the picker's winning head; a mismatch in its transfer asserts source 22 and is recorded. An attempt latches the
loaded prime buffer, stamped as R219 says; one that is sent puts its frame on the bus and ends its source's item, one that has lost the
arbitration leaves the latch, and its frame is its source's candidate still; a channel that may not send latches nothing. The model's
choice in it, the order of returned cells: log entry 127. -/
def Obligations.CancelAndPicker : Prop :=
  (∀ (s : State) (r : Fin 4) (ws : List Word) (n src : Nat), Accepted s r.val ws → pOpcode ws = 0x41 →
    n = fld (wd ws 1) 0 4 → src = fld (wd ws 1) 4 5 →
    (18 < src → exec (.txCancel r) s = .next (ended r.val eParam 0 0 s))
    ∧ (src ≤ 18 → candOf s n src = none → exec (.txCancel r) s = .next (ended r.val eNotFound 0 0 s))
    ∧ (∀ i, src ≤ 18 → candOf s n src = some i → bitOf (wd ws 2) 16 = false → itTag i ≠ fld (wd ws 2) 0 16 →
        exec (.txCancel r) s = .next (ended r.val eNotFound 0 0 s))
    ∧ (∀ i l, src ≤ 18 → candOf s n src = some i → bitOf (wd ws 2) 16 = true ∨ itTag i = fld (wd ws 2) 0 16 →
        (s.chan n).latch = some l → l.source = src → l.cancel = .none →
        exec (.txCancel r) s = .next ((started r.val s).modChan n fun c => { c with
          latch := some { l with cancel := if l.deadline then .late else .early, rings := l.rings ++ [r.val] } }))
    ∧ (∀ i, src ≤ 18 → candOf s n src = some i → bitOf (wd ws 2) 16 = true ∨ itTag i = fld (wd ws 2) 0 16 →
        (∀ l, (s.chan n).latch = some l → l.source ≠ src) → ∃ t, exec (.txCancel r) s = .next t
          ∧ EndedIn t r.val stOk (packW [(0, 3, 2), (16, 16, itTag i)]) 0
          ∧ TxSide (s.modChan n fun c => { c with dupStat := c.dupStat &&& ~~~(w32 (2 ^ src)) }) t
          ∧ (src < 3 → primeOf t n src
              = { primeOf s n src with armed := false, outcome := 2, done := true, lastTag := itTag i })
          ∧ (∀ e, 3 ≤ src → (s.chan n).taken.find? (fun e => e.1 == src - 3) = some e →
              (∀ d ∈ (t.chan n).taken, d.1 ≠ src - 3) ∧ ∀ c ∈ e.2.cells,
                if (s.chan n).commits = [] ∧ slotBad s (.channel n) = none then ∀ d ∈ t.pool.owner, d.1 ≠ c
                else c ∈ (t.chan n).rets)
          ∧ (∀ q h, 3 ≤ src → (s.chan n).taken.find? (fun e => e.1 == src - 3) = none → attached s n (src - 3) = some q →
              headItem s q = some h → (∀ j ∈ (t.queue q).items, itemId j ≠ itemId h) ∧ ∀ c ∈ h.cells,
                if (s.chan n).commits = [] ∧ slotBad s (.channel n) = none then ∀ d ∈ t.pool.owner, d.1 ≠ c
                else c ∈ (t.chan n).rets)))
  ∧ (∀ (s : State) (ch : Fin 16) (w : Nat), maySend s ch.val = true → s.pw.mode = .run → winner s ch.val = some w →
    (w < 3 ∨ isLoaded s ch.val w = true → exec (.txHeadFetch ch .none) s = .next s)
    ∧ (3 ≤ w → isLoaded s ch.val w = false → ¬ s.pool.linkBad.contains (candCell s ch.val w) →
        exec (.txHeadFetch ch .none) s = .next (s.modChan ch.val fun c => { c with
          loaded := some w, loadedCell := candCell s ch.val w })))
  ∧ (∀ (s : State) (ch : Fin 16) (second : Bool), s.pw.mode = .run → ∃ t,
    exec (.txHeadFetch ch (.transfer second)) s = .next t ∧ FaultSide s t ∧ bitOf64 t.vx.stat 22 = true
    ∧ (s.gl.perrSeen = false → t.gl.perrSlot = chanSlot ch.val second ∧ t.gl.perrLane = false))
  ∧ (∀ (s : State) (ch : Fin 16) (waited src : Nat), maySend s ch.val = true → s.pw.mode = .run → (s.chan ch.val).rets = [] →
    (s.chan ch.val).latch = none → isLoaded s ch.val src = true → src < 3 → (primeOf s ch.val src).armed = true →
    ∃ t l, exec (.txAttempt ch waited (.latch (s.chan ch.val).rx.isSome)) s = .next t ∧ (t.chan ch.val).latch = some l
      ∧ l.source = src ∧ l.item = primeItem (primeOf s ch.val src) ∧ l.deadline = false ∧ l.cancel = .none
      ∧ l.af = (if itStamp l.item then packW [(16, 16, s.dx.claim), (4, 12, devAddr s / 2 * 2)] else wd l.item.words 3))
  ∧ (∀ (s : State) (ch : Fin 16) (waited : Nat) (edges : List Int) (l : Latched), (s.chan ch.val).latch = some l →
    l.aborting = false → s.boot.commit = none → (s.chan ch.val).rets = [] →
    (l.deadline = true → l.ctGone = false → l.ctFrom = none → l.mistimed = false → opMode s ch.val ≠ 3 →
      opMode s ch.val ≠ 4 → ∃ t, exec (.txAttempt ch waited (.ended .sent edges)) s = .next t ∧ (t.chan ch.val).latch = none
        ∧ .busFrame ch.val (wireFrame s ch.val l.item l.af (if l.sent.isEmpty then l.item.data else l.sent)) ∈ t.outs
        ∧ (l.source < 3 → primeOf t ch.val l.source
            = { primeOf s ch.val l.source with armed := false, outcome := 1, done := true, lastTag := itTag l.item })
        ∧ (3 ≤ l.source → (∃ e ∈ (s.chan ch.val).taken, e.1 = l.source - 3) →
            ∀ d ∈ (t.chan ch.val).taken, d.1 ≠ l.source - 3))
    ∧ (l.deadline = false → l.cancel = .none → itSingle l.item = false → l.retry = true → l.source < 3 →
      candOf s ch.val l.source = some l.item → judge s ch.val l.item = none → l.ctGone = false →
      ∃ t, exec (.txAttempt ch waited (.ended .lost edges)) s = .next t ∧ (t.chan ch.val).latch = none
        ∧ candOf t ch.val l.source = some l.item))
  ∧ (∀ (s : State) (ch : Fin 16) (waited : Nat) (p : AttemptPart), (s.chan ch.val).latch = none → maySend s ch.val = false →
    ∃ t, exec (.txAttempt ch waited p) s = .next t ∧ (t.chan ch.val).latch = none)

/-- A received frame (R50, R80, R99, R118, R127, R254): its SOF latches the stamp, the active half, the channel default and the BDP
base; a channel that does not take part receives nothing. Its header settles the verdict: the destinations, gates and owned match that
the walk of the latched half gives; at frame valid REC falls by 1, the verdict is counted, and the frame goes to its commit, to one of
the two staging slots, or is dropped for want of one; an error ends it and raises REC. STAGED_CELL_WRITE writes the frame's next cell,
or sets full where the allocation is refused; without a frame it has no effect; a mismatch in its transfer asserts source 22. RX_COMMIT
links the copy of the oldest complete frame to its queue, and does nothing without one. The model's choices in it: log entries 64 and
70. -/
def Obligations.ReceivedFrames : Prop :=
  (∀ (s : State) (ch : Fin 16) (waited : Nat), (s.chan ch.val).rx = none → (s.chan ch.val).state = .active →
    samples s ch.val = true → rxMode s ch.val ≠ 3 → ownsWire (s.chan ch.val) = false → (s.chan ch.val).rets = [] →
    ∃ t x, exec (.rxFrame ch waited .sof) s = .next t
      ∧ (t.chan ch.val).rx = some x ∧ x.stamp = sofStamp (passCycles waited s) ch.val ∧ x.half = activeHalf s ch.val
      ∧ x.chDef = mget 0#32 s.lat.chDef ch.val ∧ x.base = (if reduced s ch.val then 0x10 else bdpBase s) ∧ x.frame = none
      ∧ x.chains = [] ∧ x.gates = [] ∧ x.own = false ∧ (∀ m, m ≠ ch.val → t.chan m = s.chan m))
  ∧ (∀ (s : State) (ch : Fin 16) (waited : Nat) (p : RxPart), (s.chan ch.val).rx = none →
    (s.chan ch.val).state = .stopped ∨ samples s ch.val = false →
    ∃ t, exec (.rxFrame ch waited p) s = .next t ∧ (t.chan ch.val).rx = none)
  ∧ (∀ (s : State) (ch : Fin 16) (waited : Nat) (x : RxFrame) (f : Frame) (w : Walk) (r : Resolution),
    (s.chan ch.val).rx = some x → (s.chan ch.val).rets = [] → x.frame = none → formatTaken s ch.val f = true →
    reduced s ch.val = false → ccDiscarded s ch.val f = false → ¬ (isBdp x.base f = true ∧ bdpSender f.ident.toNat = devAddr s) →
    s.lat.elemErr = [] → s.lat.gateErr = [] → w = walk s x.half ch.val f.ide (identOf f) f.rtr →
    r = (resolve w x.half ch.val x.chDef f (busFormat f) s).2 →
    (∀ d ∈ r.dests, ∀ c, d.1 = .bind c → (s.ctx c).bad = []) →
    ∃ t y, exec (.rxFrame ch waited (.header f [])) s = .next t ∧ (t.chan ch.val).rx = some y ∧ y.frame = some f
      ∧ y.verdict = r.ended ∧ y.gates = r.gates ∧ y.owned = w.owned
      ∧ (∀ d ∈ r.dests, ∀ q cls, d.1 = .queue q cls → queueExists s q = true → newChain d.1 d.2 q cls ∈ y.chains)
      ∧ (∀ d ∈ r.dests, ∀ c, d.1 = .bind c → (s.ctx c).state ≠ .unconfigured → (c, (s.ctx c).word 0) ∈ y.binds)
      ∧ (r.dests = [] → y.chains = [] ∧ y.binds = []))
  ∧ (∀ (s : State) (ch : Fin 16) (waited : Nat) (x : RxFrame) (f : Frame) (edges : List Edge), (s.chan ch.val).rx = some x →
    x.frame = some f → formatTaken s ch.val f = true → reduced s ch.val = false → ccDiscarded s ch.val f = false →
    x.own = false → s.boot.commit = none →
    ∃ t, exec (.rxFrame ch waited (.finish .valid edges)) s = .next t ∧ (t.chan ch.val).rx = none
      ∧ (x.verdict = .nomatch → mget 0 (t.chan ch.val).cnt 0x20 = Nat.min 0xFFFFFFFF (mget 0 (s.chan ch.val).cnt 0x20 + 1))
      ∧ (x.verdict = .dropped ∨ x.verdict = .uncorrectable →
          mget 0 (t.chan ch.val).cnt 0x24 = Nat.min 0xFFFFFFFF (mget 0 (s.chan ch.val).cnt 0x24 + 1))
      ∧ (countsLive s ch.val = true → (s.chan ch.val).recCnt ≤ 127 → (s.chan ch.val).tecCnt ≤ 255 →
          (t.chan ch.val).recCnt = (s.chan ch.val).recCnt - 1 ∧ (t.chan ch.val).tecCnt = (s.chan ch.val).tecCnt)
      ∧ (x.crcDone = true → x.check = none → x.gates = [] → x.owned = false → isBdp x.base f = false →
          (x.chains = [] → x.binds = [] → (t.chan ch.val).commits = (s.chan ch.val).commits
              ∧ (t.chan ch.val).staged = (s.chan ch.val).staged)
          ∧ (x.chains ≠ [] ∨ x.binds ≠ [] → rxWritten x = true → (t.chan ch.val).staged = (s.chan ch.val).staged
              ∧ (t.chan ch.val).commits = (s.chan ch.val).commits ++ [{ x with valid := true }])
          ∧ (rxWritten x = false → (s.chan ch.val).staged.length < 2 → (t.chan ch.val).commits = (s.chan ch.val).commits
              ∧ (t.chan ch.val).staged = (s.chan ch.val).staged ++ [{ x with valid := true }])
          ∧ (rxWritten x = false → 2 ≤ (s.chan ch.val).staged.length → (t.chan ch.val).commits = (s.chan ch.val).commits
              ∧ (t.chan ch.val).staged = (s.chan ch.val).staged
              ∧ mget 0 (t.chan ch.val).cnt 0x14 = Nat.min 0xFFFFFFFF (mget 0 (s.chan ch.val).cnt 0x14 + 1))))
  ∧ (∀ (s : State) (ch : Fin 16) (x : RxFrame) (rest : List RxFrame) (c : Chain), (s.chan ch.val).commits = x :: rest →
    s.pw.mode = .run → (s.chan ch.val).rets = [] → x.chains = [c] → x.binds = [] → c.marked = false → isCut c = false → (s.queue c.queue).consumer ≠ 5 →
    (s.queue c.queue).state ≠ .broken → ∃ t, exec (.rxCommit ch .none) s = .next t
      ∧ (t.queue c.queue).items = (s.queue c.queue).items ++ [{ cls := c.cls, cells := c.cells, seq := s.pool.nextSeq }]
      ∧ t.chans = mset s.chans ch.val { s.chan ch.val with commits := rest })
  ∧ (∀ (s : State) (ch : Fin 16) (waited : Nat) (x : RxFrame) (e : ErrInfo) (edges : List Edge), (s.chan ch.val).rx = some x →
    ∃ t, exec (.rxFrame ch waited (.finish (.error e) edges)) s = .next t ∧ (t.chan ch.val).rx = none
      ∧ (countsLive s ch.val = true → (s.chan ch.val).tecCnt ≤ 255 → (∀ f, x.frame = some f → errSilent s ch.val f.fmt = false) →
          s.boot.commit = none → (t.chan ch.val).tecCnt = (s.chan ch.val).tecCnt
          ∧ (t.chan ch.val).recCnt = Nat.min 255 ((s.chan ch.val).recCnt
            + (1 + 8 * (b1 e.dominantAfterFlag + e.flagBitErrors + e.dominantRuns)))))
  ∧ (∀ (s : State) (ch : Fin 16) (pick : Fin 65536) (x : RxFrame) (i k : Nat) (c : Chain), s.pw.mode = .run →
    headAwaits s ch.val = none → (s.chan ch.val).staged = [] → (s.chan ch.val).rx = some x → x.frame ≠ none → x.ctSeq = none →
    nextWrite x (rxTotal x) 0 x.chains = some (i, k) → k ≠ rxTotal x → x.chains[i]? = some c →
    (allocOk s c.queue (k == 0) = true → ∃ t y d, exec (.stagedCellWrite ch pick .none) s = .next t
      ∧ (t.chan ch.val).rx = some y ∧ y.chains[i]? = some d ∧ d.cells = c.cells ++ [freeCell s pick.val])
    ∧ (allocOk s c.queue (k == 0) = false → ∃ t, exec (.stagedCellWrite ch pick .none) s = .next t
      ∧ (t.chan ch.val).rx = some x ∧ (t.queue c.queue).full = true))
  ∧ (∀ (s : State) (ch : Fin 16) (fault : SlotFault), (s.chan ch.val).commits = [] → exec (.rxCommit ch fault) s = .next s)
  ∧ (∀ (s : State) (ch : Fin 16) (pick : Fin 65536) (fault : SlotFault), (s.chan ch.val).staged = [] →
    (s.chan ch.val).rx = none → exec (.stagedCellWrite ch pick fault) s = .next s)
  ∧ (∀ (s : State) (ch : Fin 16) (pick : Fin 65536) (second : Bool), (s.chan ch.val).rx ≠ none → (s.chan ch.val).staged = [] →
    s.pw.mode = .run → headAwaits s ch.val = none →
    ∃ t, exec (.stagedCellWrite ch pick (.transfer second)) s = .next t ∧ bitOf64 t.vx.stat 22 = true)

/-! ## Lattice and its gates (chapter 5) -/

/-- The table's shadow half is written and read (R135, R136, R139, R158, R496): LT_WRITE checks its run and waits for its data or
takes it from staging; when a read of them fails, what came before it still moves; its last cell of elements, moved in a turn of
Lattice in which no write-back waits, ends it; the window writes an element with the low word held for it; the
last cell of a mirror copy ends the copy; LT_READ on a ring that is not serial writes the half asked for, and names the first
uncorrectable element. The model's choices in it: log entries 39, 42, 136, 137, 138 and 152. -/
def Obligations.LatticeTable : Prop :=
  (∀ (s : State) (r : Fin 4) (ws : List Word) (n p k : Nat), Accepted s r.val ws → pOpcode ws = 0x20 →
    n = fld (wd ws 1) 9 4 → p = fld (wd ws 1) 0 9 → k = fld (wd ws 2) 0 10 →
    (k = 0 ∨ 512 < p + k ∨ addrOk s r.val (wd ws 3) (wd ws 4) (8 * k) = false →
      exec (.ltWrite r) s = .next (ended r.val eParam 0 0 s))
    ∧ (k ≠ 0 → p + k ≤ 512 → addrOk s r.val (wd ws 3) (wd ws 4) (8 * k) = true →
      (draining s n = true ∨ copying s n = true ∨ ∃ c ∈ s.lat.commits, c.mask.testBit n = true) →
      exec (.ltWrite r) s = .next (ended r.val eBusy 0 0 s))
    ∧ (k ≠ 0 → p + k ≤ 512 → addrOk s r.val (wd ws 3) (wd ws 4) (8 * k) = true → draining s n = false → copying s n = false →
      (∀ c ∈ s.lat.commits, c.mask.testBit n = false) → exec (.ltWrite r) s = .next
        (((started r.val s).modCmd r.val fun d => { d with dma := !(s.cr r.val).serial }).modLat fun l => { l with
          writes := (l.writes.filter fun w => w.ring != r.val) ++ [{
            ring := r.val, chan := n, pos := p, total := k
            elems := if (s.cr r.val).serial then elemsOf (stgRead s (wd ws 3).toNat (8 * k)) k else [] }] })))
  ∧ (∀ (s : State) (r : Fin 4) (data : List Word), dmaWaits s r.val = true → hostIdle s = true → slotBad s .hostDma = none →
    fld (pkt s r.val 0) 0 8 = 0x20 → exec (.dmaReadDone r (.good data)) s = .next
      ((s.modCmd r.val fun d => { d with dma := false }).modLat fun l => { l with writes := l.writes.map fun w =>
        if w.ring = r.val then { w with elems := elemsOf (bytesOfWords data) w.total } else w }))
  ∧ (∀ (s : State) (r : Fin 4) (k : HlKind) (before : List Word) (c : Instr) (j : Nat), dmaWaits s r.val = true →
    fld (pkt s r.val 0) 0 8 = 0x20 → classMapOf s.vx.classes 37 ≠ 3 →
    j = Nat.min ((bytesOfWords before).length / 8) (fld (pkt s r.val 2) 0 10) →
    (c = .dmaReadDone r (.bad k before) ∧ hostIdle s = true ∨ c = .dmaCompletionTimeout r before ∧ k = .cplTimeout) →
    ∃ t, exec c s = .next t ∧ bitOf64 t.vx.stat 37 = true
      ∧ (j = 0 → EndedIn t r.val (dmaStatus k) 0 (w32 (hlCode k)) ∧ ∀ w ∈ t.lat.writes, w.ring ≠ r.val)
      ∧ (j ≠ 0 → inProgress t r.val = true ∧ t.lat.writes = s.lat.writes.map fun w =>
          if w.ring = r.val then { w with elems := elemsOf (bytesOfWords before) j, total := j
                                          fail := some (dmaStatus k, w32 (hlCode k)) } else w))
  ∧ (∀ (s : State) (w : LtWrite), writeDue s = some w → w.elems.length ≤ 8 → w.pos + w.elems.length ≤ 512 →
    latticeTurn s = true → backWaits s = false → slotBad s .housekeeping = none →
    ∃ t, exec .ltWriteDone s = .next t ∧ t.round = s.round + 1 ∧ (∀ x ∈ t.lat.writes, x.ring ≠ w.ring)
      ∧ EndedIn t w.ring ((w.fail.map (·.1)).getD stOk) (w32 w.total) ((w.fail.map (·.2)).getD 0)
      ∧ (∀ k, k < w.elems.length → elemAt t (elemIdx (!activeHalf s w.chan) w.chan (w.pos + k)) = w.elems.getD k 0)
      ∧ (∀ i, (∀ k, k < w.elems.length → i ≠ elemIdx (!activeHalf s w.chan) w.chan (w.pos + k)) → elemAt t i = elemAt s i))
  ∧ (∀ (s : State) (i : Iface) (c : Fin 8) (p : Fin 512) (v : Word) (n : Nat), regReach i 0x28000 s = true →
    n = 8 * s.lat.winGrp + c.val →
    (s.lat.winHalf = true ∨ regionBusy s n = true →
      exec (.elementWindowLowWrite i c p v) s = .next s ∧ exec (.elementWindowHighWrite i c p v) s = .next s)
    ∧ (s.lat.winHalf = false → regionBusy s n = false →
      exec (.elementWindowLowWrite i c p v) s = .next { s with lat := { s.lat with held := some (512 * n + p.val, v) } }
      ∧ ∃ t, exec (.elementWindowHighWrite i c p v) s = .next t ∧ t.lat.held = none
          ∧ elemAt t (elemIdx (!activeHalf s n) n p.val) = join64 (match s.lat.held with
              | some (k, w) => if k = 512 * n + p.val then w else lo32 (elemAt s (elemIdx (!activeHalf s n) n p.val))
              | none => lo32 (elemAt s (elemIdx (!activeHalf s n) n p.val))) v
          ∧ ∀ j, j ≠ elemIdx (!activeHalf s n) n p.val → elemAt t j = elemAt s j))
  ∧ (∀ (s : State) (ch : Fin 16), copyDue s = some (ch.val, 504) → latticeTurn s = true → backWaits s = false →
    writeDue s = none → slotBad s .housekeeping = none →
    ∃ t, exec (.ltCopyDone ch) s = .next t ∧ t.round = s.round + 1 ∧ copying t ch.val = false
      ∧ ∀ k, k < 8 → elemAt t (elemIdx (!activeHalf s ch.val) ch.val (504 + k))
          = elemAt s (elemIdx (activeHalf s ch.val) ch.val (504 + k)))
  ∧ (∀ (s : State) (r : Fin 4) (ws : List Word) (n p k : Nat) (half : Bool), Accepted s r.val ws → pOpcode ws = 0x22 →
    n = fld (wd ws 1) 9 4 → p = fld (wd ws 1) 0 9 → k = fld (wd ws 2) 0 10 →
    half = (if bitOf (wd ws 2) 16 then activeHalf s n else !activeHalf s n) →
    (k = 0 ∨ 512 < p + k ∨ addrOk s r.val (wd ws 3) (wd ws 4) (8 * k) = false →
      exec (.ltRead r) s = .next (ended r.val eParam 0 0 s))
    ∧ (k ≠ 0 → p + k ≤ 512 → (s.cr r.val).serial = false →
      (∀ j, j < k → mget 0 s.lat.elemErr (elemIdx half n (p + j)) = 0) →
      exec (.ltRead r) s = .next (ended r.val stOk (w32 k) 0 { s with
        outs := .hostWrite (baseOf (wd ws 3) (wd ws 4)) (bytesOfWords ((List.range k).flatMap fun j =>
          [lo32 (elemAt s (elemIdx half n (p + j))), hi32 (elemAt s (elemIdx half n (p + j)))])) :: s.outs }))
    ∧ (∀ j, k ≠ 0 → p + k ≤ 512 → (s.cr r.val).serial = false → j < k →
      mget 0 s.lat.elemErr (elemIdx half n (p + j)) = 2 →
      (∀ i, i < k → i ≠ j → mget 0 s.lat.elemErr (elemIdx half n (p + i)) = 0) →
      ∃ t, exec (.ltRead r) s = .next t ∧ EndedIn t r.val eCheck (w32 k) (w32 (512 * n + p + j))))

/-- LT_COMMIT, LT_DRAIN_DONE and LT_OWNED (R137 to R140, R157, R158): a refused commit changes nothing; an accepted one swaps
the halves of exactly the channels in its mask, whose old halves drain while a frame that latched them awaits its walk, and
ends when none drains; under LEGACY one of channels 8 to 15 in the mask is E_PROFILE; LT_OWNED answers the log and, with clear = 1, empties it; a frame with an owned match is reported at its frame valid, in the reduced
service too, but not while the duplex role is STANDBY (R149, R150). The model's choices in it: log entries 104 and 138. -/
def Obligations.LatticeCommit : Prop :=
  (∀ (s : State) (r : Fin 4) (ws : List Word) (mask : Nat), Accepted s r.val ws → pOpcode ws = 0x21 → mask = fld (wd ws 1) 0 16 →
    (mask = 0 → exec (.ltCommit r) s = .next (ended r.val eParam 0 0 s))
    ∧ (mask ≠ 0 → (∃ n ∈ maskList mask, regionBusy s n = true) →
      exec (.ltCommit r) s = .next (ended r.val eBusy 0 0 s))
    ∧ (∀ n f, mask ≠ 0 → (∀ m ∈ maskList mask, regionBusy s m = false) → (∀ i, mget 0 s.lat.elemErr i ≠ 1) →
      checkRegions s (fun m => !activeHalf s m) (maskList mask) = some (n, f) →
      exec (.ltCommit r) s = .next (if f.status = eCheck then ended r.val eCheck 0 0 s
        else ended r.val f.status (w32 (512 * n + f.pos)) (w32 f.reason) s))
    ∧ (mask ≠ 0 → (∀ m ∈ maskList mask, regionBusy s m = false) →
      checkRegions s (fun m => !activeHalf s m) (maskList mask) = none →
      ∃ t, exec (.ltCommit r) s = .next t ∧ t.lat.elems = s.lat.elems
        ∧ (∀ n, n < 16 → activeHalf t n = (activeHalf s n != mask.testBit n))
        ∧ ((∀ i, mget 0 s.lat.elemErr i ≠ 1) →
            (∀ n ∈ maskList mask, draining t n = awaitsWalk s n (activeHalf s n)
              ∧ copying t n = (bitOf (wd ws 2) 0 && !awaitsWalk s n (activeHalf s n)))
            ∧ inProgress t r.val = (maskList mask).any fun n => awaitsWalk s n (activeHalf s n))))
  ∧ (∀ (s : State) (r : Fin 4) (ws : List Word), Waits s r.val ws → pOpcode ws = 0x21 → s.vx.safe = false →
    s.boot.profile = true → fld (wd ws 1) 8 8 ≠ 0 → exec (.ltCommit r) s = .next (ended r.val eProfile 0 1 s))
  ∧ (∀ (s : State), ∃ t, exec .ltDrainDone s = .next t
      ∧ t.lat = { s.lat with commits := s.lat.commits.filter fun c => (maskList c.mask).any (draining s) }
      ∧ ∀ c ∈ s.lat.commits, c.ring < 4 → (maskList c.mask).any (draining s) = false → inProgress t c.ring = false)
  ∧ (∀ (s : State) (r : Fin 4) (ws : List Word), Accepted s r.val ws → pOpcode ws = 0x23 →
    (s.lat.ownCount = 0 → exec (.ltOwned r) s = .next (ended r.val eNotFound 0 0 s))
    ∧ (s.lat.ownCount ≠ 0 → bitOf (wd ws 2) 0 = false →
      exec (.ltOwned r) s = .next (ended r.val stOk (w32 s.lat.ownId) (ownedStat s) s))
    ∧ (s.lat.ownCount ≠ 0 → bitOf (wd ws 2) 0 = true →
      exec (.ltOwned r) s = .next (ended r.val stOk (w32 s.lat.ownId) (ownedStat s) { s with lat := { s.lat with
        ownCh := 0, ownIde := false, ownSeen := false, ownCount := 0, ownId := 0 } })))
  ∧ (∀ (s : State) (ch : Fin 16) (waited : Nat) (x : RxFrame) (f : Frame) (edges : List Edge), (s.chan ch.val).rx = some x →
    x.frame = some f → formatTaken s ch.val f = true → x.crcDone = true → x.check = none → x.gates = [] → x.own = false →
    s.boot.commit = none → (s.chan ch.val).tecCnt ≤ 255 → ∃ t, exec (.rxFrame ch waited (.finish .valid edges)) s = .next t
      ∧ (x.owned = true → isStandby s = false → t.lat.ownCount = satInc 0xFFFF s.lat.ownCount ∧ t.lat.ownSeen = true
          ∧ (s.lat.ownSeen = false → t.lat.ownCh = ch.val ∧ t.lat.ownIde = f.ide ∧ t.lat.ownId = identOf f)
          ∧ (s.lat.ownSeen = true → t.lat.ownCh = s.lat.ownCh ∧ t.lat.ownIde = s.lat.ownIde ∧ t.lat.ownId = s.lat.ownId)
          ∧ bitOf64 t.vx.stat 43 = true
          ∧ mget 0 (t.chan ch.val).cnt 0x38 = Nat.min 0xFFFFFFFF (mget 0 (s.chan ch.val).cnt 0x38 + 1))
      ∧ (x.owned = false ∨ isStandby s = true → t.lat.ownCount = s.lat.ownCount ∧ t.lat.ownSeen = s.lat.ownSeen))

/-- Housekeeping and the gates' registers (R32, R135, R148, R153, R156, R193, R532): each turn goes to the next user of the
wheel; Lattice's write back a corrected word, move a cell of an LT_WRITE or of a mirror copy, or scrub a cell; the audit
reads 32 link entries; the margin planner writes the record of an ended cycle; a turn whose transfer has a parity mismatch asserts source 22 instead; a gate's registers are written
only while GL_KEY is unlocked, and a write of highest arms the gate. At frame valid a frame that passed a gate raises its highest, and a
rejection is counted and may arm it. The model's choices in it: log entries 33, 115, 127, 135 and 158. -/
def Obligations.HousekeepingAndGates : Prop :=
  (∀ (s : State), ringsUsable s = false → exec (.housekeepingTurn []) s = .next s)
  ∧ (∀ (s : State), ringsUsable s = true → (∀ n, n < 16 → (s.chan n).rets = []) →
    (s.round % 4 = 3 → s.mp.toStore = false → exec (.housekeepingTurn []) s = .next { s with round := s.round + 1 })
    ∧ (s.round % 4 = 3 → s.mp.toStore = true → slotBad s .housekeeping = none →
      exec (.housekeepingTurn []) s = .next { s with round := s.round + 1, mp := { s.mp with toStore := false } })
    ∧ (s.round % 4 = 1 → auditRuns s = false → exec (.housekeepingTurn []) s = .next { s with round := s.round + 1 })
    ∧ (∀ e, turnPending s = true → slotBad s .housekeeping = some e → ∃ t, exec (.housekeepingTurn []) s = .next t
      ∧ FaultSide (s.modGl fun g => { g with slotBad := dropSlot (fun k => decide (slotOwner k = .housekeeping)) g.slotBad }) { t with round := s.round }
      ∧ bitOf64 t.vx.stat 22 = true)
    ∧ (s.round % 4 = 1 → auditRuns s = true → slotBad s .housekeeping = none → s.pool.linkBad = [] → s.pool.auditPos < 2047 →
      exec (.housekeepingTurn []) s = .next { s with
        round := s.round + 1, pool := { s.pool with auditPos := s.pool.auditPos + 1 } })
    ∧ (∀ k rest, s.round % 2 = 0 → slotBad s .housekeeping = none → s.lat.backs = k :: rest → ∃ t, exec (.housekeepingTurn []) s = .next t
      ∧ k ∉ t.lat.backs ∧ t.lat.elems = s.lat.elems
      ∧ ((16384 ≤ k ↔ activeHalf s (k % 16384 / 512 % 16) = true) →
          mget 0 s.lat.elemErr (k % 16384) = 1 → mget 0 t.lat.elemErr (k % 16384) = 0))
    ∧ (∀ w, s.round % 2 = 0 → slotBad s .housekeeping = none → s.lat.backs = [] → s.lat.gateBacks = [] → writeDue s = some w → 8 < w.elems.length →
      ∃ t, exec (.housekeepingTurn []) s = .next t ∧ inProgress t w.ring = true
        ∧ ∀ k, k < 8 → w.pos + 8 ≤ 512 →
          elemAt t (elemIdx (!activeHalf s w.chan) w.chan (w.pos + k)) = w.elems.getD k 0)
    ∧ (s.round % 2 = 0 → slotBad s .housekeeping = none → s.lat.backs = [] → s.lat.gateBacks = [] → writeDue s = none →
      copyDue s = none → (∀ i, mget 0 s.lat.elemErr i = 0) → (∀ g, mget 0 s.lat.gateErr g = 0) →
      exec (.housekeepingTurn []) s = .next { s with
        round := s.round + 1
        lat := { s.lat with
          scrubPos := if s.lat.scrubEn then (if 1055 ≤ s.lat.scrubPos then 0 else s.lat.scrubPos + 1) else s.lat.scrubPos
          passes := if s.lat.scrubEn ∧ 1055 ≤ s.lat.scrubPos then (s.lat.passes + 1) % 65536 else s.lat.passes } }))
  ∧ (∀ (s : State) (i : Iface) (g : Fin 256) (v : Word),
    (s.gl.unlocked = false → exec (.gateEnable i g v) s = .next s ∧ exec (.gateDisable i g v) s = .next s
      ∧ exec (.gateHighestWrite i g v) s = .next s)
    ∧ (s.gl.unlocked = true → regReach i 0x20200 s = true →
      exec (.gateEnable i g v) s = .next (s.modGate g.val fun e => { e with
        pairAddr := fld v 0 12, en := true, armMode := bitOf v 13 })
      ∧ exec (.gateDisable i g v) s = .next (s.modGate g.val fun e => { e with
        pairAddr := fld v 0 12, en := false, armMode := bitOf v 13 })
      ∧ CompletesTelling (.gateHighestWrite i g v) s (s.modGate g.val fun e => { e with
        armed := true, highest := fld v 0 16, sat := fld v 0 16 == 0xFFFF, hostTime := some s.tm.now })))
  ∧ (∀ (s : State) (ch : Fin 16) (waited : Nat) (x : RxFrame) (f : Frame) (u : GateUse) (edges : List Edge),
    (s.chan ch.val).rx = some x → x.frame = some f → formatTaken s ch.val f = true → reduced s ch.val = false →
    ccDiscarded s ch.val f = false → s.lat.gateErr = [] → x.crcDone = true → x.check = none → x.gates = [u] →
    isBdp x.base f = false → s.boot.commit = none →
    ∃ t, exec (.rxFrame ch waited (.finish .valid edges)) s = .next t
      ∧ (u.reason = none → (s.gate u.gate).armed = true → (s.gate u.gate).hostTime = none →
          (t.gate u.gate).highest = Nat.max (s.gate u.gate).highest u.claim ∧ (t.gate u.gate).armed = true)
      ∧ (∀ k, u.reason = some k → (t.gate u.gate).rejects = satInc 4095 (s.gate u.gate).rejects
          ∧ mget 0 (t.chan ch.val).cnt 0x34 = Nat.min 0xFFFFFFFF (mget 0 (s.chan ch.val).cnt 0x34 + 1)
          ∧ (k = 2 ∨ k = 3 → bitOf64 t.vx.stat 42 = true))
      ∧ (u.reason = some 1 → u.sole = true → (s.gate u.gate).en = true → (s.gate u.gate).armMode = true →
          (s.gate u.gate).armed = false → (t.gate u.gate).armed = true ∧ (t.gate u.gate).highest = u.claim)
      ∧ (∀ g, g ≠ u.gate → t.gate g = s.gate g))

/-! ## Queues (chapter 6) -/

/-- Q_CREATE, Q_REMOVE, Q_BUDGET and Q_STATUS (R171 to R174, R191, R192, R201, R202): their checks in order; a created queue
is OPEN and empty with its budget and consumer; a removed one no longer exists; a new budget is taken; Q_STATUS changes
nothing. The model's choices in it: log entries 37, 128 and 129. -/
def Obligations.QueueLifecycle : Prop :=
  (∀ (s : State) (r : Fin 4) (ws : List Word) (q min max cons : Nat) (xl : Bool), Accepted s r.val ws →
    isQCreate false ws = true → q = fld (wd ws 1) 0 8 → min = fld (wd ws 2) 0 16 → max = fld (wd ws 2) 16 16 →
    cons = fld (wd ws 3) 0 3 → xl = (cons == 5 && xlChannel s (fld (wd ws 3) 4 4)) →
    (queueExists s q = true → exec (.qCreate r) s = .next (ended r.val eState 0 0 s))
    ∧ (queueExists s q = false → (max = 0 ∨ max < min ∨ 6 ≤ cons
        ∨ (cons = 5 ∧ attached s (fld (wd ws 3) 4 4) (fld (wd ws 3) 8 4) ≠ none)) →
      exec (.qCreate r) s = .next (ended r.val eParam 0 0 s))
    ∧ (queueExists s q = false → max ≠ 0 → min ≤ max → cons ≤ 5 →
        (cons = 5 → attached s (fld (wd ws 3) 4 4) (fld (wd ws 3) 8 4) = none) →
      ((minLimit s < minSum s + min ∨ (xl = true ∧ min < 35)) → exec (.qCreate r) s = .next (ended r.val eCap 0 0 s))
      ∧ (minSum s + min ≤ minLimit s → (xl = true → 35 ≤ min) →
        (freeCount s - reserve s < min → exec (.qCreate r) s = .next (ended r.val eBusy 0 0 s))
        ∧ (min ≤ freeCount s - reserve s → ∃ t, exec (.qCreate r) s = .next t ∧ TxSide s t
            ∧ EndedIn t r.val stOk (qCfgWord t q) 0 ∧ t.pool.owner = s.pool.owner
            ∧ t.pool.queues = mset s.pool.queues q { Queue.reset with
                state := .opened, consumer := cons, txCh := if cons = 5 then fld (wd ws 3) 4 4 else 0
                txPos := if cons = 5 then fld (wd ws 3) 8 4 else 0, xlFed := xl, notify := bitOf (wd ws 3) 12
                min := min, max := max }))))
  ∧ (∀ (s : State) (r : Fin 4) (ws : List Word) (q : Nat), Accepted s r.val ws → isQCreate true ws = true →
    q = fld (wd ws 1) 0 8 →
    ((s.queue q).state = .none → exec (.qRemove r) s = .next (ended r.val eNotFound 0 0 s))
    ∧ ((s.queue q).state ≠ .none → queueNamed s q = true → exec (.qRemove r) s = .next (ended r.val eState 0 0 s))
    ∧ ((s.queue q).state ≠ .none → queueNamed s q = false →
        (s.queue q).items ≠ [] ∨ occupancy s q ≠ 0 ∨ (s.queue q).lock ≠ none →
      exec (.qRemove r) s = .next (ended r.val eBusy 0 0 s))
    ∧ ((s.queue q).state = .opened → queueNamed s q = false → (s.queue q).items = [] → occupancy s q = 0 →
        (s.queue q).lock = none → ∃ t, exec (.qRemove r) s = .next t ∧ TxSide s t ∧ EndedIn t r.val stOk 0 0
          ∧ (t.queue q).state = .none ∧ ∀ p, p ≠ q → t.queue p = s.queue p))
  ∧ (∀ (s : State) (r : Fin 4) (ws : List Word) (q min max : Nat), Accepted s r.val ws → pOpcode ws = 0x32 →
    q = fld (wd ws 1) 0 8 → min = fld (wd ws 2) 0 16 → max = fld (wd ws 2) 16 16 →
    ((s.queue q).state = .none → exec (.qBudget r) s = .next (ended r.val eNotFound 0 0 s))
    ∧ ((s.queue q).state ≠ .none → (max = 0 ∨ max < min) → exec (.qBudget r) s = .next (ended r.val eParam 0 0 s))
    ∧ ((s.queue q).state ≠ .none → max ≠ 0 → min ≤ max →
      ((minLimit s < minSum s - (s.queue q).min + min ∨ (xlFedNow s q = true ∧ min < 35)) →
        exec (.qBudget r) s = .next (ended r.val eCap 0 0 s))
      ∧ (minSum s - (s.queue q).min + min ≤ minLimit s → (xlFedNow s q = true → 35 ≤ min) →
        ((s.queue q).min < min → freeCount s - reserve s < min - (s.queue q).min →
          exec (.qBudget r) s = .next (ended r.val eBusy 0 0 s))
        ∧ (((s.queue q).min < min → min - (s.queue q).min ≤ freeCount s - reserve s) →
          ∃ t, exec (.qBudget r) s = .next t ∧ TxSide s t ∧ EndedIn t r.val stOk (packW [(0, 16, min), (16, 16, max)]) 0
            ∧ t.queue q = { s.queue q with
                min := min, max := max, xlFed := xlFedNow s q, fullTold := (t.queue q).fullTold }
            ∧ ∀ p, p ≠ q → t.queue p = s.queue p))))
  ∧ (∀ (s : State) (r : Fin 4) (ws : List Word) (q : Nat), Accepted s r.val ws → pOpcode ws = 0x33 → q = fld (wd ws 1) 0 8 →
    ((s.queue q).state = .none → exec (.qStatus r) s = .next (ended r.val eNotFound 0 0 s))
    ∧ ((s.queue q).state ≠ .none →
      exec (.qStatus r) s = .next (ended r.val stOk (qStatWord s q) (w32 ((s.queue q).items.length % 2 ^ 17)) s)))

/-- Q_FLUSH and the list audit (R187 to R191, R193 to R195): a flush's checks; it discards the listed items of its classes,
returns their cells, and ends with both counts when nothing of it is still being written; a repair unlinks the lists of a
BROKEN queue and ends with an audit pass. Where every charged cell lies in the pool and belongs to a queue that exists, a
pass in which nothing was found only counts, and one with a mismatch of the free count asserts source 23; a charged cell that does not
is itself a list fault. The model's choices in it: log entries 38, 138 and 143. -/
def Obligations.QueueFlush : Prop :=
  (∀ (s : State) (r : Fin 4) (ws : List Word) (q mask : Nat), Accepted s r.val ws → q = fld (wd ws 1) 0 8 →
    mask = fld (wd ws 2) 0 16 →
    (∀ c, (isQFlush false ws = true ∧ c = .qFlush r ∨ isQFlush true ws = true ∧ c = .qFlushRepair r) →
      ((s.queue q).state = .none → exec c s = .next (ended r.val eNotFound 0 0 s))
      ∧ ((s.queue q).state ≠ .none → mask = 0 → exec c s = .next (ended r.val eParam 0 0 s))
      ∧ ((s.queue q).state = .flushing → mask ≠ 0 → exec c s = .next (ended r.val eBusy 0 0 s)))
    ∧ (isQFlush false ws = true → (s.queue q).state = .broken → mask ≠ 0 →
      exec (.qFlush r) s = .next (ended r.val eState 0 0 s))
    ∧ (isQFlush false ws = true → (s.queue q).state = .opened → mask ≠ 0 → (s.queue q).consumer ≠ 5 →
      ∀ gone, gone = ((s.queue q).items.filter fun i => mask.testBit i.cls) →
      ∃ t, exec (.qFlush r) s = .next t ∧ ChanSide s t ∧ t.pw = s.pw ∧ t.cd = s.cd ∧ t.lat = s.lat
        ∧ (t.queue q).items = ((s.queue q).items.filter fun i => !mask.testBit i.cls)
        ∧ (∀ i ∈ gone, ∀ c ∈ i.cells, ∀ e ∈ t.pool.owner, e.1 ≠ c)
        ∧ ((∀ e ∈ s.chans, e.2.rx = none ∧ e.2.staged = [] ∧ e.2.commits = []) →
            (∀ e ∈ s.sq.crs, e.2.cmd.bind (·.sub) = none) →
            (t.queue q).state = .opened
            ∧ EndedIn t r.val stOk (w32 gone.length) (w32 ((gone.map fun i => i.cells.length).sum))))
    ∧ (isQFlush true ws = true → mask ≠ 0 → (s.queue q).state = .opened ∨ ((s.queue q).state = .broken ∧
        heldBy s (.queue q) = true) → exec (.qFlushRepair r) s = .next (ended r.val eState 0 0 s))
    ∧ (isQFlush true ws = true → mask ≠ 0 → (s.queue q).state = .broken → heldBy s (.queue q) = false →
      exec (.qFlushRepair r) s = .next (((started r.val s).modQueue q fun u => { u with
        state := .flushing, items := [], flush := some { mask := mask, items := 0, cells := 0, repair := true, ring := r.val } }).modPool
          fun p => { p with auditPos := 0 })))
  ∧ (∀ (s : State) (bad : List (Fin 256)) (fb ob : Bool), auditRuns s = false → exec (.auditPassEnd bad fb ob) s = .next s)
  ∧ (∀ (s : State) (bad : List (Fin 256)) (fb ob : Bool), auditRuns s = true → ringsUsable s = true → s.round % 4 = 1 →
    2047 ≤ s.pool.auditPos → slotBad s .housekeeping = none → s.pool.linkBad = [] →
    (∃ e ∈ s.pool.owner, 65536 ≤ e.1 ∨ queueExists s e.2 = false) →
    ∃ t, exec (.auditPassEnd bad fb ob) s = .next t ∧ t.pool.failSeen = true ∧ bitOf64 t.vx.stat 23 = true)
  ∧ (∀ (s : State), auditRuns s = true → ringsUsable s = true → s.round % 4 = 1 → 2047 ≤ s.pool.auditPos →
    slotBad s .housekeeping = none → s.pool.linkBad = [] →
    (∀ e ∈ s.pool.owner, e.1 < 65536 ∧ queueExists s e.2 = true) →
    ((∀ e ∈ s.pool.queues, ∀ f, (s.queue e.1).flush = some f → f.repair = false) →
      exec (.auditPassEnd [] false false) s = .next { s with
        round := s.round + 1
        pool := { s.pool with passes := (s.pool.passes + 1) % 4096, auditPos := 0 } })
    ∧ (∀ q f, (s.queue q).flush = some f → f.repair = true → ∃ t, exec (.auditPassEnd [] false false) s = .next t
      ∧ (t.queue q).state = .opened ∧ (t.queue q).flush = none ∧ inProgress t f.ring = false)
    ∧ (∃ t, exec (.auditPassEnd [] true false) s = .next t ∧ t.pool.failSeen = true ∧ bitOf64 t.vx.stat 23 = true))

/-- The host read window and HOST_DMA queues (R178, R180 to R185, R200): a lock holds the head that the queue shows; data is read
from its cells; a pop discards it, a release gives it back, either without a lock sets pop_err; the lock's timeout takes it away.
HOST_DMA_DRAIN, when it is the item's turn, pops the head and its words leave (log entry 18: where to, the manual does not
say). A queue
in NONE shows its window's Reset column (log entry 124). -/
def Obligations.HostWindow : Prop :=
  (∀ (s : State) (i : Iface) (q : Fin 256) (v : Nat → Word → Output), regReach i (0x38000 + q.val * 0x80 + 0x40) s = true →
    v = (fun o w => .regRead i (0x38000 + q.val * 0x80 + o) w) →
    (hasWindow s q.val = false → (s.queue q.val).state ≠ .none → exec (.windowLockRead i q) s = .next (s.emit (v 0x40 0)))
    ∧ ((s.queue q.val).state = .none → exec (.windowLockRead i q) s = .next (s.emit (v 0x40 2)))
    ∧ (hasWindow s q.val = true → (s.queue q.val).lock ≠ none →
      exec (.windowLockRead i q) s = .next (s.emit (v 0x40 (packW [(0, 1, 1), (2, 6, lockedCells s q.val)]))))
    ∧ (hasWindow s q.val = true → (s.queue q.val).lock = none → headOf (s.queue q.val).items = none →
      ∃ t, exec (.windowLockRead i q) s = .next (t.emit (v 0x40 2)) ∧
        Told (s.modQueue q.val fun u => { u with underrun := true }) t)
    ∧ (∀ x, hasWindow s q.val = true → (s.queue q.val).lock = none → headOf (s.queue q.val).items = some x →
      exec (.windowLockRead i q) s = .next ((s.modQueue q.val fun u => { u with
        lock := some (itemId x), wCell := 0 }).emit (v 0x40 (packW [(0, 1, 1), (2, 6, x.cells.length)])))))
  ∧ (∀ (s : State) (i : Iface) (q : Fin 256) (k : Fin 16), regReach i (0x38000 + q.val * 0x80) s = true →
    hasWindow s q.val = true →
    (∀ x, (s.queue q.val).lock ≠ none → headItem s q.val = some x → (s.queue q.val).wCell < x.cells.length →
      s.pool.linkBad = [] → slotBad s .hostDma = none →
      exec (.windowDataRead i q k) s = .next ((s.modQueue q.val fun u => { u with
          prevData := cellWord s (x.cells.getD u.wCell 0) k.val }).emit
        (.regRead i (0x38000 + q.val * 0x80 + 4 * k.val) (cellWord s (x.cells.getD (s.queue q.val).wCell 0) k.val))))
    ∧ (∀ x, (s.queue q.val).lock ≠ none → headItem s q.val = some x → x.cells.length ≤ (s.queue q.val).wCell →
      exec (.windowDataRead i q k) s = .next ((s.modQueue q.val fun u => { u with range := true, prevData := 0 }).emit
        (.regRead i (0x38000 + q.val * 0x80 + 4 * k.val) 0)))
    ∧ ((s.queue q.val).lock = none → ∃ t, exec (.windowDataRead i q k) s = .next (t.emit
        (.regRead i (0x38000 + q.val * 0x80 + 4 * k.val) (s.queue q.val).prevData))
        ∧ Told (s.modQueue q.val fun u => { u with underrun := true }) t))
  ∧ (∀ (s : State) (i : Iface) (q : Fin 256) (v : Word), regReach i (0x38000 + q.val * 0x80 + 0x48) s = true →
    hasWindow s q.val = true →
    ((s.queue q.val).lock = none →
      exec (.windowPop i q v) s = .next (s.modQueue q.val fun u => { u with popErr := true })
      ∧ exec (.windowRelease i q v) s = .next (s.modQueue q.val fun u => { u with popErr := true }))
    ∧ (∀ x, (s.queue q.val).lock ≠ none → headItem s q.val = some x →
      (bitOf v 0 = false → exec (.windowRelease i q v) s = .next (s.modQueue q.val fun u => { u with lock := none }))
      ∧ (slotBad s .hostDma = none → ∃ t, exec (.windowPop i q v) s = .next t ∧ TxSide s t ∧ (t.queue q.val).lock = none
          ∧ (t.queue q.val).items = ((s.queue q.val).items.filter fun y => itemId y != itemId x)
          ∧ (t.queue q.val).itemsOut = wrapInc (s.queue q.val).itemsOut
          ∧ ∀ c ∈ x.cells, ∀ e ∈ t.pool.owner, e.1 ≠ c)
      ∧ (slotBad s .hostDma ≠ none → ∃ t, exec (.windowPop i q v) s = .next t ∧ FaultSide s t ∧ bitOf64 t.vx.stat 22 = true)))
  ∧ (∀ (s : State) (q : Fin 256),
    (s.pool.lockTmo = 0 ∨ (s.queue q.val).lock = none → exec (.lockTimeout q) s = .next s)
    ∧ (s.pool.lockTmo ≠ 0 → (s.queue q.val).lock ≠ none →
      CompletesTelling (.lockTimeout q) s (s.modQueue q.val fun u => { u with lock := none, lockLost := true })))
  ∧ (∀ (s : State) (q : Fin 256), (s.queue q.val).state ≠ .none → (s.queue q.val).consumer = 1 → s.pw.awake = true →
    s.pool.linkBad = [] → slotBad s .hostDma = none →
    (headItem s q.val = none → exec (.hostDmaDrain q) s = .next s)
    ∧ (∀ x, headItem s q.val = some x → hostFirst s (drainKey q.val x) = true → ∃ t, exec (.hostDmaDrain q) s = .next t ∧ TxSide s t
      ∧ (t.queue q.val).items = ((s.queue q.val).items.filter fun y => itemId y != itemId x)
      ∧ (∀ c ∈ x.cells, ∀ e ∈ t.pool.owner, e.1 ≠ c)
      ∧ .hostItem q.val (x.cells.flatMap fun c => (List.range 15).map fun k => poolWord s c k) ∈ t.outs))

/-! ## Chord (chapter 8) -/

/-- The route commands (R232, R235, R243, R244, R248, R250): an added route is enabled with a full bucket, reenable sets its
bit again; a removal is refused while an active list names the route, disables it at once and ends when no hold carries its
copy; CD_STATS answers a counter group and clears it on request. The model's choices in it: log entry 43. -/
def Obligations.RouteCommands : Prop :=
  (∀ (s : State) (r : Fin 4) (ws : List Word) (n : Nat), Accepted s r.val ws → n = (wd ws 1).toNat →
    (isRouteAdd false ws = true → (1023 < n ∨ routeParamsOk s (wd ws 2) (wd ws 3) (wd ws 4) (wd ws 5) = false) →
      exec (.cdRouteAdd r) s = .next (ended r.val eParam 0 0 s))
    ∧ (isRouteAdd false ws = true → n ≤ 1023 → routeParamsOk s (wd ws 2) (wd ws 3) (wd ws 4) (wd ws 5) = true →
      bitOf (s.route n).cfg 1 = true → exec (.cdRouteAdd r) s = .next (ended r.val eState 0 0 s))
    ∧ (isRouteAdd false ws = true → n ≤ 1023 → routeParamsOk s (wd ws 2) (wd ws 3) (wd ws 4) (wd ws 5) = true →
      bitOf (s.route n).cfg 1 = false → exec (.cdRouteAdd r) s = .next (ended r.val stOk (putFld (wd ws 2) 0 2 3) 0
        (s.modRoute n fun e => { cfg := putFld (wd ws 2) 0 2 3, ident := wd ws 3, xl := wd ws 4, rate := wd ws 5 &&& 0x00FFFFFF#32,
                                 tokens := fld (wd ws 5) 16 8, bad := false, cnt := e.cnt })))
    ∧ (isRouteAdd true ws = true → 1023 < n → exec (.cdRouteReenable r) s = .next (ended r.val eParam 0 0 s))
    ∧ (isRouteAdd true ws = true → n ≤ 1023 → bitOf (s.route n).cfg 1 = false ∨ bitOf (s.route n).cfg 0 = true →
      exec (.cdRouteReenable r) s = .next (ended r.val eState 0 0 s))
    ∧ (isRouteAdd true ws = true → n ≤ 1023 → bitOf (s.route n).cfg 1 = true → bitOf (s.route n).cfg 0 = false →
      exec (.cdRouteReenable r) s = .next (ended r.val stOk (putFld (s.route n).cfg 0 1 1) 0
        (s.modRoute n fun e => { e with cfg := putFld e.cfg 0 1 1 }))))
  ∧ (∀ (s : State) (r : Fin 4) (ws : List Word) (n : Nat), Accepted s r.val ws → pOpcode ws = 0x49 → n = fld (wd ws 1) 0 10 →
    (bitOf (s.route n).cfg 1 = false → exec (.cdRouteRemove r) s = .next (ended r.val eNotFound 0 0 s))
    ∧ (bitOf (s.route n).cfg 1 = true → bitOf (wd ws 0) 8 = false → (∃ c, c < 16 ∧ listNames s (activeHalf s c) c 2 n = true) →
      exec (.cdRouteRemove r) s = .next (ended r.val eState 0 0 s))
    ∧ (bitOf (s.route n).cfg 1 = true → (bitOf (wd ws 0) 8 = true ∨ ∀ c, c < 16 → listNames s (activeHalf s c) c 2 n = false) →
      (routeHeld s n = false → ∃ t, exec (.cdRouteRemove r) s = .next t ∧ EndedIn t r.val stOk 0 0
          ∧ (∀ m, m ≠ n → t.route m = s.route m)
          ∧ ((waiting s 0x49 fun v => fld (wd v 1) 0 10 == n) = [] → t.route n =
              (if bitOf (wd ws 0) 8 then { s.route n with cfg := putFld (s.route n).cfg 0 1 0 }
              else { Route.reset with cnt := (s.route n).cnt })))
      ∧ (routeHeld s n = true → bitOf (wd ws 0) 9 = false → ∃ t, exec (.cdRouteRemove r) s = .next t
          ∧ inProgress t r.val = true ∧ bitOf (t.route n).cfg 0 = false ∧ t.cd.holds = s.cd.holds)
      ∧ (routeHeld s n = true → bitOf (wd ws 0) 9 = true → ∃ t, exec (.cdRouteRemove r) s = .next t
          ∧ EndedIn t r.val stOk 1 0 ∧ bitOf (t.route n).cfg 0 = false ∧ routeHeld t n = false)))
  ∧ (∀ (s : State) (r : Fin 4) (ws : List Word) (n g : Nat), Accepted s r.val ws → pOpcode ws = 0x4A → n = fld (wd ws 1) 0 10 →
    g = fld (wd ws 2) 0 2 →
    (g = 3 → exec (.cdStats r) s = .next (ended r.val eParam 0 0 s))
    ∧ (g ≠ 3 → bitOf (s.route n).cfg 1 = false → exec (.cdStats r) s = .next (ended r.val eNotFound 0 0 s))
    ∧ (g ≠ 3 → bitOf (s.route n).cfg 1 = true → ∀ x, x = statsGroup g (s.route n) →
      (bitOf (wd ws 0) 8 = false → exec (.cdStats r) s = .next (ended r.val stOk x.1 x.2.1 s))
      ∧ (bitOf (wd ws 0) 8 = true → exec (.cdStats r) s = .next (ended r.val stOk x.1 x.2.1
          (s.modRoute n fun e => { e with cnt := e.cnt.filter fun c => !x.2.2.contains c.1 })))))

/-- Chord's slots and timers (R228, R229, R230, R235, R237, R240, R246): in the round that serves a channel the first slot of its pair
returns waiting cells or pops the best head into the hold with its header rewritten; the second judges the held copy in R230's order and
drops it with the reason's code, keeps it, or forwards it into its queue; a mismatch in either slot's transfer asserts source 22 and
leaves the hold as it was; in any other round nothing happens. A token is added below the depth; a cut-through copy is committed to its
queue with what is written of it, or discarded when a flush has marked it. The model's choices in it: log entries 19 and 127. -/
def Obligations.ChordSlots : Prop :=
  (∀ (s : State) (ch : Fin 16), forcedSafe s .chord = true ∨ ringsUsable s = false ∨ s.round % 8 ≠ ch.val / 2 →
    exec (.chordSelect ch) s = .next s ∧ exec (.chordJudge ch) s = .next s)
  ∧ (∀ (s : State) (ch : Fin 16), forcedSafe s .chord = false → ringsUsable s = true → s.round % 8 = ch.val / 2 →
    (mget [] s.cd.rets ch.val ≠ [] → slotBadAt s (· == 2 + 24 * (ch.val % 2)) ≠ none → ∃ t, exec (.chordSelect ch) s = .next t ∧ t.cd.rets = s.cd.rets
      ∧ t.cd.holds = s.cd.holds ∧ bitOf64 t.vx.stat 22 = true)
    ∧ (holdOf s ch.val ≠ none → slotBadAt s (· == 14 + 24 * (ch.val % 2)) ≠ none → ∃ t, exec (.chordJudge ch) s = .next t ∧ t.cd.holds = s.cd.holds ∧ bitOf64 t.vx.stat 22 = true))
  ∧ (∀ (s : State) (ch : Fin 16), forcedSafe s .chord = false → ringsUsable s = true → s.round % 8 = ch.val / 2 →
    slotBadAt s (· == 2 + 24 * (ch.val % 2)) = none →
    (∀ c t, mget [] s.cd.rets ch.val = c :: t → ∃ u, exec (.chordSelect ch) s = .next u ∧ mget [] u.cd.rets ch.val = []
      ∧ u.cd.holds = s.cd.holds ∧ ∀ x ∈ c :: t, ∀ e ∈ u.pool.owner, e.1 ≠ x)
    ∧ (mget [] s.cd.rets ch.val = [] → (holdOf s ch.val ≠ none ∨ firstHead (laneHeads s ch.val) = none) →
      exec (.chordSelect ch) s = .next s)
    ∧ (∀ cls seq k q i ws, mget [] s.cd.rets ch.val = [] → holdOf s ch.val = none → s.pool.linkBad = [] →
      firstHead (laneHeads s ch.val) = some (cls, seq, k, q) → headItem s q = some i → ws = (readItem s i.cells).words →
      ∃ t, exec (.chordSelect ch) s = .next t ∧ (t.queue q).items = ((s.queue q).items.filter fun j => itemId j != itemId i)
        ∧ holdOf t ch.val = some {
            lane := k, cells := i.cells, route := fld (wd ws 6) 16 10
            words := rewrite (fld (wd ws 6) 16 10) (s.route (fld (wd ws 6) 16 10)) ws
            fail := conversionFault (s.route (fld (wd ws 6) 16 10)) ws
            disabled := !bitOf (s.route (fld (wd ws 6) 16 10)).cfg 0, kept := false, bad := false }))
  ∧ (∀ (s : State) (ch : Fin 16), forcedSafe s .chord = false → ringsUsable s = true → s.round % 8 = ch.val / 2 →
    slotBadAt s (· == 14 + 24 * (ch.val % 2)) = none →
    (holdOf s ch.val = none → exec (.chordJudge ch) s = .next s)
    ∧ (∀ h e, holdOf s ch.val = some h → e = s.route h.route →
      ((e.bad = true ∨ h.bad = true) → ∃ t, exec (.chordJudge ch) s = .next t ∧ holdOf t ch.val = none
        ∧ bitOf64 t.vx.stat 18 = true)
      ∧ (e.bad = false → h.bad = false → ∀ reason,
          (h.disabled = true ∧ reason = 0 ∨ h.disabled = false ∧ h.fail = some reason
            ∨ h.disabled = false ∧ h.fail = none ∧ outAsleep s (s.queue (rtQueue e)).txCh = true ∧ bitOf e.cfg 5 = false ∧ reason = 1
            ∨ h.disabled = false ∧ h.fail = none ∧ (outAsleep s (s.queue (rtQueue e)).txCh = false ∨ bitOf e.cfg 5 = true)
                ∧ rtEmpty e = true ∧ bitOf e.cfg 6 = true ∧ reason = 2) →
          ∃ t, exec (.chordJudge ch) s = .next t ∧ holdOf t ch.val = none
            ∧ mget 0 (t.route h.route).cnt 1 = satInc 0xFFFF (mget 0 e.cnt 1)
            ∧ ∀ c ∈ h.cells, ∀ x ∈ t.pool.owner, x.1 ≠ c)
      ∧ (e.bad = false → h.bad = false → h.disabled = false → h.fail = none →
          (outAsleep s (s.queue (rtQueue e)).txCh = false ∨ bitOf e.cfg 5 = true) →
          (rtEmpty e = true → bitOf e.cfg 6 = false → exec (.chordJudge ch) s = .next { s with cd := { s.cd with
            holds := mset s.cd.holds ch.val { h with kept := true } } })
          ∧ (rtEmpty e = false → rechargeOk s (rtQueue e) h.cells = false →
            ∃ t, exec (.chordJudge ch) s = .next t ∧ (t.queue (rtQueue e)).full = true
              ∧ (if bitOf e.cfg 6 then holdOf t ch.val = none ∧ mget [] t.cd.rets ch.val = h.cells
                 else holdOf t ch.val = some { h with kept := true }))
          ∧ (rtEmpty e = false → rechargeOk s (rtQueue e) h.cells = true → outAsleep s (s.queue (rtQueue e)).txCh = false →
            ∃ t, exec (.chordJudge ch) s = .next t ∧ holdOf t ch.val = none
              ∧ mget 0 (t.route h.route).cnt 0 = satInc 0xFFFF (mget 0 e.cnt 0)
              ∧ ((s.queue (rtQueue e)).state ≠ .broken → (∀ j ∈ (s.queue (rtQueue e)).items, itemId j ≠ h.cells.headD 0) →
                  StandsIn t (rtQueue e) (s.queue (rtQueue e)).txCh { cls := rtClass e, cells := h.cells, seq := s.pool.nextSeq }
                  ∧ ((s.queue (rtQueue e)).consumer ≠ 5 → (t.queue (rtQueue e)).items
                      = (s.queue (rtQueue e)).items ++ [{ cls := rtClass e, cells := h.cells, seq := s.pool.nextSeq }]))
              ∧ ((waiting s 0x49 fun ws => fld (wd ws 1) 0 10 == h.route) = [] →
                  (t.route h.route).tokens = if fld e.rate 0 16 = 0 then e.tokens else e.tokens - 1)))))
  ∧ (∀ (s : State) (ch : Fin 16),
    (∀ h, holdOf s ch.val = some h → h.kept = true → s.cd.stallUs ≠ 0 → CompletesTelling (.cdStall ch) s s)
    ∧ ((∀ h, holdOf s ch.val = some h → h.kept = false) ∨ s.cd.stallUs = 0 → exec (.cdStall ch) s = .next s))
  ∧ (∀ (s : State) (r : Fin 1024),
    (bitOf (s.route r.val).cfg 1 = true → fld (s.route r.val).rate 0 16 ≠ 0 →
      (s.route r.val).tokens < fld (s.route r.val).rate 16 8 →
      exec (.tokenAdd r) s = .next (s.modRoute r.val fun e => { e with tokens := e.tokens + 1 }))
    ∧ (bitOf (s.route r.val).cfg 1 = false ∨ fld (s.route r.val).rate 0 16 = 0
        ∨ fld (s.route r.val).rate 16 8 ≤ (s.route r.val).tokens → exec (.tokenAdd r) s = .next s))
  ∧ (∀ (s : State) (ch : Fin 16),
    ((s.chan ch.val).rx = none → exec (.cutThroughCommit ch) s = .next s)
    ∧ (∀ f c, (s.chan ch.val).rx = some f → ctChain f = some c → f.ctSeq = none → c.cells ≠ [] →
        slotBad s (.channel ch.val) = none →
      (c.marked = false → ∃ t, exec (.cutThroughCommit ch) s = .next t
        ∧ (t.chan ch.val).rx = some { f with ctSeq := some s.pool.nextSeq }
        ∧ mget 0 (t.route (chainRoute c)).cnt 2 = satInc 0xFFFF (mget 0 (s.route (chainRoute c)).cnt 2)
        ∧ ((s.queue c.queue).state ≠ .broken → (∀ j ∈ (s.queue c.queue).items, itemId j ≠ c.cells.headD 0) →
            StandsIn t c.queue (s.queue c.queue).txCh { cls := c.cls, cells := c.cells, seq := s.pool.nextSeq }))
      ∧ (c.marked = true → ∃ t, exec (.cutThroughCommit ch) s = .next t
        ∧ (t.chan ch.val).rx = some { f with chains := f.chains.filter fun k => !isCut k }
        ∧ ∀ x ∈ c.cells, ∀ e ∈ t.pool.owner, e.1 ≠ x)))

/-! ## The time base (chapter 9) -/

/-- The time commands (R259, R262, R267): op 3 and a rate or role out of range are E_PARAM, a set, step or rate while a servo
runs E_STATE; a set loads the counter, a step moves it, a rate sets adj and the integral part, a role starts its servo in
UNLOCKED, and withdraws the SYNC and FOLLOW_UP frames that wait on channels where it sends none. The model's choices in it: log entries
27 and 160. -/
def Obligations.TimeCommands : Prop :=
  (∀ (s : State) (r : Fin 4) (ws : List Word), Accepted s r.val ws → isTmSet (fun op => op == 0 || op == 3) ws = true →
    (fld (wd ws 1) 0 2 = 3 → exec (.tmSet r) s = .next (ended r.val eParam 0 0 s))
    ∧ (fld (wd ws 1) 0 2 = 0 → servoRuns s = true → exec (.tmSet r) s = .next (ended r.val eState 0 0 s))
    ∧ (fld (wd ws 1) 0 2 = 0 → servoRuns s = false → ∀ v, v = join64 (wd ws 2) (wd ws 3) →
      ∃ t, exec (.tmSet r) s = .next t ∧ EndedIn t r.val stOk (lo32 v) (hi32 v)
        ∧ t.tm = { s.tm with now := v, frac := 0, set := true, steps := (s.tm.steps + 1) % 65536
                             preStep := some (s.tm.preStep.getD s.tm.now)
                             lastEdge := s.tm.lastEdge.map fun e => e + ((v.toNat : Int) - s.tm.now.toNat)
                             sync := mmap (fun e => (e.1, e.2.1, e.2.2 + ((v.toNat : Int) - s.tm.now.toNat))) s.tm.sync }))
  ∧ (∀ (s : State) (r : Fin 4) (ws : List Word), Accepted s r.val ws → isTmSet (fun op => op == 1) ws = true →
    (servoRuns s = true → exec (.tmStep r) s = .next (ended r.val eState 0 0 s))
    ∧ (servoRuns s = false → ∀ v, v = s.tm.now + join64 (wd ws 2) (wd ws 3) →
      ∃ t, exec (.tmStep r) s = .next t ∧ EndedIn t r.val stOk (lo32 v) (hi32 v)
        ∧ t.tm = { s.tm with now := v, set := true, steps := (s.tm.steps + 1) % 65536
                             preStep := some (s.tm.preStep.getD s.tm.now)
                             lastEdge := s.tm.lastEdge.map fun e => e + (join64 (wd ws 2) (wd ws 3)).toInt
                             sync := mmap (fun e => (e.1, e.2.1, e.2.2 + (join64 (wd ws 2) (wd ws 3)).toInt)) s.tm.sync }))
  ∧ (∀ (s : State) (r : Fin 4) (ws : List Word) (a : Int), Accepted s r.val ws → isTmSet (fun op => op == 2) ws = true →
    a = (wd ws 2).toInt →
    ((a < -500000 ∨ 500000 < a) → exec (.tmRate r) s = .next (ended r.val eParam 0 0 s))
    ∧ (-500000 ≤ a → a ≤ 500000 → servoRuns s = true → exec (.tmRate r) s = .next (ended r.val eState 0 0 s))
    ∧ (-500000 ≤ a → a ≤ 500000 → servoRuns s = false →
      exec (.tmRate r) s = .next (ended r.val stOk (lo32 s.tm.now) (hi32 s.tm.now)
        { s with tm := { s.tm with adj := a, integ := a } })))
  ∧ (∀ (s : State) (r : Fin 4) (ws : List Word), Accepted s r.val ws → pOpcode ws = 0x51 →
    ((2 < fld (wd ws 1) 0 3 ∨ (fld (wd ws 1) 0 3 = 2 ∧ bitOf (wd ws 2) (fld (wd ws 1) 4 4) = true)
        ∨ (bitOf (wd ws 1) 3 = true ∧ bitOf s.tm.ppsCfg 1 = false)) →
      exec (.tmRole r) s = .next (ended r.val eParam 0 0 s))
    ∧ (fld (wd ws 1) 0 3 ≤ 2 → (fld (wd ws 1) 0 3 = 2 → bitOf (wd ws 2) (fld (wd ws 1) 4 4) = false) →
      (bitOf (wd ws 1) 3 = true → bitOf s.tm.ppsCfg 1 = true) →
      ∀ role, role = packW [(0, 3, fld (wd ws 1) 0 3), (3, 1, fld (wd ws 1) 3 1), (4, 4, fld (wd ws 1) 4 4),
        (16, 16, fld (wd ws 2) 0 16)] →
      ∃ t, exec (.tmRole r) s = .next t ∧ EndedIn t r.val stOk role 0 ∧ TxSide { s with tm := t.tm } t
        ∧ t.tm = { s.tm with
            role := role, sync := [], prev := none, followed := false, sender := 0, holdPast := false
            state := if fld (wd ws 1) 0 3 = 2 ∨ (fld (wd ws 1) 0 3 = 1 ∧ bitOf (wd ws 1) 3 = true) then 0 else 4
            goodRun := 0, badRun := 0, told38 := false }
        ∧ ∀ n, n < 16 → syncSends t n = false → dueOf t n kSync = none ∧ dueOf t n kFollowUp = none))

/-- The time base's pins and timers (R257, R258, R262, R264): an edge on TIME_PPS_IN is captured, unless it is off or too
close, and drives the servo of a master that follows it (from UNLOCKED with a step); the output pulse rises at a second that
is due; hold_ms without a measurement is holdover; hold_max_s of it asserts source 38. The model's choices in it: log entry
145. -/
def Obligations.TimeEvents : Prop :=
  (∀ (s u : State) (waited : Nat), u = passCycles waited s →
    (bitOf u.tm.ppsCfg 1 = false ∨ timeRuns u = false → exec (.ppsInEdge waited) s = .next u)
    ∧ (∀ e : Int, u.tm.lastEdge = some e → (u.tm.now.toNat : Int) - e < 500000000 →
      exec (.ppsInEdge waited) s = .next u)
    ∧ (bitOf u.tm.ppsCfg 1 = true → timeRuns u = true →
        (∀ e : Int, u.tm.lastEdge = some e → 500000000 ≤ (u.tm.now.toNat : Int) - e) →
        ∀ cap : Int, cap = (u.tm.now.toNat : Int) - signed (fld u.tm.ppsAdj 0 16) 16 →
      ((tmRole u ≠ 1 ∨ bitOf u.tm.role 3 = false) → exec (.ppsInEdge waited) s = .next { u with tm := { u.tm with
          lastEdge := some (u.tm.now.toNat : Int), ppsIn := BitVec.ofInt 64 cap } })
      ∧ (tmRole u = 1 → bitOf u.tm.role 3 = true → u.tm.state = 0 → ∃ t, exec (.ppsInEdge waited) s = .next t
          ∧ t.tm.state = 1 ∧ t.tm.ppsIn = BitVec.ofInt 64 cap
          ∧ t.tm.now = BitVec.ofInt 64 ((u.tm.now.toNat : Int) - (cap - (cap + 500000000) / 1000000000 * 1000000000))))
    ∧ (u.tm.ppsDue = true → exec (.ppsOutRise waited) s = .next { u with tm := { u.tm with
        ppsDue := false, ppsOut := u.tm.ppsOut || (bitOf u.tm.ppsCfg 0 && u.tm.set) } })
    ∧ (u.tm.ppsDue = false → exec (.ppsOutRise waited) s = .next u))
  ∧ (∀ (s : State),
    exec .ppsOutFall s = .next { s with tm := { s.tm with ppsOut := false } }
    ∧ (s.tm.state ≠ 1 → s.tm.state ≠ 2 → exec .servoHoldTimeout s = .next { s with tm := { s.tm with holdPast := true } })
    ∧ (s.tm.state = 1 ∨ s.tm.state = 2 → CompletesTelling .servoHoldTimeout s { s with tm := { s.tm with
        holdPast := true, state := 3, goodRun := 0, badRun := 0, told38 := false } })
    ∧ (s.tm.state = 3 → s.tm.told38 = false → fld s.tm.hold 16 16 ≠ 0 → ∃ t, exec .holdoverLimit s = .next t
        ∧ FaultSide { s with tm := { s.tm with told38 := true } } t ∧ bitOf64 t.vx.stat 38 = true)
    ∧ (s.tm.state ≠ 3 ∨ s.tm.told38 = true ∨ fld s.tm.hold 16 16 = 0 → exec .holdoverLimit s = .next s))

/-! ## The device's own BDP frames (chapter 10) -/

/-- BDP frames (R146, R260, R261, R276, R278 to R282, R284, R351, R370, R448): a waiting item is committed to its bdp_queue with one
cell, or waits when the queue refuses it or the device may not send; the intervals make SYNC, HEARTBEAT and CLAIM frames due on their
channels; answers and echoes go out one at a time; the reduced service answers the console on its channel. A received frame is counted;
a malformed one is reported; of another device a CLAIM or HEARTBEAT raises the claim gates of its pair, an IDENTIFY_REQ asks for an
answer, a SYNC on the slave's channel is kept with its stamp, a MARGIN_PROBE for echoes. The model's choices in it: log entries 31, 65,
158 and 160. -/
def Obligations.OwnFrames : Prop :=
  (∀ (s : State) (ch kind : Fin 16) (pick : Fin 65536),
    (dueOf s ch.val kind.val = none ∨ bdpSends s ch.val = false
        ∨ ((kind.val = kSync ∨ kind.val = kFollowUp) ∧ syncSends s ch.val = false) → exec (.bdpItemCommit ch kind pick) s = .next s)
    ∧ (∀ d, dueOf s ch.val kind.val = some d → bdpSends s ch.val = true →
        (kind.val = kSync ∨ kind.val = kFollowUp → syncSends s ch.val = true) →
      (bdpQueue s ch.val = none → exec (.bdpItemCommit ch kind pick) s = .next s)
      ∧ (∀ q, bdpQueue s ch.val = some q → slotBad s .duplex = none →
        (allocOk s q true = false → ∃ t, exec (.bdpItemCommit ch kind pick) s = .next t ∧ TxSide s t ∧ t.bdp = s.bdp
            ∧ (t.queue q).full = true)
        ∧ (allocOk s q true = true → ∃ t, exec (.bdpItemCommit ch kind pick) s = .next t
            ∧ dueOf t ch.val kind.val = none
            ∧ ((s.queue q).state ≠ .broken → (∀ j ∈ (s.queue q).items, itemId j ≠ freeCell s pick.val) →
                StandsIn t q ch.val { cls := fld (s.chan ch.val).bdpCfg 16 4, cells := [freeCell s pick.val], seq := s.pool.nextSeq })))))
  ∧ (∀ (s : State),
    ((tmRole s ≠ 1 ∧ tmRole s ≠ 2) ∨ isStandby s = true → exec .syncInterval s = .next s)
    ∧ ((tmRole s = 1 ∨ tmRole s = 2) → isStandby s = false →
      ∃ t, exec .syncInterval s = .next t ∧ TxSide { s with bdp := t.bdp } t
        ∧ ∀ n, n < 16 → (bitOf s.tm.role (16 + n) = true → bdpSends s n = true → bdpWaits t n kSync = true)
            ∧ (bitOf s.tm.role (16 + n) = false ∨ bdpSends s n = false → bdpWaits t n kSync = false))
    ∧ (s.dx.state ≠ 2 → s.dx.state ≠ 0 → exec .heartbeatInterval s = .next s)
    ∧ (s.dx.state = 2 ∨ s.dx.state = 0 → ∃ t, exec .heartbeatInterval s = .next t ∧ TxSide { s with bdp := t.bdp } t
        ∧ ∀ n, n < 16 → s.dx.supMask.testBit n = true → bdpSends s n = true →
          dueOf t n kHeartbeat = some {
            ch := n, kind := kHeartbeat, aux := 0
            words := [packW [(0, 16, if s.dx.state = 2 then s.dx.claim else 0), (16, 8, (mget 0 s.bdp.hbSeq n + 1) % 256),
                             (24, 2, b1 (s.dx.state == 2))]] })
    ∧ (s.dx.state ≠ 2 → exec .claimInterval s = .next s)
    ∧ (s.dx.state = 2 → ∃ t, exec .claimInterval s = .next t ∧ TxSide { s with bdp := t.bdp } t
        ∧ ∀ n, n < 16 → s.dx.supMask.testBit n = true → bdpSends s n = true →
          dueOf t n kClaim = some { ch := n, kind := kClaim, aux := 0, words := [packW [(0, 16, s.dx.claim), (16, 4, 0)]] }))
  ∧ (∀ (s : State) (ch : Fin 16) (pick : Fin 65536),
    (s.bdp.answers.contains ch.val = false → exec (.identifyAnsCommit ch pick) s = .next s)
    ∧ (s.bdp.answers.contains ch.val = true → inService s = true → ∃ t, exec (.identifyAnsCommit ch pick) s = .next t
        ∧ t.bdp.answers.contains ch.val = false
        ∧ (∀ q, bdpSends s ch.val = true → bdpQueue s ch.val = some q → slotBad s .duplex = none →
          (allocOk s q true = false → dueOf t ch.val kIdAns = some { ch := ch.val, kind := kIdAns, aux := 0, words := ansWords s })
          ∧ (allocOk s q true = true → (s.queue q).state ≠ .broken → (∀ j ∈ (s.queue q).items, itemId j ≠ freeCell s pick.val) →
              dueOf t ch.val kIdAns = none
              ∧ StandsIn t q ch.val { cls := fld (s.chan ch.val).bdpCfg 16 4, cells := [freeCell s pick.val], seq := s.pool.nextSeq })))
    ∧ (s.bdp.answers.contains ch.val = true → reduced s ch.val = true → (s.chan ch.val).state = .active →
      exec (.identifyAnsCommit ch pick) s = .next ((bump ch.val 0x5C { s with bdp := { s.bdp with
          answers := s.bdp.answers.filter (· != ch.val) } }).emit (.busFrame ch.val
        (classicalFrame (bdpIdent 0x10 kIdAns 0 (devAddr s)) (bytesOfWords (ansWords s))))))
    ∧ (mget 0 s.bdp.echoes ch.val = 0 ∨ (∃ o ∈ s.bdp.own, o.ch = ch.val ∧ o.kind = kEcho) ∨ bdpSends s ch.val = false →
      exec (.marginEchoCommit ch pick) s = .next s)
    ∧ (∀ q, mget 0 s.bdp.echoes ch.val ≠ 0 → (∀ o ∈ s.bdp.own, o.ch = ch.val → o.kind ≠ kEcho) → bdpSends s ch.val = true →
      bdpQueue s ch.val = some q → slotBad s .duplex = none → allocOk s q true = true → ∃ t, exec (.marginEchoCommit ch pick) s = .next t
        ∧ mget 0 t.bdp.echoes ch.val = mget 0 s.bdp.echoes ch.val - 1
        ∧ ((s.queue q).state ≠ .broken → (∀ j ∈ (s.queue q).items, itemId j ≠ freeCell s pick.val) →
            StandsIn t q ch.val { cls := fld (s.chan ch.val).bdpCfg 16 4, cells := [freeCell s pick.val], seq := s.pool.nextSeq })))
  ∧ (∀ (s : State),
    (s.boot.console = [] → exec .consoleAnswer s = .next s)
    ∧ (∀ n w well rest, s.boot.console = (n, w, well) :: rest → (s.chan n).state = .active →
      exec .consoleAnswer s = .next (({ s with boot := { s.boot with console := rest } } : State).emit (.busFrame n
        (classicalFrame (0x1FFF0000 + devAddr s)
          (bytesOf w ++ bytesOf (if well then regWord s w.toNat else 0xFFFFFFFF#32)))))))
  ∧ (∀ (s : State) (ch : Fin 16) (waited : Nat) (x : RxFrame) (f : Frame) (edges : List Edge) (kind sender : Nat) (w : Word),
    (s.chan ch.val).rx = some x → x.frame = some f → formatTaken s ch.val f = true → reduced s ch.val = false →
    ccDiscarded s ch.val f = false → isBdp x.base f = true → x.crcDone = true → x.check = none → x.gates = [] → x.owned = false →
    (s.chan ch.val).tecCnt ≤ 255 → (s.chan ch.val).rets = [] → s.boot.commit = none → s.lat.gateErr = [] →
    kind = bdpKind f.ident.toNat → sender = bdpSender f.ident.toNat → w = wordAt f.data 0 →
    ∃ t, exec (.rxFrame ch waited (.finish .valid edges)) s = .next t
      ∧ (bdpWellFormed f.ident.toNat f.data = false → t.bdp.malformed = satInc 0xFFFF s.bdp.malformed ∧ t.bdp.rx = s.bdp.rx
          ∧ mget 0 (t.chan ch.val).cnt 0x58 = Nat.min 0xFFFFFFFF (mget 0 (s.chan ch.val).cnt 0x58 + 1))
      ∧ (bdpWellFormed f.ident.toNat f.data = true → t.bdp.rx = (s.bdp.rx + 1) % 65536 ∧ t.bdp.malformed = s.bdp.malformed
          ∧ mget 0 (t.chan ch.val).cnt 0x54 = Nat.min 0xFFFFFFFF (mget 0 (s.chan ch.val).cnt 0x54 + 1))
      ∧ (bdpWellFormed f.ident.toNat f.data = false ∨ sender = devAddr s ∨ (kind ≠ kClaim ∧ kind ≠ kHeartbeat) ∨ fld w 0 16 = 0 →
          ∀ g, t.gate g = s.gate g)
      ∧ (bdpWellFormed f.ident.toNat f.data = true → sender ≠ devAddr s →
          (kind = kClaim ∨ kind = kHeartbeat → fld w 0 16 ≠ 0 → ∀ g, g < 256 → (s.gate g).en = true →
            (s.gate g).pairAddr = sender / 2 * 2 → (s.gate g).hostTime = none → (t.gate g).armed = true
            ∧ (t.gate g).highest = if (s.gate g).armed then Nat.max (s.gate g).highest (fld w 0 16) else fld w 0 16)
          ∧ (kind = kIdReq → bitOf w 12 = true ∨ fld w 0 12 = devAddr s → isStandby s = false →
            bdpWaits s ch.val kIdAns = false → (∀ o ∈ s.bdp.own, o.ch = ch.val → o.kind ≠ kIdAns) →
            t.bdp.answers.contains ch.val = true)
          ∧ (kind = kSync → inService s = true → tmRole s = 2 → fld s.tm.role 4 4 = ch.val →
            mget (0, 0#64, 0) t.tm.sync sender = (bdpAux f.ident.toNat, x.stamp, 0))
          ∧ (kind = kProbe → inService s = true → fld w 0 12 = devAddr s → bdpSends s ch.val = true →
            mget 0 s.bdp.echoes ch.val = 0 → (∀ o ∈ s.bdp.own, o.ch = ch.val → o.kind ≠ kEcho) → bdpWaits s ch.val kEcho = false →
            mget 0 t.bdp.echoes ch.val = fld w 16 5)))

/-! ## Duplex (chapter 13) -/

/-- The duplex commands (R345, R347, R367, R369, R375, R379): parameters, capacity and state are checked in that order; a
configuration takes its fields, pairing starts or ends with pair_en; a reinit takes the generation given; a swap sends its
PREP for an instant 1 ms ahead; a resynchronisation waits, and ends after 10 epochs with E_TIMEOUT. The model's choices in
it: log entry 90. -/
def Obligations.DuplexCommands : Prop :=
  (∀ (s : State) (r : Fin 4) (ws : List Word) (re : Bool) (c : Instr), Accepted s r.val ws → isDxConfig re ws = true →
    c = (if re then .dxReinit r else .dxConfig r) →
    ∀ bad : Bool, bad = (dxBad s (wd ws 2) (wd ws 3) (wd ws 4) || decide (fld (wd ws 7) 15 17 ≠ 0)
      || (re && decide (fld (wd ws 7) 0 15 = 0))
      || (decide (fld (wd ws 3) 16 11 ≠ 0) && !addrOk s r.val (wd ws 5) (wd ws 6) (64 * fld (wd ws 3) 16 11))) →
    (bad = true → exec c s = .next (ended r.val eParam 0 0 s))
    ∧ (bad = false → dxCap (wd ws 3) = true → exec c s = .next (ended r.val eCap 0 0 s))
    ∧ (bad = false → dxCap (wd ws 3) = false → (dxFixed s (wd ws 2) = true ∨ (re = true ∧ s.dx.state ≠ 2)) →
      exec c s = .next (ended r.val eState 0 0 s))
    ∧ (bad = false → dxCap (wd ws 3) = false → dxFixed s (wd ws 2) = false → (re = true → s.dx.state = 2) →
      ∃ t, exec c s = .next t ∧ inProgress t r.val = false ∧ t.dx = { t.dx with
          pairEn := bitOf (wd ws 2) 0, noteCls := fld (wd ws 2) 2 2, hbMiss := fld (wd ws 2) 4 4, lkMiss := fld (wd ws 2) 8 4
          supMask := fld (wd ws 2) 16 16, epoch10us := fld (wd ws 3) 0 16, appLen := fld (wd ws 3) 16 11
          cmpUs := fld (wd ws 4) 0 16, refTmo := fld (wd ws 4) 16 8, appLo := wd ws 5, appHi := wd ws 6
          appSerial := (s.cr r.val).serial }
        ∧ t.dx.state = (if bitOf (wd ws 2) 0 ∧ s.dx.pairEn = false then 1
            else if bitOf (wd ws 2) 0 = false ∧ s.dx.pairEn = true then 0 else s.dx.state)
        ∧ (re = false → t.dx.claim = s.dx.claim)
        ∧ (re = true → t.dx.claim = fld (wd ws 7) 0 15 * 2 + s.dx.unit ∧ t.dx.highest = t.dx.claim
            ∧ t.ret.claim = t.dx.claim)))
  ∧ (∀ (s : State) (r : Fin 4) (ws : List Word), Accepted s r.val ws → pOpcode ws = 0x69 →
    ∀ ready : Bool, ready = (match s.dx.partner with | some p => p.state == 4 | none => false) →
    (s.dx.state ≠ 2 ∨ s.dx.linkUp = false ∨ ready = false → exec (.dxSwap r) s = .next (ended r.val eState 0 0 s))
    ∧ (s.dx.state = 2 → s.dx.linkUp = true → ready = true →
      ((s.dx.swap ≠ none ∨ s.dx.ref ≠ none ∨ s.dx.refFor ≠ none ∨ ∃ x ∈ s.dx.replays, x.why ≠ .resync) →
        exec (.dxSwap r) s = .next (ended r.val eBusy 0 0 s))
      ∧ (s.dx.swap = none → s.dx.ref = none → s.dx.refFor = none → (∀ x ∈ s.dx.replays, x.why = .resync) →
        exec (.dxSwap r) s = .next (sendSwap 0 (s.tm.now + 1000000#64) ((started r.val s).modDx fun d => { d with
          swap := some { mine := true, instant := s.tm.now + 1000000#64, acked := false, passed := false, ring := some r.val } })))))
  ∧ (∀ (s : State) (r : Fin 4) (ws : List Word), Accepted s r.val ws →
    (pOpcode ws = 0x6A → exec (.dxStatus r) s = .next (ended r.val stOk (dxStat s.dx) (dxClaim s.dx) s))
    ∧ (pOpcode ws = 0x6B → s.dx.state = 0 ∨ s.dx.state = 2 ∨ s.dx.linkUp = false →
      exec (.dxResync r) s = .next (ended r.val eState 0 0 s))
    ∧ (pOpcode ws = 0x6B → s.dx.linkUp = true →
      (s.dx.state = 4 → exec (.dxResync r) s = .next (ended r.val stOk (w32 s.dx.committed) 0 s))
      ∧ (s.dx.state = 1 ∨ s.dx.state = 3 → exec (.dxResync r) s = .next ((started r.val s).modDx fun d => { d with
          resync := d.resync ++ [r.val] }))
      ∧ (s.dx.state = 5 → ∃ t, exec (.dxResync r) s = .next t ∧ t.dx.state = 3 ∧ r.val ∈ t.dx.resync)))
  ∧ (∀ (s : State), ∃ t, exec .resyncEpochLimit s = .next t ∧ t.dx = { s.dx with resync := [] }
      ∧ ∀ r ∈ s.dx.resync, inProgress t r = false)

/-- The link (R345, R348 to R351, R354, R360 to R362, R365, R367, R371): it comes up with a valid HB on aligned lanes and
goes down with a lane or its timer; an HB packet falls due every time, and waits behind a packet that is on the link; COMMIT
leaves behind the last chunk; a packet with a coding error, another length than its type's or another CRC is counted and
discarded, one that stands acts as its type says. The model's choices in it: log entries 85, 132, 133 and 156. -/
def Obligations.LinkPackets : Prop :=
  (∀ (s : State),
    (linkRuns s = false → exec .linkHbSend s = .next s)
    ∧ (linkRuns s = true → s.dx.txNow = none → s.dx.txWait = [] → s.dx.silent = false → heldBy s .duplex = false →
        s.vx.safe = false → ∀ p, p = ({ kind := 1, words :=
            [packW [(0, 3, s.dx.state), (3, 1, s.dx.unit), (4, 2, worst s), (16, 16, s.dx.claim)],
             packW [(0, 16, if s.dx.state = 2 then s.dx.epochNo else s.dx.committed), (16, 16, s.dx.hbCount)]] } : Packet) →
      exec .linkHbSend s = .next { s with
        dx := { s.dx with hbCount := (s.dx.hbCount + 1) % 65536, txNow := some p, txSeq := (s.dx.txSeq + 1) % 4096 }
        outs := .linkPacket (packetWords s.dx.txSeq p) :: s.outs })
    ∧ (s.dx.txNow = none → exec .linkPacketEnd s = .next s)
    ∧ (∀ p c, s.dx.txNow = some p → p.kind = 11 → s.dx.txWait = [] → s.dx.commits = [c] → wd c.words 0 = wd p.words 0 →
      c.kind = 10 → s.dx.sendBad = false → linkRuns s = true → s.dx.linkUp = true → s.dx.silent = false →
      heldBy s .duplex = false → s.vx.safe = false → exec .linkPacketEnd s = .next { s with
        dx := { s.dx with txNow := some c, commits := [], txSeq := (s.dx.txSeq + 1) % 4096 }
        outs := .linkPacket (packetWords s.dx.txSeq c) :: s.outs })
    ∧ (linkRuns s = true → ∀ q, s.dx.txNow = some q → s.dx.silent = false → heldBy s .duplex = false → s.vx.safe = false →
      ∀ p, p = ({ kind := 1, words :=
          [packW [(0, 3, s.dx.state), (3, 1, s.dx.unit), (4, 2, worst s), (16, 16, s.dx.claim)],
           packW [(0, 16, if s.dx.state = 2 then s.dx.epochNo else s.dx.committed), (16, 16, s.dx.hbCount)]] } : Packet) →
      exec .linkHbSend s = .next { s with dx := { s.dx with
        hbCount := (s.dx.hbCount + 1) % 65536, txWait := s.dx.txWait ++ [p] } })
    ∧ (∀ p, s.dx.txNow = some p → p.kind ≠ 11 → s.dx.txWait = [] → exec .linkPacketEnd s = .next { s with dx := { s.dx with
        txNow := none, silent := s.dx.silent || s.vx.safe, commits := if s.vx.safe then [] else s.dx.commits } })
    ∧ (∀ (lane : Fin 2), linkRuns s = true → exec (.laneAligned lane) s = .next { s with dx := { s.dx with
        lane0 := s.dx.lane0 || lane.val == 0, lane1 := s.dx.lane1 || lane.val == 1 } })
    ∧ (∀ (lane : Fin 2), s.dx.linkUp = false → exec (.laneAlignLoss lane) s = .next { s with dx := { s.dx with
        lane0 := s.dx.lane0 && lane.val != 0, lane1 := s.dx.lane1 && lane.val != 1 } })
    ∧ (∀ (lane : Fin 2), s.dx.linkUp = true → ∃ t, exec (.laneAlignLoss lane) s = .next t ∧ t.dx.linkUp = false
        ∧ t.dx.lane0 = (s.dx.lane0 && lane.val != 0) ∧ t.dx.lane1 = (s.dx.lane1 && lane.val != 1)
        ∧ bitOf64 t.vx.level 31 = true)
    ∧ (s.dx.linkUp = false → exec .linkHbTimeout s = .next s)
    ∧ (s.dx.linkUp = true → ∃ t, exec .linkHbTimeout s = .next t ∧ t.dx.linkUp = false ∧ bitOf64 t.vx.level 31 = true
        ∧ t.dx.downs = satInc 0xFFFF s.dx.downs))
  ∧ (∀ (s : State) (p : LinkFrame) (w0 w1 w2 : Word) (ws : List Word),
      ∀ (after : List Word), ∀ c ∈ ([(.hbPacket p w0 w1, 1, [w0, w1]), (.noticePacket p w0, 2, [w0]), (.verdictPacket p w0, 3, [w0]),
        (.refReqPacket p ws, 4, ws), (.refAnsPacket p w0 w1, 5, [w0, w1]), (.swapPrepPacket p w0 w1, 6, [0, w0, w1]),
        (.swapAckPacket p w0 w1, 6, [1, w0, w1]), (.swapRefusePacket p w0 w1, 6, [2, w0, w1]), (.ctlPacket p ws, 7, ws),
        (.resyncPacket p w0, 8, [w0]), (.recPacket p ws after, 9, ws), (.commitPacket p w0 w1 w2, 10, [w0, w1, w2])]
          : List (Instr × Nat × List Word)),
      (linkRuns s = false ∨ s.dx.lane0 = false ∨ s.dx.lane1 = false → exec c.1 s = .next s)
      ∧ (linkRuns s = true → s.dx.lane0 = true → s.dx.lane1 = true → packetGood c.2.1 c.2.2 p = false →
        exec c.1 s = .next { s with dx := { s.dx with crcErr := satInc 0xFFFF s.dx.crcErr } }))
  ∧ (∀ (s : State) (p : LinkFrame), linkRuns s = true → s.dx.lane0 = true → s.dx.lane1 = true →
    (∀ (w0 w1 : Word), packetGood 1 [w0, w1] p = true → ∃ t, exec (.hbPacket p w0 w1) s = .next t ∧ t.dx.linkUp = true
      ∧ t.dx.partner = some { state := fld w0 0 3, unit := fld w0 3 1, worst := fld w0 4 2, claim := fld w0 16 16 }
      ∧ fld w0 16 16 ≤ t.dx.highest
      ∧ (s.dx.state = 1 → fld w0 0 3 = 2 → t.dx.state = 3)
      ∧ (s.dx.state = 1 → fld w0 0 3 = 1 → s.dx.unit = 1 → s.vx.safe = false → t.dx.state = 2)
      ∧ ((s.dx.state = 3 ∨ s.dx.state = 4) → s.dx.linkUp = false → t.dx.state = 3)
      ∧ (s.dx.linkUp = true → s.dx.state ≠ 1 → t.dx.state = s.dx.state))
    ∧ (s.dx.linkUp = true → ∀ (w0 w1 : Word) (ws : List Word),
      (packetGood 2 [w0] p = true →
        ((s.dx.state = 3 ∨ s.dx.state = 4) → 2 ≤ fld w0 0 2 → s.dx.noteCls.testBit (fld w0 0 2 - 2) = true → s.vx.safe = false →
          ∃ t, exec (.noticePacket p w0) s = .next t ∧ t.dx.state = 2 ∧ t.dx.lastCause = 3)
        ∧ (s.dx.state ≠ 3 → s.dx.state ≠ 4 → exec (.noticePacket p w0) s = .next s))
      ∧ (packetGood 3 [w0] p = true →
        (s.dx.state = 2 → fld w0 0 2 = 1 → ∃ t, exec (.verdictPacket p w0) s = .next t ∧ t.dx.state = 5
          ∧ bitOf64 t.vx.stat 33 = true ∧ t.dx.refFor = none)
        ∧ (s.dx.state ≠ 2 ∨ fld w0 0 2 ≠ 1 →
          exec (.verdictPacket p w0) s = .next { s with dx := { s.dx with refFor := none } }))
      ∧ (s.dx.state ≠ 2 → (packetGood 4 ws p = true → exec (.refReqPacket p ws) s = .next s)
          ∧ (packetGood 8 [w0] p = true → exec (.resyncPacket p w0) s = .next s))
      ∧ (∀ x, packetGood 4 ws p = true → s.dx.state = 2 → findRec s (fld (wd ws 0) 0 9) (wd ws 1).toNat = some x →
        (x.bad = true → ∃ t, exec (.refReqPacket p ws) s = .next t ∧ bitOf64 t.vx.stat 33 = true
          ∧ t.dx.replays = s.dx.replays ∧ t.dx.refFor = some (fld (wd ws 0) 0 9))
        ∧ (x.bad = false → exec (.refReqPacket p ws) s = .next { s with dx := { s.dx with
            refFor := some (fld (wd ws 0) 0 9)
            replays := s.dx.replays ++ [{
              ctx := fld (wd ws 0) 0 9, rcd := x
              why := .answer (if fld (wd ws 10) 0 2 = 1 then none else some ((List.range 8).map fun k => wd ws (2 + k))) }] } }))
      ∧ (packetGood 4 ws p = true → s.dx.state = 2 → findRec s (fld (wd ws 0) 0 9) (wd ws 1).toNat = none →
          exec (.refReqPacket p ws) s = .next (linkSend { kind := 5, words := [packW [(0, 9, fld (wd ws 0) 0 9),
            (9, 1, b1 (instantSkipped s (fld (wd ws 0) 0 9) (wd ws 1).toNat && fld (wd ws 10) 0 2 == 1)), (10, 1, 1),
            (11, 1, b1 (instantSkipped s (fld (wd ws 0) 0 9) (wd ws 1).toNat))], w32 (wd ws 1).toNat] }
            { s with dx := { s.dx with refFor := some (fld (wd ws 0) 0 9) } }))
      ∧ (∀ x, packetGood 5 [w0, w1] p = true → s.dx.ref = some x → x.ctx = fld w0 0 9 → x.index = w1.toNat →
        (x.selfOk = none → exec (.refAnsPacket p w0 w1) s = .next { s with dx := { s.dx with
          ref := some { x with answer := some (bitOf w0 9) } } })
        ∧ (∀ mine, x.selfOk = some mine → ∃ t, exec (.refAnsPacket p w0 w1) s = .next t ∧ t.dx.ref = none
            ∧ (bitOf w0 9 = true → mine = true → x.ctx ∈ t.dx.divergent)
            ∧ (bitOf w0 9 = true → mine = false → bitOf64 t.vx.stat 33 = true ∧ (s.dx.state = 4 → t.dx.state = 5))
            ∧ (bitOf w0 9 = false → bitOf64 t.vx.stat 32 = true ∧ (mine = false → t.dx.state = 5))))
      ∧ (packetGood 7 ws p = true → isStandby s = true → fld (wd ws 0) 9 3 ≤ 4 → exec (.ctlPacket p ws) s = .next { s with dx := { s.dx with
          held := s.dx.held ++ [{
            ctx := fld (wd ws 0) 0 9, op := fld (wd ws 0) 9 3, param := wd ws 1, index := (wd ws 2).toNat, ring := none }] } })
      ∧ (isStandby s = false → (packetGood 7 ws p = true → exec (.ctlPacket p ws) s = .next s)
          ∧ (packetGood 9 ws p = true → ∀ after, exec (.recPacket p ws after) s = .next s))
      ∧ (packetGood 8 [w0] p = true → s.dx.state = 2 → exec (.resyncPacket p w0) s = .next { s with dx := { s.dx with
          fullReq := s.dx.fullReq || bitOf w0 0 } })
      ∧ (packetGood 9 ws p = true → isStandby s = true → s.dx.awaitRec.contains (fld (wd ws 0) 0 9) = true → s.dx.replays = [] →
        ∀ after, exec (.recPacket p ws after) s = .next { s with dx := { s.dx with replays := [{
          ctx := fld (wd ws 0) 0 9, why := .resync
          rcd := { index := (wd ws 1).toNat, words := (List.range 8).map (wd ws), frame := [], after := after } }] } })))

/-- Epochs and snapshots (R364 to R366): a standby collects a snapshot's chunks in order, discards the epoch at a lost chunk,
and uses it when COMMIT matches it; a chunk of a later epoch whose first one is lost discards that epoch too; the boundary
puts the chunks of the active's snapshot on the link and behind it, with their COMMIT, and discards what a standby has not
finished. The model's choices in it: log entries 25, 87 and 163. -/
def Obligations.Epochs : Prop :=
  (∀ (s : State) (p : LinkFrame) (ws : List Word) (data : List Byte), linkRuns s = true → s.dx.lane0 = true → s.dx.lane1 = true →
    packetGood 11 ws p = true → data = bytesOfWords ((List.range 1024).map fun k => wd ws (2 + k)) →
    (s.dx.linkUp = false ∨ isStandby s = false → exec (.chunkPacket p ws) s = .next s)
    ∧ (s.dx.linkUp = true → isStandby s = true →
      (fld (wd ws 1) 0 5 = 0 → receiving s = true → ∃ t, exec (.chunkPacket p ws) s = .next t
          ∧ t.dx.rxEpoch = some { number := (wd ws 0).toNat, next := 1, bytes := data, bad := false }
          ∧ t.dx.discards = satInc 0xFFFF s.dx.discards)
      ∧ (fld (wd ws 1) 0 5 = 0 → receiving s = false → exec (.chunkPacket p ws) s = .next { s with dx := { s.dx with
        rxEpoch := some { number := (wd ws 0).toNat, next := 1, bytes := data, bad := false } } })
      ∧ (∀ e, fld (wd ws 1) 0 5 ≠ 0 → s.dx.rxEpoch = some e → e.number = (wd ws 0).toNat → e.next = fld (wd ws 1) 0 5 →
        e.bad = false → exec (.chunkPacket p ws) s = .next { s with dx := { s.dx with
          rxEpoch := some { e with next := fld (wd ws 1) 0 5 + 1, bytes := e.bytes ++ data } } })
      ∧ (∀ e, fld (wd ws 1) 0 5 ≠ 0 → s.dx.rxEpoch = some e → (e.number ≠ (wd ws 0).toNat ∨ e.next ≠ fld (wd ws 1) 0 5) →
        e.bad = false → ∃ t, exec (.chunkPacket p ws) s = .next t ∧ t.dx.rxEpoch = some { e with bad := true }
          ∧ t.dx.discards = satInc 0xFFFF s.dx.discards)
      ∧ (∀ e, fld (wd ws 1) 0 5 ≠ 0 → s.dx.rxEpoch = some e → e.bad = true → e.number ≠ (wd ws 0).toNat →
        e.number ≠ unnamed → ∃ t, exec (.chunkPacket p ws) s = .next t
          ∧ t.dx.rxEpoch = some { number := (wd ws 0).toNat, next := 0, bytes := [], bad := true }
          ∧ t.dx.discards = satInc 0xFFFF s.dx.discards)))
  ∧ (∀ (s : State) (p : LinkFrame) (ws : List Word) (e : RxEpoch), linkRuns s = true → s.dx.lane0 = true → s.dx.lane1 = true →
    packetGood 11 ws p = false → s.dx.linkUp = true → isStandby s = true → s.dx.rxEpoch = some e → e.bad = false →
    ∃ t, exec (.chunkPacket p ws) s = .next t ∧ t.dx.rxEpoch = some { e with bad := true }
      ∧ t.dx.crcErr = satInc 0xFFFF s.dx.crcErr ∧ t.dx.discards = satInc 0xFFFF s.dx.discards)
  ∧ (∀ (s : State) (p : LinkFrame) (w0 w1 w2 : Word), linkRuns s = true → s.dx.lane0 = true → s.dx.lane1 = true →
    s.dx.linkUp = true → packetGood 10 [w0, w1, w2] p = true →
    (isStandby s = false → exec (.commitPacket p w0 w1 w2) s = .next s)
    ∧ (∀ e, isStandby s = true → s.dx.bufBad = false → s.dx.rxEpoch = some e → e.bad = false →
      ((e.number ≠ w0.toNat ∨ e.next ≠ (w1.toNat + 4095) / 4096 ∨ (e.bytes.take w1.toNat).length ≠ w1.toNat
          ∨ crc32c (e.bytes.take w1.toNat) ≠ w2.toNat) → ∃ t, exec (.commitPacket p w0 w1 w2) s = .next t
        ∧ t.dx.rxEpoch = none ∧ t.dx.committed = s.dx.committed ∧ t.dx.discards = satInc 0xFFFF s.dx.discards)
      ∧ (e.number = w0.toNat → e.next = (w1.toNat + 4095) / 4096 → (e.bytes.take w1.toNat).length = w1.toNat →
        crc32c (e.bytes.take w1.toNat) = w2.toNat → ∃ t, exec (.commitPacket p w0 w1 w2) s = .next t
          ∧ t.dx.rxEpoch = none ∧ t.dx.committed = w0.toNat ∧ t.dx.commitBuf = e.bytes.take w1.toNat
          ∧ t.dx.discards = s.dx.discards)))
  ∧ (∀ (s u : State) (waited : Nat) (app : Dma), u = passCycles waited s →
    (u.dx.state = 2 → u.dx.linkUp = true → u.pw.awake = true → u.dx.appLen = 0 → ∃ t, exec (.epochBoundary waited app) s = .next t
      ∧ t.dx.epochNo = (Nat.max u.dx.epochNo u.dx.committed + 1) % 2 ^ 32 ∧ snapBusy t.dx = true ∧ t.dx.fullReq = false)
    ∧ (∀ (number : Nat) (snap : List Byte) (first : Packet) (rest : List Packet), u.dx.state = 2 → u.dx.linkUp = true →
      u.pw.awake = true → u.dx.appLen = 0 → u.dx.pairEn = true → u.dx.silent = false → u.vx.safe = false →
      heldBy u .duplex = false → u.dx.txNow = none → u.dx.txWait = [] → (∀ c < 512, (u.ctx c).bad = []) →
      number = (Nat.max u.dx.epochNo u.dx.committed + 1) % 2 ^ 32 → snap = snapshot u number [] →
      chunks number snap 0 ((snap.length + 4095) / 4096) = first :: rest →
      ∃ t, exec (.epochBoundary waited app) s = .next t ∧ t.dx.txNow = some first ∧ t.dx.txWait = rest
        ∧ t.outs = .linkPacket (packetWords u.dx.txSeq first) :: u.outs
        ∧ t.dx.commits = u.dx.commits ++ [{ kind := 10, words := [w32 number, w32 snap.length, w32 (crc32c snap)] }])
    ∧ (isStandby u = true → receiving u = true → ∃ t, exec (.epochBoundary waited app) s = .next t
      ∧ t.dx.discards = satInc 0xFFFF u.dx.discards ∧ receiving t = false)
    ∧ (u.dx.state = 0 ∨ (u.dx.state = 2 ∧ u.dx.linkUp = false) ∨ (isStandby u = true ∧ receiving u = false) → exec (.epochBoundary waited app) s = .next u))

/-- The duplex timers and the planned swap (R345, R352, R358, R361, R371, R375): a unit that hears no partner, or loses both
supervisions, becomes ACTIVE; a frame not seen in time is a mismatch; an exchange without an answer flags the context; a swap
goes PREP, ACK, instant, claim, and ends where a step of it fails. The model's choices in it: log entries 1, 23, 91, 133 and 160. -/
def Obligations.DuplexTimersAndSwap : Prop :=
  (∀ (s : State),
    (s.dx.state ≠ 1 ∨ s.dx.startRun = false → exec .pairingTimeout s = .next s)
    ∧ (s.dx.state = 1 → s.dx.startRun = true → s.dx.partner ≠ none ∨ s.dx.heard = true →
      exec .pairingTimeout s = .next { s with dx := { s.dx with startRun := false } })
    ∧ (s.dx.state = 1 → s.dx.startRun = true → s.dx.partner = none → s.dx.heard = false → s.vx.safe = false → s.dx.pairEn = true →
      ∃ t, exec .pairingTimeout s = .next t ∧ t.dx.state = 2 ∧ t.dx.lastCause = 0
        ∧ t.dx.takeovers = satInc 0xFFFF s.dx.takeovers)
    ∧ (s.dx.state = 0 ∨ s.dx.state = 2 ∨ s.dx.state = 5 → exec .busHbTimeout s = .next s)
    ∧ (s.dx.state = 1 ∨ ((s.dx.state = 3 ∨ s.dx.state = 4) ∧ s.dx.linkUp = true) →
      exec .busHbTimeout s = .next { s with dx := { s.dx with busLost := true } })
    ∧ ((s.dx.state = 3 ∨ s.dx.state = 4) → s.dx.linkUp = false → s.vx.safe = false → s.dx.pairEn = true →
      ∃ t, exec .busHbTimeout s = .next t ∧ t.dx.state = 2 ∧ t.dx.lastCause = 1)
    ∧ (∀ (c : Fin 512), (mget [] s.dx.pend c.val = [] ∨ s.dx.state ≠ 4 → exec (.cmpMissingTimeout c) s = .next s)
      ∧ (mget [] s.dx.pend c.val ≠ [] → s.dx.state = 4 → ∃ t, exec (.cmpMissingTimeout c) s = .next t
          ∧ t.dx.mismatches = satInc 0xFFFF s.dx.mismatches ∧ t.dx.lastCtx = c.val ∧ t.dx.lastKind = 1))
    ∧ (∀ x, s.dx.ref = some x →
      (x.answer ≠ none → exec .refereeTimeout s = .next s)
      ∧ (x.answer = none → ∃ t, exec .refereeTimeout s = .next t ∧ t.dx.ref = none ∧ x.ctx ∈ t.dx.divergent
          ∧ bitOf64 t.vx.stat 32 = true))
    ∧ (s.dx.ref = none → exec .refereeTimeout s = .next { s with dx := { s.dx with refFor := none } }))
  ∧ (∀ (s : State) (p : LinkFrame) (lo hi : Word), linkRuns s = true → s.dx.lane0 = true → s.dx.lane1 = true →
    s.dx.linkUp = true →
    (packetGood 6 [0, lo, hi] p = true → s.dx.state = 4 → s.dx.divergent = [] → s.vx.safe = false →
      exec (.swapPrepPacket p lo hi) s = .next
      (sendSwap 1 (join64 lo hi) (s.modDx fun d => { d with 
        swap := some { mine := false, instant := join64 lo hi, acked := true, passed := false, ring := none } })))
    ∧ (packetGood 6 [0, lo, hi] p = true → s.dx.state ≠ 4 ∨ s.dx.divergent ≠ [] ∨ s.vx.safe = true →
      exec (.swapPrepPacket p lo hi) s = .next (sendSwap 2 (join64 lo hi) s))
    ∧ (packetGood 6 [1, lo, hi] p = true → (mySwap s = none → exec (.swapAckPacket p lo hi) s = .next s)
      ∧ ∀ w, mySwap s = some w →
        exec (.swapAckPacket p lo hi) s = .next (s.modDx fun d => { d with swap := some { w with acked := true } }))
    ∧ (packetGood 6 [2, lo, hi] p = true → (mySwap s = none → exec (.swapRefusePacket p lo hi) s = .next s)
      ∧ ∀ w r, mySwap s = some w → w.ring = some r → exec (.swapRefusePacket p lo hi) s = .next
          (complete r eState 0 0 (s.modDx fun d => { d with swap := none }))))
  ∧ (∀ (s : State),
    (mySwap s = none → exec .swapAckTimeout s = .next s)
    ∧ (∀ w r, mySwap s = some w → w.ring = some r →
      (w.acked = true → exec .swapAckTimeout s = .next s)
      ∧ (w.acked = false → exec .swapAckTimeout s = .next
          (complete r eTimeout 0 0 (s.modDx fun d => { d with swap := none }))))
    ∧ (∀ w r, s.dx.swap = some w → w.ring = some r →
      (w.mine = true → w.passed = true → exec .swapClaimTimeout s = .next
        (complete r eTimeout 1 0 (s.modDx fun d => { d with swap := none })))
      ∧ (w.mine = false ∨ w.passed = false → exec .swapClaimTimeout s = .next s)))
  ∧ (∀ (s u : State) (waited : Nat), u = passCycles waited s →
    (u.dx.swap = none → exec (.swapInstant waited) s = .next u)
    ∧ (∀ w : Swap, u.dx.swap = some w → (w.acked = false ∨ w.passed = true ∨ u.tm.now < w.instant) →
      exec (.swapInstant waited) s = .next u)
    ∧ (∀ w : Swap, u.dx.swap = some w → w.acked = true → w.passed = false → w.instant ≤ u.tm.now →
      (w.mine = true → u.dx.state = 2 → ∃ t, exec (.swapInstant waited) s = .next t ∧ t.dx.state = 4
        ∧ t.dx.swap = some { w with passed := true })
      ∧ (w.mine = false → u.dx.state = 4 → u.vx.safe = false → u.dx.pairEn = true → receiving u = false →
        ∃ t, exec (.swapInstant waited) s = .next t ∧ t.dx.state = 2 ∧ t.dx.lastCause = 4 ∧ t.dx.swap = none)))

/-! ## Tangent (chapter 11) -/

/-- Tangent's commands in SOLO (R292, R305, R306, R308, R310, R313, R317, R320, R322) and their mirroring (R354): TG_CONFIG
checks its image and loads the context; enable, disable, mode and set-point act on a context in the right state; a double-bit
error that TG_ENABLE or TG_READ meets fails the context; an ACTIVE
unit with the link UP holds the change for its instant and sends it; a standby refuses it; TG_READ writes the 32 words. The
model's choices in it: log entries 74, 75, 77, 78, 79, 83, 84 and 155. -/
def Obligations.TangentCommands : Prop :=
  (∀ (s : State) (r : Fin 4) (ws : List Word) (c : Nat), Accepted s r.val ws → c = fld (wd ws 1) 0 9 → pOpcode ws = 0x58 →
    (fld (wd ws 1) 9 23 ≠ 0 ∨ addrOk s r.val (wd ws 2) (wd ws 3) 96 = false →
      exec (.tgConfig r) s = .next (ended r.val eParam 0 0 s))
    ∧ (fld (wd ws 1) 9 23 = 0 → (s.cr r.val).serial = false →
      exec (.tgConfig r) s = .next ((started r.val s).modCmd r.val fun d => { d with dma := true }))
)
  ∧ (∀ (s : State) (r : Fin 4) (ws data : List Word) (c : Nat) (w : CtxWords) (cmd : Instr),
    (cmd = .tgConfig r ∧ Accepted s r.val ws ∧ pOpcode ws = 0x58 ∧ c = fld (wd ws 1) 0 9 ∧ fld (wd ws 1) 9 23 = 0
        ∧ (s.cr r.val).serial = true ∧ addrOk s r.val (wd ws 2) (wd ws 3) 96 = true
        ∧ w = wd (wordsOf (stgRead s (wd ws 2).toNat 96) 24)
      ∨ cmd = .dmaReadDone r (.good data) ∧ dmaWaits s r.val = true ∧ hostIdle s = true ∧ slotBad s .hostDma = none
        ∧ fld (pkt s r.val 0) 0 8 = 0x58 ∧ c = fld (pkt s r.val 1) 0 9 ∧ w = wd (wordsOf (bytesOfWords data) 24)) →
    (ctxBad s c w = true → exec cmd s = .next (ended r.val eParam 0 0 s))
    ∧ (ctxBad s c w = false → (s.ctx c).state = .enabled ∨ (s.ctx c).state = .disabling →
      exec cmd s = .next (ended r.val eState 0 0 s))
    ∧ (ctxBad s c w = false → (s.ctx c).state ≠ .enabled → (s.ctx c).state ≠ .disabling →
      ∃ t, exec cmd s = .next t ∧ EndedIn t r.val stOk (ctxStat (t.ctx c)) 0 ∧ (t.ctx c).state = .disabled
        ∧ (∀ k, k < 24 → (t.ctx c).word k = if tgfWords.contains k then tgfNorm (w k) else w k)
        ∧ (t.ctx c).word 24 = tgfNorm (w 22) ∧ (t.ctx c).latch = (s.ctx c).latch ∧ (t.ctx c).valid = (s.ctx c).valid
        ∧ ∀ m, m ≠ c → t.ctx m = s.ctx m))
  ∧ (∀ (s : State) (r : Fin 4) (ws : List Word) (c : Nat), Accepted s r.val ws → c = fld (wd ws 1) 0 9 →
    (isStandby s = true → (pOpcode ws = 0x59 → fld (wd ws 2) 0 2 ≠ 3 → exec (.tgEnable r) s = .next (ended r.val eState 0 0 s))
      ∧ (pOpcode ws = 0x5A → exec (.tgDisable r) s = .next (ended r.val eState 0 0 s)))
    ∧ (pOpcode ws = 0x59 → s.dx.state = 2 → s.dx.linkUp = true → ctxPeriod (s.ctx c) ≠ 0 → fld (wd ws 2) 0 2 ≠ 3 →
      ∀ i, i = idx32 (ctlIndex s c) → exec (.tgEnable r) s = .next (linkSend { kind := 7, words :=
          [packW [(0, 9, c), (9, 3, 0), (16, 16, s.dx.ctlSent)], w32 (fld (wd ws 2) 0 2), w32 i, 0] }
        ((started r.val s).modDx fun d => { d with
          held := d.held ++ [{ ctx := c, op := 0, param := w32 (fld (wd ws 2) 0 2), index := i, ring := some r.val }]
          ctlSent := (d.ctlSent + 1) % 65536 })))
    ∧ (s.dx.state = 0 →
      (pOpcode ws = 0x59 → fld (wd ws 2) 0 2 = 3 → exec (.tgEnable r) s = .next (ended r.val eParam 0 0 s))
      ∧ (pOpcode ws = 0x59 → fld (wd ws 2) 0 2 ≠ 3 → (s.ctx c).state = .disabled → readsBad [0, 2, 22] (s.ctx c) = true →
        ∃ t, exec (.tgEnable r) s = .next t ∧ (t.ctx c).state = .failed)
      ∧ (pOpcode ws = 0x59 → fld (wd ws 2) 0 2 ≠ 3 → doubleBad (s.ctx c) = none → ctlStatus s c 0 0 ≠ stOk →
        exec (.tgEnable r) s = .next (ended r.val (ctlStatus s c 0 0) 0 0 s))
      ∧ (pOpcode ws = 0x59 → fld (wd ws 2) 0 2 ≠ 3 → doubleBad (s.ctx c) = none → ctlStatus s c 0 0 = stOk → ∃ t, exec (.tgEnable r) s = .next t
          ∧ inProgress t r.val = false ∧ (t.ctx c).state = .enabled ∧ (t.ctx c).word 25 = tgfZero
          ∧ (t.ctx c).word 24 = (if (s.ctx c).valid then tgfOfInt (rawValue ((s.ctx c).word 0) (s.ctx c).latch)
              else (s.ctx c).word 22) ∧ ∀ m, m ≠ c → t.ctx m = s.ctx m)
      ∧ (pOpcode ws = 0x5A → ctlStatus s c 1 0 ≠ stOk → exec (.tgDisable r) s = .next (ended r.val (ctlStatus s c 1 0) 0 0 s))
      ∧ (pOpcode ws = 0x5A → (s.ctx c).state = .enabled → ∃ t, exec (.tgDisable r) s = .next t
          ∧ ((s.ctx c).frame = none → EndedIn t r.val stOk 0 0 ∧ (t.ctx c).state = .disabled)
          ∧ ((s.ctx c).frame ≠ none → bitOf (wd ws 0) 8 = true → EndedIn t r.val stOk 2 0 ∧ (t.ctx c).state = .disabled
              ∧ (t.ctx c).frame = none)
          ∧ ((s.ctx c).frame ≠ none → bitOf (wd ws 0) 8 = false → inProgress t r.val = true
              ∧ (t.ctx c).state = .disabling ∧ (t.ctx c).frame = (s.ctx c).frame))
      ∧ (pOpcode ws = 0x5B → fld (wd ws 2) 1 2 = 3 → exec (.tgMode r) s = .next (ended r.val eParam 0 0 s))
      ∧ (pOpcode ws = 0x5B → fld (wd ws 2) 1 2 ≠ 3 → (s.ctx c).state ≠ .enabled →
        exec (.tgMode r) s = .next (ended r.val eState 0 0 s))
      ∧ (pOpcode ws = 0x5B → fld (wd ws 2) 1 2 ≠ 3 → (s.ctx c).state = .enabled → exec (.tgMode r) s = .next
          (ended r.val stOk (ctxStat (s.ctx c)) 0 (s.modCtx c fun x => { x with
            modeReq := some (fld (wd ws 2) 0 1, fld (wd ws 2) 1 2) })))
      ∧ (pOpcode ws = 0x5C → tgfOk (wd ws 2) = false → exec (.tgSetpoint r) s = .next (ended r.val eParam 0 0 s))
      ∧ (pOpcode ws = 0x5C → tgfOk (wd ws 2) = true → doubleBad (s.ctx c) = none → ctlStatus s c 3 (wd ws 2) ≠ stOk →
        exec (.tgSetpoint r) s = .next (ended r.val (ctlStatus s c 3 (wd ws 2)) 0 0 s))
      ∧ (pOpcode ws = 0x5C → tgfOk (wd ws 2) = true → doubleBad (s.ctx c) = none → ctlStatus s c 3 (wd ws 2) = stOk →
        ∃ t, exec (.tgSetpoint r) s = .next t
          ∧ (t.ctx c).word 22 = tgfNorm (wd ws 2) ∧ EndedIn t r.val stOk (tgfNorm (wd ws 2)) 0
          ∧ (∀ k, k ≠ 22 → (t.ctx c).word k = (s.ctx c).word k) ∧ ∀ m, m ≠ c → t.ctx m = s.ctx m)))
  ∧ (∀ (s : State) (r : Fin 4) (ws : List Word) (c : Nat), Accepted s r.val ws → c = fld (wd ws 1) 0 9 → pOpcode ws = 0x5D →
    (addrOk s r.val (wd ws 2) (wd ws 3) 128 = false → exec (.tgRead r) s = .next (ended r.val eParam 0 0 s))
    ∧ (addrOk s r.val (wd ws 2) (wd ws 3) 128 = true → (s.ctx c).state = .unconfigured →
      exec (.tgRead r) s = .next (ended r.val eState 0 0 s))
    ∧ ((s.ctx c).state ≠ .unconfigured → (s.cr r.val).serial = false →
      (doubleBad (s.ctx c) = none → exec (.tgRead r) s = .next (ended r.val stOk (ctxStat (s.ctx c)) 0 { s with
        outs := .hostWrite (baseOf (wd ws 2) (wd ws 3)) (bytesOfWords ((List.range 32).map (s.ctx c).word)) :: s.outs }))
      ∧ (doubleBad (s.ctx c) ≠ none → ∃ t, exec (.tgRead r) s = .next t ∧ inProgress t r.val = false
          ∧ (t.ctx c).state = .failed)))

/-- Tangent at work (R298 to R303, R306, R307, R311, R312, R317, R360, R363): an instant makes its sample pending and skips one
that waited, or while Tangent is frozen replaces it; the evaluation writes the context back by the law and hands on its frame; the
oldest frame is committed to its queue, where the item then stands, or waits, or goes; a set-point item is popped and reaches its
context; a replay takes the record that asked for it; a double-bit error in a word that is read fails the context. The model's
choices in it: log entries 76, 79, 80, 127 and 132. -/
def Obligations.TangentWork : Prop :=
  (∀ (s u : State) (c : Fin 512) (waited : Nat), u = passCycles waited s →
    (ctxPeriod (u.ctx c.val) = 0 ∨ timeRuns u = false → exec (.tgInstant c waited) s = .next u)
    ∧ (∀ k, ctxPeriod (u.ctx c.val) ≠ 0 → timeRuns u = true → u.dx.held = [] → k = indexAt (u.ctx c.val) u.tm.now.toNat →
      ((u.ctx c.val).state = .enabled → readsBad [1, 26] (u.ctx c.val) = true → newInstant (u.ctx c.val) u.tm.now.toNat k = true →
        ∃ t, exec (.tgInstant c waited) s = .next t ∧ (t.ctx c.val).state = .failed ∧ bitOf64 t.vx.stat 19 = true)
      ∧ (readsBad [1, 26, 29] (u.ctx c.val) = false →
      ((u.ctx c.val).state = .unconfigured ∨ newInstant (u.ctx c.val) u.tm.now.toNat k = false → exec (.tgInstant c waited) s = .next u)
      ∧ ((u.ctx c.val).state = .enabled → newInstant (u.ctx c.val) u.tm.now.toNat k = true → tgRuns u = true → (u.ctx c.val).pendK = none →
        ∃ t, exec (.tgInstant c waited) s = .next t ∧ t.ctx c.val = put26 24 8 (satInc 255 (fld ((u.ctx c.val).word 26) 24 8))
          { u.ctx c.val with pendK := some (k, u.tm.now), pendFroz := false })
      ∧ ((u.ctx c.val).state = .enabled → newInstant (u.ctx c.val) u.tm.now.toNat k = true → tgRuns u = false →
        ∃ t, exec (.tgInstant c waited) s = .next t ∧ (t.ctx c.val).pendK = some (k, u.tm.now)
          ∧ (t.ctx c.val).pendFroz = true ∧ (t.ctx c.val).lastK = (u.ctx c.val).lastK)
      ∧ (∀ p d, (u.ctx c.val).state = .enabled → newInstant (u.ctx c.val) u.tm.now.toNat k = true → tgRuns u = true →
        pendingAt (u.ctx c.val) u.tm.now.toNat = some (p, d) → (u.ctx c.val).pendFroz = false →
        ∃ t, exec (.tgInstant c waited) s = .next t
          ∧ (t.ctx c.val).pendK = some (k, u.tm.now) ∧ (t.ctx c.val).lastK = p
          ∧ fld ((t.ctx c.val).word 29) 0 16 = satInc 0xFFFF (fld ((u.ctx c.val).word 29) 0 16))
      ∧ ((u.ctx c.val).state ≠ .unconfigured → (u.ctx c.val).state ≠ .enabled → newInstant (u.ctx c.val) u.tm.now.toNat k = true →
        ∃ t, exec (.tgInstant c waited) s = .next t ∧ t.ctx c.val = put26 24 8
          (satInc 255 (fld ((u.ctx c.val).word 26) 24 8)) { u.ctx c.val with lastK := k }))))
  ∧ (∀ (s : State),
    (tgRuns s = false ∨ nextReplay s ≠ none ∨ firstDue (dueList s) = none → exec .tgEvaluation s = .next s)
    ∧ (∀ i c k d, tgRuns s = true → nextReplay s = none → firstDue (dueList s) = some (i, c, k, d) → s.dx.held = [] →
        (s.ctx c).state = .enabled →
      (doubleBad (s.ctx c) ≠ none → ∃ t, exec .tgEvaluation s = .next t ∧ (t.ctx c).state = .failed)
      ∧ ((s.ctx c).bad = [] → s.dx.state = 0 → ∀ x, x = applyMode (put26 8 2 0 (s.ctx c)) →
        ∃ t, exec .tgEvaluation s = .next t ∧ t.tg.emitQ = s.tg.emitQ ++ [c]
          ∧ t.ctx c = put26 6 1 1 { writtenBack x (lawIn x) (evalLaw x.word (lawIn x)) k with
              frame := some (tgFrame x.word c (evalLaw x.word (lawIn x)).out (fld (x.word 26) 16 8)) })))
  ∧ (∀ (s : State) (pick : Fin 65536),
    (tgRuns s = false ∨ s.tg.emitQ = [] → exec (.tgEmitCommit pick) s = .next s)
    ∧ (∀ c rest f q, tgRuns s = true → slotBad s .tangent = none → doubleBad (s.ctx c) = none → s.tg.emitQ = c :: rest → (s.ctx c).frame = some f → q = fld ((s.ctx c).word 2) 13 8 →
      (((s.queue q).state = .none ∨ (s.queue q).consumer ≠ 5 ∨ allocOk s q true = true) →
        ∃ t, exec (.tgEmitCommit pick) s = .next t ∧ (t.ctx c).frame = none ∧ (∀ m ∈ t.tg.emitQ, m ≠ c)
          ∧ ((s.ctx c).state = .disabling → (t.ctx c).state = .disabled)
          ∧ ((s.queue q).state ≠ .none → (s.queue q).consumer = 5 → (s.queue q).state ≠ .broken →
              (∀ j ∈ (s.queue q).items, itemId j ≠ freeCell s pick.val) → StandsIn t q (s.queue q).txCh {
                cls := fld ((s.ctx c).word 2) 21 4, cells := [freeCell s pick.val], seq := s.pool.nextSeq }))
      ∧ ((s.queue q).state ≠ .none → (s.queue q).consumer = 5 → allocOk s q true = false →
        ∃ t, exec (.tgEmitCommit pick) s = .next t ∧ t.ctx c = s.ctx c ∧ t.tg.emitQ = s.tg.emitQ.filter (· != c) ++ [c]
          ∧ (t.queue q).full = true)))
  ∧ (∀ (s : State),
    (tgRuns s = false ∨ s.tg.emitQ ≠ [] ∨ (s.tg.spCells = none ∧ spTurn s = none ∧ spCheck s = s) →
      exec .setpointItemRead s = .next s)
    ∧ (∀ e, tgRuns s = true → s.tg.emitQ = [] → s.tg.spCells = none → slotBad s .tangent = none → s.tg.ctxs = [e] →
      e.2.state = .disabled ∨ e.2.state = .enabled → readsBad [21] e.2 = true →
      ∃ t, exec .setpointItemRead s = .next t ∧ (t.ctx e.1).state = .failed)
    ∧ (∀ cells, tgRuns s = true → slotBad s .tangent = none → s.tg.emitQ = [] → s.tg.spCells = some cells →
      ∃ t, exec .setpointItemRead s = .next t ∧ t.tg.spCells = none ∧ ∀ c ∈ cells, ∀ e ∈ t.pool.owner, e.1 ≠ c)
    ∧ (∀ c i q, tgRuns s = true → slotBad s .tangent = none → s.tg.emitQ = [] → s.tg.spCells = none → spTurn s = some c → doubleBad (s.ctx c) = none →
      spCheck s = s → q = fld ((s.ctx c).word 21) 0 8 → headItem s q = some i → s.pool.linkBad = [] →
      ∀ (data : List Byte) (w v : Word), data = (readItem s i.cells).data.take 28 → w = (s.ctx c).word 21 →
      v = tgfClamp ((s.ctx c).word 19) ((s.ctx c).word 20)
        (tgfOfInt (fieldOf data (fld w 9 5) (fld w 14 2 + 1) (bitOf w 17) (bitOf w 16))) →
      ∃ t, exec .setpointItemRead s = .next t ∧ t.tg.spCells = some i.cells ∧ t.tg.spNext = c + 1
        ∧ (t.queue q).items = ((s.queue q).items.filter fun j => itemId j != itemId i)
        ∧ (s.dx.state = 0 → fld w 9 5 + (fld w 14 2 + 1) ≤ data.length → ctlStatus s c 4 v = stOk →
            (t.ctx c).word 22 = tgfNorm v)
        ∧ (isStandby s = true → t.ctx c = s.ctx c)
        ∧ (isStandby s = false → data.length < fld w 9 5 + (fld w 14 2 + 1) → (t.ctx c).word 22 = (s.ctx c).word 22
            ∧ fld ((t.ctx c).word 30) 16 16 = satInc 0xFFFF (fld ((s.ctx c).word 30) 16 16))))
  ∧ (∀ (s : State),
    (tgRuns s = false ∨ nextReplay s = none → exec .tgReplay s = .next s)
    ∧ (∀ r, tgRuns s = true → nextReplay s = some r → doubleBad (s.ctx r.ctx) = none →
      ∀ a o img, a = recIn (s.ctx r.ctx).word r.rcd → o = evalLaw (s.ctx r.ctx).word a →
      img = ctxImage s (s.ctx r.ctx).word (tgFrame (s.ctx r.ctx).word r.ctx o.out (fld (wd r.rcd.words 0) 16 8)) →
      (∀ shown, r.why = .answer shown → exec .tgReplay s = .next (linkSend { kind := 5, words :=
          [packW [(0, 9, r.ctx), (9, 1, b1 (decide (shown = some img))), (10, 1, 0), (11, 1, 0)], w32 r.rcd.index] }
        (s.modDx fun d => { d with replays := d.replays.erase r })))
      ∧ (∀ x, r.why = .own → s.dx.ref = some x → x.answer = none → exec .tgReplay s = .next (s.modDx fun d => { d with
          replays := d.replays.erase r, ref := some { x with selfOk := some (decide (img = r.rcd.frame)) } }))
      ∧ (r.why = .resync → s.dx.commitBad = false → ∃ t, exec .tgReplay s = .next t
          ∧ t.ctx r.ctx = replayWrite r.rcd a o (s.ctx r.ctx)
          ∧ r.ctx ∉ t.dx.awaitRec ∧ r.ctx ∉ t.dx.divergent ∧ t.dx.replays = s.dx.replays.erase r)))

/-! ## The check units (chapter 12) -/

/-- The check units' commands (R325, R333, R336, R340 to R342): settings are checked and taken; SAVE writes the image and
RESTORE takes it; a host feed folds its bytes and judges the last against the value given; a queue feed becomes a job whose
items are checked one at a time, in the unit's turn, with the reason of each result recorded. RESTORE and a host feed act alike on the
bytes of staging cells and on those that arrive over PCI Express; a host feed whose read fails keeps and reports the bytes before it.
The model's choices in it: log entries 44, 45 and 155. -/
def Obligations.CheckUnits : Prop :=
  (∀ (s : State) (r : Fin 4) (ws : List Word) (u : Nat), Accepted s r.val ws → u = fld (wd ws 1) 0 5 → pOpcode ws = 0x60 →
    (ckConfigBad s (wd ws 2) (wd ws 3) = true → exec (.ckConfig r) s = .next (ended r.val eParam 0 0 s))
    ∧ (ckConfigBad s (wd ws 2) (wd ws 3) = false → fld (wd ws 2) 0 2 = 2 → ckServed s u (fld (wd ws 2) 8 8) = true →
      exec (.ckConfig r) s = .next (ended r.val eState 0 0 s))
    ∧ (ckConfigBad s (wd ws 2) (wd ws 3) = false → (fld (wd ws 2) 0 2 = 2 → ckServed s u (fld (wd ws 2) 8 8) = false) →
      (ckBusy s u = true → exec (.ckConfig r) s = .next (ended r.val eBusy 0 0 s))
      ∧ (ckBusy s u = false → ckBound s u = [] → exec (.ckConfig r) s = .next (ended r.val stOk (wd ws 2) 0
          (s.modUnit u fun x => { x with cfg := wd ws 2, cfg2 := wd ws 3, seqV := if bitOf (wd ws 0) 8 then x.seqV else 0 })))
      ∧ (ckBusy s u = false → ckBound s u ≠ [] → exec (.ckConfig r) s = .next (((started r.val s).modUnit u fun x => { x with
          cfg := wd ws 2, cfg2 := wd ws 3, seqV := if bitOf (wd ws 0) 8 then x.seqV else 0 }).modCmd r.val fun d =>
            { d with aux := ckBound s u }))))
  ∧ (∀ (s : State) (r : Fin 4) (ws : List Word) (u op : Nat), Accepted s r.val ws → pOpcode ws = 0x61 →
    u = fld (wd ws 1) 0 5 → op = fld (wd ws 1) 5 3 →
    (4 ≤ op → exec (.ckSave r) s = .next (ended r.val eParam 0 0 s))
    ∧ (op = 0 → (s.cr r.val).serial = false → exec (.ckSave r) s = .next (ended r.val stOk 0 0 { s with
        outs := .hostWrite (baseOf (wd ws 2) (wd ws 3)) (bytesOfWords (ckImage (s.unit u))) :: s.outs }))
    ∧ (op = 1 → ckMode (s.unit u).cfg ≠ 0 → (ckMode (s.unit u).cfg ≠ 3 ∨ ckBusy s u = true) →
      exec (.ckRestore r) s = .next (ended r.val eState 0 0 s))
    ∧ (op = 1 → (ckMode (s.unit u).cfg = 0 ∨ (ckMode (s.unit u).cfg = 3 ∧ ckBusy s u = false)) →
      ((s.cr r.val).serial = false → exec (.ckRestore r) s = .next ((started r.val s).modCmd r.val fun d => { d with dma := true })))
    ∧ (∀ fault, op = 2 → (ckMode (s.unit u).cfg ≠ 3 → exec (.ckFeedHost r fault) s = .next (ended r.val eState 0 0 s))
      ∧ (ckMode (s.unit u).cfg = 3 → (s.unit u).job ≠ none ∨ ckFeedWaits s u r.val = true → exec (.ckFeedHost r fault) s = .next (ended r.val eBusy 0 0 s))
      ∧ (ckMode (s.unit u).cfg = 3 → (s.unit u).job = none → ckFeedWaits s u r.val = false → fld (wd ws 4) 0 16 = 0 →
        exec (.ckFeedHost r fault) s = .next (ended r.val eParam 0 0 s))
      ∧ (ckMode (s.unit u).cfg = 3 → (s.unit u).job = none → ckFeedWaits s u r.val = false → fld (wd ws 4) 0 16 ≠ 0 → (s.cr r.val).serial = false →
        exec (.ckFeedHost r fault) s = .next ((started r.val s).modCmd r.val fun d => { d with aux := [0, b1 fault], dma := true })))
    ∧ (op = 3 → ckMode (s.unit u).cfg ≠ 3 → exec (.ckFeedQueue r) s = .next (ended r.val eState 0 0 s))
    ∧ (op = 3 → ckMode (s.unit u).cfg = 3 → (s.unit u).job = none → ckFeedWaits s u r.val = false → fld (wd ws 3) 0 16 ≠ 0 →
      queueExists s (fld (wd ws 2) 0 8) = true → (s.queue (fld (wd ws 2) 0 8)).consumer = 4 →
      queueExists s (fld (wd ws 2) 8 8) = true → exec (.ckFeedQueue r) s = .next ((started r.val s).modUnit u fun x => { x with
        job := some { ring := r.val, inQ := fld (wd ws 2) 0 8, outQ := fld (wd ws 2) 8 8, dropFail := bitOf (wd ws 2) 16,
                      noSeq := bitOf (wd ws 2) 17, left := fld (wd ws 3) 0 16, passed := 0, failed := 0, hand := none, eng := false } })))
  ∧ (∀ (s : State) (r : Fin 4) (ws data : List Word) (u : Nat) (w : Nat → Word) (cmd : Instr),
    (cmd = .ckRestore r ∧ Accepted s r.val ws ∧ pOpcode ws = 0x61 ∧ fld (wd ws 1) 5 3 = 1 ∧ u = fld (wd ws 1) 0 5
        ∧ (ckMode (s.unit u).cfg = 0 ∨ (ckMode (s.unit u).cfg = 3 ∧ ckBusy s u = false)) ∧ (s.cr r.val).serial = true
        ∧ addrOk s r.val (wd ws 2) (wd ws 3) 32 = true ∧ w = wd (wordsOf (stgRead s (wd ws 2).toNat 32) 8)
      ∨ cmd = .dmaReadDone r (.good data) ∧ dmaWaits s r.val = true ∧ hostIdle s = true ∧ slotBad s .hostDma = none
        ∧ fld (pkt s r.val 0) 0 8 = 0x61 ∧ fld (pkt s r.val 1) 5 3 = 1 ∧ u = fld (pkt s r.val 1) 0 5
        ∧ w = wd (wordsOf (bytesOfWords data) 8)) →
    (fld (w 2) 0 2 ≠ ckPoly (s.unit u).cfg → exec cmd s = .next (ended r.val eParam 0 0 s))
    ∧ (fld (w 2) 0 2 = ckPoly (s.unit u).cfg → exec cmd s = .next (ended r.val stOk 0 0
        (s.modUnit u fun x => { x with
          run := w 0, cnt := (w 1).toNat, seqV := fld (w 3) 0 16
          seqs := (List.range 16).map fun k => (k, fld (w (4 + k / 4)) (8 * (k % 4)) 8) }))))
  ∧ (∀ (s : State) (r : Fin 4) (ws data : List Word) (u p reg : Nat) (bytes : List Byte) (cmd : Instr),
    (cmd = .ckFeedHost r false ∧ Accepted s r.val ws ∧ pOpcode ws = 0x61 ∧ fld (wd ws 1) 5 3 = 2 ∧ u = fld (wd ws 1) 0 5
        ∧ ckMode (s.unit u).cfg = 3 ∧ (s.unit u).job = none ∧ ckFeedWaits s u r.val = false ∧ fld (wd ws 4) 0 16 ≠ 0
        ∧ (s.cr r.val).serial = true ∧ addrOk s r.val (wd ws 2) (wd ws 3) (fld (wd ws 4) 0 16) = true
        ∧ bytes = stgRead s (wd ws 2).toNat (fld (wd ws 4) 0 16)
      ∨ cmd = .dmaReadDone r (.good data) ∧ dmaWaits s r.val = true ∧ hostIdle s = true ∧ slotBad s .hostDma = none
        ∧ fld (pkt s r.val 0) 0 8 = 0x61 ∧ fld (pkt s r.val 1) 5 3 = 2 ∧ u = fld (pkt s r.val 1) 0 5 ∧ ws = packetOf s r.val
        ∧ (∀ d, (s.cr r.val).cmd = some d → d.aux.getD 1 0 = 0) ∧ bytes = (bytesOfWords data).take (fld (wd ws 4) 0 16)) →
    ckEngBad s false = false → p = ckPoly (s.unit u).cfg →
    reg = ckFold p (if bitOf (wd ws 0) 8 then ckInit p else ckShow p ((s.unit u).run.toNat % 2 ^ ckWidth p))
      ((if bitOf (wd ws 0) 8 && !bitOf (wd ws 0) 10 then ckPreamble (fld (s.unit u).cfg2 0 16) (byteOf (wd ws 4) 2) else []) ++ bytes) →
    ∃ t, exec cmd s = .next t ∧ (t.unit u).run = w32 (ckShow p reg)
      ∧ (bitOf (wd ws 0) 9 = false → EndedIn t r.val stOk (w32 (ckShow p reg)) 0)
      ∧ (bitOf (wd ws 0) 9 = true → ckFinal p reg = (wd ws 5).toNat →
        EndedIn t r.val stOk (w32 (ckFinal p reg)) 0 ∧ (t.unit u).last = ckPass)
      ∧ (bitOf (wd ws 0) 9 = true → ckFinal p reg ≠ (wd ws 5).toNat →
        EndedIn t r.val eCheck (w32 (ckFinal p reg)) 0x10 ∧ (t.unit u).last = ckFail))
  ∧ (∀ (s : State) (r : Fin 4) (k : HlKind) (before : List Word) (u j : Nat) (ws : List Word) (cmd : Instr), dmaWaits s r.val = true →
    fld (pkt s r.val 0) 0 8 = 0x61 → fld (pkt s r.val 1) 5 3 = 2 → u = fld (pkt s r.val 1) 0 5 → ws = packetOf s r.val →
    j = Nat.min (bytesOfWords before).length (fld (wd ws 4) 0 16) → classMapOf s.vx.classes 37 ≠ 3 →
    (cmd = .dmaReadDone r (.bad k before) ∧ hostIdle s = true ∨ cmd = .dmaCompletionTimeout r before ∧ k = .cplTimeout) →
    ∃ t, exec cmd s = .next t ∧ EndedIn t r.val (dmaStatus k) (w32 j) (w32 (hlCode k)) ∧ bitOf64 t.vx.stat 37 = true
      ∧ (t.unit u).run = (if j = 0 then (s.unit u).run
          else w32 (ckShow (ckPoly (s.unit u).cfg) (feedReg (s.unit u) ws (bytesOfWords before)))))
  ∧ (∀ (s : State) (u : Fin 32) (fault : Bool),
    (ckTurn s ≠ some u.val → exec (.ckFeedItem u fault) s = .next s)
    ∧ (s.pw.awake = true → ckTurn s = some u.val → slotBad s .check = none →
    (∀ j, (s.unit u.val).job = some j → inProgress s j.ring = false →
      ∃ t, exec (.ckFeedItem u fault) s = .next t ∧ (t.unit u.val).job = none)
    ∧ (∀ j, (s.unit u.val).job = some j → inProgress s j.ring = true → j.hand = none → headItem s j.inQ = none →
      ∃ t, exec (.ckFeedItem u fault) s = .next t ∧ (t.unit u.val).job = none
        ∧ EndedIn t j.ring (if j.eng then eCheck else stOk) (w32 j.passed) (w32 j.failed))
    ∧ (∀ j i it x, (s.unit u.val).job = some j → inProgress s j.ring = true → j.hand = none → headItem s j.inQ = some i →
      s.pool.linkBad = [] → it = readItem s i.cells → x = s.unit u.val → ckEngBad s fault = false →
      (ckShort x.cfg x.cfg2 it.data.length = true → ∃ t, exec (.ckFeedItem u fault) s = .next t
        ∧ (t.unit u.val).last = ckFail ∧ (t.unit u.val).reason = 3)
      ∧ (ckShort x.cfg x.cfg2 it.data.length = false →
        ∀ v, v = ckValue x.cfg x.cfg2 (ckDataId x.cfg x.cfg2 (fld (wd it.words 1) 0 29)) (ckSeqByte x.cfg x.cfg2 it.data) it.data →
        (v ≠ ckCarried x.cfg it.data → ∃ t, exec (.ckFeedItem u fault) s = .next t
          ∧ (t.unit u.val).last = ckFail ∧ (t.unit u.val).reason = 1 ∧ (t.unit u.val).mism = satInc 0xFFFF x.mism)
        ∧ (v = ckCarried x.cfg it.data → (j.noSeq = true ∨ ckSeqPasses x (ckSeqWin x.cfg2) (fld (wd it.words 1) 0 29 % 16)
            (ckSeqByte x.cfg x.cfg2 it.data).toNat = true) → ∃ t, exec (.ckFeedItem u fault) s = .next t
          ∧ (t.unit u.val).last = ckPass ∧ (t.unit u.val).reason = 0 ∧ (t.unit u.val).passes = wrapInc x.passes)))))

/-! ## Power (chapter 15) -/

/-- Network sleep (R427 to R433, R437, R438): a ballot opens with the next number and a SLEEP_PREPARE due on each of its channels,
is READY or committed at its window's end, with a SLEEP_COMMIT due on each, and ends by a reason, a timeout, a lapse or its delay;
the awake timer opens one by itself; reasons are held and cleared, and while one holds KEEP_AWAKE goes out; the wake configuration
and DOZE are taken. The model's choices in it: log entries 29, 30 and 157. -/
def Obligations.NetworkSleep : Prop :=
  (∀ (s : State) (r : Fin 4) (ws : List Word) (chans : List Nat) (window delay : Nat), Accepted s r.val ws → pOpcode ws = 0x78 →
    chans = ((List.range 16).filter fun n =>
      (if fld (wd ws 1) 0 16 = 0 then ballotMask s else fld (wd ws 1) 0 16).testBit n) →
    window = (if fld (wd ws 2) 0 16 = 0 then fld s.pw.ballotReg 16 16 else fld (wd ws 2) 0 16) →
    delay = (if fld (wd ws 2) 16 16 = 0 then fld s.pw.ballot2 0 16 else fld (wd ws 2) 16 16) →
    ((s.pw.ballot ≠ 0 ∨ isStandby s = true ∨ ∃ n ∈ chans, (s.chan n).state ≠ .active ∨ bdpEn s n = false) →
      exec (.pwSleepPrepare r) s = .next (ended r.val eState 0 0 s))
    ∧ (s.pw.ballot = 0 → isStandby s = false → (∀ n ∈ chans, (s.chan n).state = .active ∧ bdpEn s n = true) →
      ((window < 5 ∨ chans = []) → exec (.pwSleepPrepare r) s = .next (ended r.val eParam 0 0 s))
      ∧ (5 ≤ window → chans ≠ [] → ∃ t, exec (.pwSleepPrepare r) s = .next t
          ∧ t.ret.ballotNo = (if 0xFFFF ≤ s.ret.ballotNo then 1 else s.ret.ballotNo + 1) ∧ t.pw.ballotNo = t.ret.ballotNo
          ∧ (reasonsHeld s = [] → t.pw.ballot = 1 ∧ t.pw.bal = some {
                chans := chans, extra := [], window := window, delay := delay, cause := 0, auto := bitOf (wd ws 0) 8
                sent := [], ring := some r.val, ring2 := none }
              ∧ ∀ n ∈ chans, bdpSends s n = true → dueOf t n kPrepare = some {
                ch := n, kind := kPrepare, aux := 0, words := [packW [(0, 16, t.ret.ballotNo), (16, 16, window)]] })
          ∧ (reasonsHeld s ≠ [] → t.pw.ballot = 0 ∧ t.pw.bal = none ∧ inProgress t r.val = false))))
  ∧ (∀ (s : State) (r : Fin 4) (ws : List Word) (no : Nat), Accepted s r.val ws → pOpcode ws = 0x79 → no = fld (wd ws 1) 0 16 →
    (s.pw.bal = none → exec (.pwSleepCommit r) s = .next (ended r.val
      (if s.pw.lapsed = no ∧ no ≠ 0 then eTimeout else eNotFound) (w32 no) 0 s))
    ∧ (∀ b, s.pw.bal = some b → (s.pw.ballot ≠ 2 ∨ s.pw.ballotNo ≠ no) →
      exec (.pwSleepCommit r) s = .next (ended r.val eNotFound (w32 no) 0 s))
    ∧ (∀ b, s.pw.bal = some b → s.pw.ballot = 2 → s.pw.ballotNo = no → ∃ t, exec (.pwSleepCommit r) s = .next t
        ∧ t.pw.ballot = 3 ∧ inProgress t r.val = false
        ∧ (b.extra = [] → ∀ n ∈ b.chans, bdpSends s n = true → dueOf t n kCommit = some {
            ch := n, kind := kCommit, aux := 0, words := [packW [(0, 16, no), (16, 16, b.delay)]] })))
  ∧ (∀ (s : State),
    (s.pw.bal = none → exec .ballotWindowEnd s = .next s ∧ exec .ballotSendTimeout s = .next s ∧ exec .ballotDelayEnd s = .next s)
    ∧ (s.pw.ballot ≠ 2 → exec .ballotLapse s = .next s)
    ∧ (∀ b, s.pw.bal = some b →
      (s.pw.ballot = 1 → (∀ n ∈ b.chans, n ∈ b.sent) → ∃ t, exec .ballotWindowEnd s = .next t
        ∧ t.pw.ballot = (if b.auto then 3 else 2) ∧ (∀ r, b.ring = some r → inProgress t r = false)
        ∧ (b.auto = true → b.extra = [] → ∀ n ∈ b.chans, bdpSends s n = true → dueOf t n kCommit = some {
            ch := n, kind := kCommit, aux := 0, words := [packW [(0, 16, s.pw.ballotNo), (16, 16, b.delay)]] }))
      ∧ (s.pw.ballot = 1 → (∃ n ∈ b.chans, n ∉ b.sent) → exec .ballotWindowEnd s = .next s
        ∧ ∃ t, exec .ballotSendTimeout s = .next t ∧ t.pw.ballot = 0 ∧ t.pw.bal = none)
      ∧ (s.pw.ballot = 2 → ∃ t, exec .ballotLapse s = .next t ∧ t.pw.ballot = 0 ∧ t.pw.lapsed = s.pw.ballotNo)
      ∧ (s.pw.ballot = 3 → ∃ t, exec .ballotDelayEnd s = .next t ∧ t.pw.ballot = 0 ∧ t.pw.bal = none))
    ∧ (s.pw.committed = false → exec .groupSleepDelayEnd s = .next s)
    ∧ (s.pw.committed = true → ∃ t, exec .groupSleepDelayEnd s = .next t ∧ t.pw.committed = false)
    ∧ (ballotMask s = 0 ∨ isStandby s = true ∨ s.vx.safe = true ∨ s.pw.ballot ≠ 0 ∨ s.pw.awake = false ∨ reasonsHeld s ≠ [] →
      exec .awakeTimerExpiry s = .next s)
    ∧ (∀ n, ballotMask s ≠ 0 → isStandby s = false → s.vx.safe = false → s.pw.ballot = 0 →
      s.pw.awake = true → reasonsHeld s = [] → n < 16 → inBallotMask s n = true → ballotEligible s n = true →
      ∃ t, exec .awakeTimerExpiry s = .next t ∧ t.pw.ballot = 1 ∧ t.pw.remaining = 0 ∧ (t.pw.bal.map (·.cause)) = some 1)
    ∧ (reasonsHeld s = [] → exec .keepAwakeInterval s = .next s)
    ∧ (∀ code ch rest, reasonsHeld s = (code, ch) :: rest → ∃ t, exec .keepAwakeInterval s = .next t
        ∧ ∀ n, n < 16 → inBallotMask s n = true → asleep s n = false → bdpSends s n = true →
          dueOf t n kKeepAwake = some { ch := n, kind := kKeepAwake, aux := 0
                                        words := [packW [(0, 8, code), (8, 4, ch), (16, 16, 0)]] }))
  ∧ (∀ (s : State) (r : Fin 4) (ws : List Word), Accepted s r.val ws →
    (pOpcode ws = 0x7A → bitOf (wd ws 1) 4 = true → pwGlobalOk (wd ws 2) (wd ws 3) (wd ws 4) (wd ws 5) = false →
      exec (.pwWakeConfig r) s = .next (ended r.val eParam (pwCfg s) 0 s))
    ∧ (pOpcode ws = 0x7A → bitOf (wd ws 1) 4 = true → pwGlobalOk (wd ws 2) (wd ws 3) (wd ws 4) (wd ws 5) = true →
      (maskBusy s (wd ws 3) = true → exec (.pwWakeConfig r) s = .next (ended r.val eState (pwCfg s) 0 s))
      ∧ (maskBusy s (wd ws 3) = false → exec (.pwWakeConfig r) s = .next (ended r.val stOk
          (putFld (putFld (wd ws 2) 8 8 0) 8 8 s.pw.appCodes.length) 0 (wakeTidy { s with pw := { s.pw with
            cfg := putFld (wd ws 2) 8 8 0, ballotReg := wd ws 3, ballot2 := wd ws 4, timer := wd ws 5 } }))))
    ∧ (∀ n, pOpcode ws = 0x7A → bitOf (wd ws 1) 4 = false → n = fld (wd ws 1) 0 4 →
      (chWakeOk (wd ws 2) (wd ws 3) = false → exec (.pwWakeConfig r) s = .next (ended r.val eParam (chWake s n) 0 s))
      ∧ (chWakeOk (wd ws 2) (wd ws 3) = true → bitOf (wd ws 0) 8 = false → exec (.pwWakeConfig r) s = .next
          (ended r.val stOk (wd ws 2) 0 { s with pw := { s.pw with
            chWake := mset s.pw.chWake n (wd ws 2), chConf := mset s.pw.chConf n (wd ws 3) } })))
    ∧ (isPwMode (· == 1) ws = true → exec (.dozeOn r) s = .next (ended r.val stOk (pwStat { s with pw := { s.pw with doze := true } })
        0 { s with pw := { s.pw with doze := true } }))
    ∧ (pOpcode ws = 0x7B → fld (wd ws 1) 0 3 = 0 → exec (.dozeOff r) s = .next (ended r.val stOk
        (pwStat { s with pw := { s.pw with doze := false } }) 0 { s with pw := { s.pw with doze := false } }))
    ∧ (pOpcode ws = 0x7B → 6 ≤ fld (wd ws 1) 0 3 → exec (.dozeOff r) s = .next (ended r.val eParam (pwStat s) 0 s))
    ∧ (∀ c, c = fld (wd ws 2) 0 8 →
      (reasonCodeOk c = false → (isPwMode (· == 4) ws = true → exec (.reasonSet r) s = .next (ended r.val eParam (pwStat s) 0 s))
        ∧ (isPwMode (· == 5) ws = true → exec (.reasonClear r) s = .next (ended r.val eParam (pwStat s) 0 s)))
      ∧ (isPwMode (· == 4) ws = true → reasonCodeOk c = true → ∃ t, exec (.reasonSet r) s = .next t
          ∧ inProgress t r.val = false ∧ (if c = 2 then t.pw.hostHeld = true else c ∈ t.pw.appCodes))
      ∧ (isPwMode (· == 5) ws = true → reasonCodeOk c = true → ∃ t, exec (.reasonClear r) s = .next t
          ∧ inProgress t r.val = false ∧ (if c = 2 then t.pw.hostHeld = false else c ∉ t.pw.appCodes))))

/-- Power modes and wakes (R415 to R417, R419, R421 to R426, R436): entry is refused in R419's order, in the safe state, with a
status bit of class 2 and with an open ballot, otherwise every fetched
command ends and the mode is being entered; its completion writes the completions that wait and stores the time base; exit locks GL_KEY and serves the latch; a
wake is latched, or served in RUN; a false wake is counted and its channel put back to sleep. The model's choices in it: log
entries 28, 29 and 161. -/
def Obligations.PowerModes : Prop :=
  (∀ (s : State) (r : Fin 4) (ws : List Word) (hib : Bool) (c : Instr), Accepted s r.val ws →
    (hib = false ∧ isPwMode (· == 2) ws = true ∧ c = .pwModeSleep r
      ∨ hib = true ∧ isPwMode (· == 3) ws = true ∧ c = .pwModeHibernate r) →
    (s.vx.safe = true → entryRefused s = eFault)
    ∧ (∀ i, s.vx.safe = false → i < 64 → bitOf64 s.vx.stat i = true → classMapOf s.vx.classes i = 2 → entryRefused s = eState)
    ∧ (s.vx.safe = false → (∀ i, i < 64 → bitOf64 s.vx.stat i = true → classMapOf s.vx.classes i ≠ 2) →
      entryRefused s = if s.pw.ballot = 0 then 0 else eBusy)
    ∧ (entryRefused s ≠ 0 → exec c s = .next (ended r.val (entryRefused s) (pwStat s) 0 s))
    ∧ (entryRefused s = 0 → ∃ t, exec c s = .next t ∧ t.pw.mode = .entering hib ∧ ∀ k, k < 4 → inProgress t k = false))
  ∧ (∀ (s : State),
    (inService s = false ∨ s.pw.awake = false ∨ sleepCondition s = false → exec .deviceSleepEntry s = .next s)
    ∧ (inService s = true → s.pw.awake = true → sleepCondition s = true → ∃ t, exec .deviceSleepEntry s = .next t
        ∧ t.pw.mode = .entering (fld s.pw.cfg 0 2 == 2))
    ∧ ((∀ hib, s.pw.mode ≠ .entering hib) → exec .entryComplete s = .next s ∧ ∀ k, exec (.entryTimeout k) s = .next s)
    ∧ (∀ hib d, s.pw.mode = .entering hib → d = drainPosted s →
      (∃ t, exec .entryComplete s = .next t ∧ t.ret.time = d.tm.now ∧ t.pool.owner = [] ∧ t.tg.emitQ = []
        ∧ (∀ c < 512, (t.ctx c).frame = none) ∧ t.sq.stgCells = 0
        ∧ t.pw.mode = (if hib then .hibernate else if d.pw.latch ≠ 0 then .waking else .sleep)
        ∧ t.pw.pwrHold = (!hib || decide (d.pw.latch ≠ 0)))
      ∧ ∀ k : Fin 5, ∃ t, exec (.entryTimeout k) s = .next t ∧ bitOf64 t.vx.stat 39 = true
          ∧ (k.val < 3 → FaultSide { s with pw := { s.pw with mode := .run } } t)
          ∧ (3 ≤ k.val → FaultSide { s with pw := { s.pw with mode := .run }, tg := t.tg } t ∧ t.tg.emitQ = []
              ∧ ∀ c < 512, (t.ctx c).frame = none))
    ∧ (∀ (ticks : Nat) (bad : List (Fin 128)),
      (s.pw.mode ≠ .waking → exec (.exitComplete ticks bad) s = .next s)
      ∧ (s.pw.mode = .waking → ∃ t, exec (.exitComplete ticks bad) s = .next t ∧ t.pw.mode = .run ∧ t.gl.unlocked = false
          ∧ (bad = [] → t.pw.wake = w32 (s.pw.latch % 2 ^ 19)
            ∧ t.tm.now = BitVec.ofNat 64 (s.ret.time.toNat + ticks * 1953125 / 64)))))
  ∧ (∀ (s : State) (ch : Fin 16),
    (bitOf (chWake s ch.val) 0 = false ∨ asleep s ch.val = false ∨ (s.chan ch.val).state = .safe ∨ s.vx.safe = true
      ∨ s.pw.mode = .hibernate → exec (.busWake ch) s = .next s)
    ∧ (bitOf (chWake s ch.val) 0 = true → asleep s ch.val = true → (s.chan ch.val).state ≠ .safe → s.vx.safe = false →
      (s.pw.mode = .sleep → ∃ t, exec (.busWake ch) s = .next t ∧ t.pw.mode = .waking ∧ t.pw.latch.testBit ch.val = true)
      ∧ (s.pw.mode = .run → groupCommitted s ch.val = false → ∃ t, exec (.busWake ch) s = .next t
          ∧ (t.pw.confirm.find? fun e => e.1 == ch.val).isSome = true))
    ∧ (bitOf s.pw.cfg 2 = false → exec .hostWakePin s = .next s)
    ∧ (bitOf s.pw.cfg 2 = true → s.pw.mode = .sleep → ∃ t, exec .hostWakePin s = .next t ∧ t.pw.mode = .waking
        ∧ t.pw.latch.testBit 16 = true)
    ∧ (fld s.pw.timer 0 16 = 0 ∨ (s.pw.mode ≠ .sleep ∧ s.pw.mode ≠ .hibernate) → exec .wakeTimer s = .next s)
    ∧ (fld s.pw.timer 0 16 ≠ 0 → s.pw.mode = .sleep → exec .wakeTimer s = .next { s with pw := { s.pw with
        latch := if s.pw.latch.testBit 17 then s.pw.latch else s.pw.latch + 2 ^ 17, mode := .waking } })
    ∧ ((s.pw.confirm.find? fun e => e.1 == ch.val) = none → exec (.confirmTimeout ch) s = .next s)
    ∧ (∀ g, (s.pw.confirm.find? fun e => e.1 == ch.val) = some g → ∃ t, exec (.confirmTimeout ch) s = .next t
        ∧ mget 0 t.ret.fwCount ch.val = satInc 0xFFFF (mget 0 s.ret.fwCount ch.val)
        ∧ (t.pw.confirm.find? fun e => e.1 == ch.val) = none)
    ∧ (s.pw.winOpen.contains ch.val = false → exec (.fwWindowClose ch) s = .next s)
    ∧ (s.pw.winOpen.contains ch.val = true → exec (.fwWindowClose ch) s = .next { s with pw := { s.pw with
        winOpen := s.pw.winOpen.filter (· != ch.val)
        filtLong := if mget 0 s.pw.winCount ch.val = 0 then s.pw.filtLong.filter (· != ch.val) else s.pw.filtLong
        winCount := mdel s.pw.winCount ch.val } }))

/-! ## The margin planner (chapter 17) -/

/-- The margin planner (R458, R463, R467, R468, R470, R475): a cycle's end closes its records, which the planner's turn then has to
write; waiting steps, or a waiting restoration in place of them, are applied between frames, and not in the safe state; MP_REPORT
writes records, FOLD takes the values in force as the plan, REVERT restores it, NOM_SP sets the sample point of a STOPPED channel.
The model's choices in it: log entries 92, 93, 115 and 149. -/
def Obligations.MarginPlanner : Prop :=
  (∀ (s : State) (r : Fin 4) (ws : List Word) (n first count : Nat) (l : List (Nat × Nat × Hist)), Accepted s r.val ws →
    pOpcode ws = 0x7C → n = fld (wd ws 1) 0 4 → first = fld (wd ws 4) 0 8 → count = fld (wd ws 4) 8 9 →
    l = ((recordsOf s.mp.last n).filter fun e =>
      (e.1 == 256 || (decide (first ≤ e.1) && decide (e.1 < first + count))) && e.2.2.count != 0) →
    ((count = 0 ∨ 256 < first + count) → exec (.mpReport r) s = .next (ended r.val eParam 0 0 s))
    ∧ (count ≠ 0 → first + count ≤ 256 → (s.cr r.val).serial = false → bitOf (wd ws 0) 8 = false →
      exec (.mpReport r) s = .next (ended r.val stOk (mpStat s n) (w32 l.length) { s with
        outs := .hostWrite (baseOf (wd ws 2) (wd ws 3)) (bytesOfWords (l.flatMap (reportWords s n))) :: s.outs }))
    ∧ (count ≠ 0 → first + count ≤ 256 → (s.cr r.val).serial = false → bitOf (wd ws 0) 8 = true → ∃ t,
      exec (.mpReport r) s = .next t ∧ EndedIn t r.val stOk (mpStat s n) (w32 l.length)
        ∧ ∀ e ∈ recordsOf t.mp.last n, e.1 ≠ 256 ∧ ¬ (first ≤ e.1 ∧ e.1 < first + count)))
  ∧ (∀ (s : State) (r : Fin 4) (ws : List Word) (n : Nat), Accepted s r.val ws → pOpcode ws = 0x7D → n = fld (wd ws 1) 0 4 →
    (fld (wd ws 2) 0 2 = 3 → exec (.mpFold r) s = .next (ended r.val eParam 0 0 s))
    ∧ (∀ plan, fld (wd ws 2) 0 2 = 0 → plan = packW ((List.range 4).map fun i => (planBit i, 8, itemValue (s.chan n) i)) →
      ∃ t, exec (.mpFold r) s = .next t ∧ t.mp.chPlan = mset s.mp.chPlan n plan ∧ t.chans = s.chans
        ∧ EndedIn t r.val stOk plan 0)
    ∧ (fld (wd ws 2) 0 2 = 1 → frameOnWire s n = true → exec (.mpRevert r) s = .next (ended r.val stOk (mpPlan s n) 0
        { s with mp := { s.mp with reverts := if s.mp.reverts.contains n then s.mp.reverts else s.mp.reverts ++ [n] } }))
    ∧ (fld (wd ws 2) 0 2 = 1 → frameOnWire s n = false → ∃ t, exec (.mpRevert r) s = .next t
        ∧ EndedIn t r.val stOk (mpPlan s n) 0 ∧ (∀ e ∈ t.mp.steps, e.ch ≠ n) ∧ t.mp.reverts.contains n = false
        ∧ t.chan n = (List.range 4).foldl (fun c i => setItem i (itemPlan s n i) c) (s.chan n)
        ∧ ∀ m, m ≠ n → t.chan m = s.chan m)
    ∧ (fld (wd ws 2) 0 2 = 2 → (s.chan n).state ≠ .stopped → exec (.mpNomSp r) s = .next (ended r.val eState 0 0 s))
    ∧ (∀ sp, fld (wd ws 2) 0 2 = 2 → (s.chan n).state = .stopped → sp = fld (mget 0#32 s.mp.chRec n) 16 9 →
      (sp = 0 → exec (.mpNomSp r) s = .next (ended r.val eNotFound 0 0 s))
      ∧ (sp ≠ 0 → exec (.mpNomSp r) s = .next (ended r.val stOk (mpPlan s n) 0 (s.modChan n fun c => { c with
          nom := putFld (putFld c.nom 10 8 (sp - 2)) 18 7 (fld c.nom 10 8 + fld c.nom 18 7 - (sp - 2)) })))))
  ∧ (∀ (s : State) (x : MpSample),
    (bitOf s.mp.cfg 0 = false ∨ s.vx.safe = true ∨ s.pw.awake = false → exec (.planningCycleEnd x) s = .next s)
    ∧ (bitOf s.mp.cfg 0 = true → s.vx.safe = false → s.pw.awake = true → ∃ t, exec (.planningCycleEnd x) s = .next t
        ∧ t.mp.last = s.mp.cur ∧ t.mp.cur = [] ∧ t.mp.delays = [] ∧ t.mp.senders = s.mp.senders ∧ t.mp.toStore = true))
  ∧ (∀ (s : State) (ch : Fin 16),
    (s.vx.safe = true ∨ s.pw.awake = false ∨ frameOnWire s ch.val = true → exec (.mpStepApply ch) s = .next s)
    ∧ (s.vx.safe = false → s.pw.awake = true → frameOnWire s ch.val = false → s.mp.reverts.contains ch.val = false →
      ∃ t, exec (.mpStepApply ch) s = .next t ∧ (t.mp.steps = s.mp.steps.filter fun e => e.ch != ch.val)
        ∧ t.chan ch.val = (s.mp.steps.filter fun e => e.ch == ch.val).foldl (fun c e => setItem e.item e.value c) (s.chan ch.val)
        ∧ ∀ m, m ≠ ch.val → t.chan m = s.chan m)
    ∧ (s.vx.safe = false → s.pw.awake = true → frameOnWire s ch.val = false → s.mp.reverts.contains ch.val = true →
      ∃ t, exec (.mpStepApply ch) s = .next t ∧ (t.mp.steps = s.mp.steps.filter fun e => e.ch != ch.val)
        ∧ t.mp.reverts.contains ch.val = false
        ∧ t.chan ch.val = (List.range 4).foldl (fun c i => setItem i (itemPlan s ch.val i) c) (s.chan ch.val)
        ∧ ∀ m, m ≠ ch.val → t.chan m = s.chan m))
end

