-- ==== Sys2Proof/Laws/Bits.lean ====
section
/-!
SUPPORT. The laws of the sparse tables and of the byte memory: reading after writing, writing twice, and the canonical form of
the memory, which every memory operation keeps.
-/
namespace Sys2Proof.Machine

/-! ## Tables -/

/-- The entry just written reads back. -/
@[simp] theorem mget_mset_same {α : Type} (d : α) (m : List (Nat × α)) (i : Nat) (v : α) :
    mget d (mset m i v) i = v := by
  induction m with
  | nil => simp [mset, mget]
  | cons e t ih =>
    obtain ⟨k, w⟩ := e
    unfold mset
    split
    · simp [mget]
    · split
      · simp [mget]
      · rename_i h1 h2
        simp [mget, h2, ih]

/-- Another entry reads as before. -/
theorem mget_mset_other {α : Type} (d : α) (m : List (Nat × α)) (i j : Nat) (v : α) (h : j ≠ i) :
    mget d (mset m i v) j = mget d m j := by
  induction m with
  | nil => simp [mset, mget, h]
  | cons e t ih =>
    obtain ⟨k, w⟩ := e
    unfold mset
    split
    · simp [mget, h]
    · split
      · rename_i h1 h2
        subst h2
        simp [mget, h]
      · simp [mget, ih]

/-- An entry read from a table in which one has been written. -/
theorem mget_mset {α : Type} (d : α) (m : List (Nat × α)) (i j : Nat) (v : α) :
    mget d (mset m i v) j = if j = i then v else mget d m j := by
  by_cases h : j = i
  · subst h; simp
  · simp [h, mget_mset_other d m i j v h]

/-- Writing an entry twice leaves the second value. -/
@[simp] theorem mset_mset {α : Type} (m : List (Nat × α)) (i : Nat) (v w : α) : mset (mset m i v) i w = mset m i w := by
  induction m with
  | nil => simp [mset]
  | cons e t ih =>
    obtain ⟨k, x⟩ := e
    by_cases h1 : i < k
    · simp [mset, h1]
    · by_cases h2 : i = k
      · simp [mset, h2]
      · simp [mset, h1, h2, ih]

/-- A removed entry reads as the default. -/
@[simp] theorem mget_mdel_same {α : Type} (d : α) (m : List (Nat × α)) (i : Nat) : mget d (mdel m i) i = d := by
  induction m with
  | nil => simp [mdel, mget]
  | cons e t ih =>
    obtain ⟨k, w⟩ := e
    by_cases h : k = i
    · subst h; simpa [mdel] using ih
    · have h' : ¬ i = k := fun e => h e.symm
      simpa [mdel, h, mget, h'] using ih

/-- Removing an entry leaves the others. -/
theorem mget_mdel_other {α : Type} (d : α) (m : List (Nat × α)) (i j : Nat) (h : j ≠ i) :
    mget d (mdel m i) j = mget d m j := by
  induction m with
  | nil => simp [mdel]
  | cons e t ih =>
    obtain ⟨k, w⟩ := e
    by_cases hk : k = i
    · subst hk; simpa [mdel, mget, h] using ih
    · by_cases hj : j = k
      · subst hj; simp [mdel, hk, mget]
      · simpa [mdel, hk, mget, hj] using ih

/-! ## The byte memory -/

/-- The byte just written reads back. -/
@[simp] theorem memGet_memSet_same (m : List Host.Cell) (a : Nat) (v : Byte) : memGet (memSet m a v) a = v := by
  unfold memGet memSet
  split
  · rename_i h; subst h; simp
  · simp

/-- Another byte reads as before. -/
theorem memGet_memSet_other (m : List Host.Cell) (a b : Nat) (v : Byte) (h : b ≠ a) :
    memGet (memSet m a v) b = memGet m b := by
  unfold memGet memSet
  split
  · exact mget_mdel_other _ _ _ _ h
  · exact mget_mset_other _ _ _ _ _ h

/-- The canonical form from a lower bound on. -/
theorem memWfFrom_mono (m : List Host.Cell) (a b : Nat) (h : b ≤ a) (hw : memWfFrom a m = true) : memWfFrom b m = true := by
  cases m with
  | nil => rfl
  | cons e t =>
    obtain ⟨k, v⟩ := e
    simp only [memWfFrom, Bool.and_eq_true, decide_eq_true_eq] at hw ⊢
    exact ⟨⟨Nat.le_trans h hw.1.1, hw.1.2⟩, hw.2⟩

/-- Removing a byte keeps the form. -/
theorem memWfFrom_mdel (m : List Host.Cell) (i : Nat) : ∀ a, memWfFrom a m = true → memWfFrom a (mdel m i) = true := by
  induction m with
  | nil => intro a h; exact h
  | cons e t ih =>
    intro a h
    obtain ⟨k, v⟩ := e
    simp only [memWfFrom, Bool.and_eq_true, decide_eq_true_eq] at h
    by_cases hk : k = i
    · subst hk
      simp only [mdel, List.filter_cons, bne_self_eq_false, Bool.false_eq_true, if_false]
      exact memWfFrom_mono _ (k + 1) a (Nat.le_succ_of_le h.1.1) (ih _ h.2)
    · simp only [mdel, List.filter_cons, bne_iff_ne, ne_eq, hk, not_false_eq_true, if_true, memWfFrom, Bool.and_eq_true,
        decide_eq_true_eq]
      exact ⟨h.1, ih _ h.2⟩

/-- Writing a byte other than 0 keeps the form. -/
theorem memWfFrom_mset (m : List Host.Cell) (i : Nat) (v : Byte) (hv : v ≠ 0#8) :
    ∀ a, a ≤ i → memWfFrom a m = true → memWfFrom a (mset m i v) = true := by
  induction m with
  | nil => intro a ha _; simp [mset, memWfFrom, ha, hv]
  | cons e t ih =>
    intro a ha h
    obtain ⟨k, w⟩ := e
    simp only [memWfFrom, Bool.and_eq_true, decide_eq_true_eq] at h
    unfold mset
    split
    · rename_i h1
      simp only [memWfFrom, Bool.and_eq_true, decide_eq_true_eq]
      exact ⟨⟨ha, hv⟩, ⟨h1, h.1.2⟩, h.2⟩
    · split
      · rename_i h2
        subst h2
        simp only [memWfFrom, Bool.and_eq_true, decide_eq_true_eq]
        exact ⟨⟨ha, hv⟩, h.2⟩
      · rename_i h1 h2
        simp only [memWfFrom, Bool.and_eq_true, decide_eq_true_eq]
        exact ⟨h.1, ih _ (by omega) h.2⟩

/-- A write of one byte keeps the canonical form. -/
@[simp] theorem memSet_wf (m : List Host.Cell) (a : Nat) (v : Byte) (h : Memory.wf m = true) :
    Memory.wf (memSet m a v) = true := by
  unfold memSet
  split
  · exact memWfFrom_mdel _ _ _ h
  · rename_i hv
    exact memWfFrom_mset _ _ _ hv _ (Nat.zero_le _) h

/-- A write of a run of bytes keeps the canonical form. -/
@[simp] theorem memWrite_wf (l : List Byte) : ∀ (m : List Host.Cell) (a : Nat), Memory.wf m = true →
    Memory.wf (memWrite m a l) = true := by
  induction l with
  | nil => intro m a h; exact h
  | cons v t ih => intro m a h; exact ih _ _ (memSet_wf _ _ _ h)

/-- The empty memory is in canonical form. -/
@[simp] theorem memNil_wf : Memory.wf [] = true := rfl

/-! ## Bits of the status words -/

/-- A bit of a 64-bit quantity is the bit of its number. -/
theorem bitOf64_testBit (d : DWord) (j : Nat) : bitOf64 d j = d.toNat.testBit j := by
  simp [bitOf64, Nat.testBit_eq_decide_div_mod_eq, Nat.shiftRight_eq_div_pow]
  rfl

/-- The bits of a number put together from a high part, a bit and a low part. -/
theorem testBit_parts (A c L i j : Nat) (hc : c ≤ 1) (hL : L < 2 ^ i) :
    (2 ^ i * (2 * A + c) + L).testBit j = if j < i then L.testBit j else if j = i then decide (c = 1) else A.testBit (j - i - 1) := by
  rw [Nat.testBit_two_pow_mul_add _ hL]
  split
  · rfl
  · split
    · rename_i h1 h2
      subst h2
      simp only [Nat.sub_self, Nat.testBit_zero]
      have : (2 * A + c) % 2 = c := by omega
      rw [this]
    · have h3 : j - i = (j - i - 1) + 1 := by omega
      rw [h3, Nat.testBit_succ]
      have : (2 * A + c) / 2 = A := by omega
      rw [this]; simp

/-- Bits after one bit has been set or cleared. -/
theorem bitOf64_putBit64 (d : DWord) (i j : Nat) (b : Bool) (hi : i < 64) (hj : j < 64) :
    bitOf64 (putBit64 d i b) j = if j = i then b else bitOf64 d j := by
  have hd : d.toNat < 2 ^ 64 := d.isLt
  have hx : d.toNat = 2 ^ i * (2 * (d.toNat / 2 ^ i / 2) + d.toNat / 2 ^ i % 2) + d.toNat % 2 ^ i := by
    rw [Nat.div_add_mod, Nat.div_add_mod]
  have hf : fld64 d i 1 = d.toNat / 2 ^ i % 2 := by simp [fld64, Nat.shiftRight_eq_div_pow]
  have hc : d.toNat / 2 ^ i % 2 ≤ 1 := by omega
  have hL : d.toNat % 2 ^ i < 2 ^ i := Nat.mod_lt _ (Nat.two_pow_pos i)
  rw [bitOf64_testBit, bitOf64_testBit]
  unfold putBit64
  rw [hf]
  generalize d.toNat / 2 ^ i / 2 = A at hx
  generalize d.toNat / 2 ^ i % 2 = c at hx hc
  generalize d.toNat % 2 ^ i = L at hx hL
  have hb : b1 b ≤ 1 := by cases b <;> decide
  have hn : d.toNat - c * 2 ^ i + b1 b * 2 ^ i = 2 ^ i * (2 * A + b1 b) + L := by
    rw [hx, Nat.mul_add, Nat.mul_add, Nat.mul_comm c, Nat.mul_comm (b1 b)]
    omega
  rw [hn, BitVec.toNat_ofNat, Nat.testBit_mod_two_pow, testBit_parts _ _ _ _ _ hb hL]
  conv => rhs; rw [hx, testBit_parts _ _ _ _ _ hc hL]
  simp only [hj, decide_true, Bool.true_and]
  by_cases h : j = i
  · subst h
    cases b <;> simp [b1]
  · simp [h]
end Sys2Proof.Machine
end

