-- ==== Sys2Proof/Laws/State.lean ====
section
/-!
SUPPORT. What each update of one part of the state leaves in each part: one lemma per field per update.
-/
namespace Sys2Proof.Machine

/-! ### State.emit -/

@[simp] theorem State.emit_sq (s : State) (o : Output) : (s.emit o).sq = s.sq := rfl
@[simp] theorem State.emit_gl (s : State) (o : Output) : (s.emit o).gl = s.gl := rfl
@[simp] theorem State.emit_vx (s : State) (o : Output) : (s.emit o).vx = s.vx := rfl
@[simp] theorem State.emit_pool (s : State) (o : Output) : (s.emit o).pool = s.pool := rfl
@[simp] theorem State.emit_lat (s : State) (o : Output) : (s.emit o).lat = s.lat := rfl
@[simp] theorem State.emit_chans (s : State) (o : Output) : (s.emit o).chans = s.chans := rfl
@[simp] theorem State.emit_tm (s : State) (o : Output) : (s.emit o).tm = s.tm := rfl
@[simp] theorem State.emit_bdp (s : State) (o : Output) : (s.emit o).bdp = s.bdp := rfl
@[simp] theorem State.emit_cd (s : State) (o : Output) : (s.emit o).cd = s.cd := rfl
@[simp] theorem State.emit_tg (s : State) (o : Output) : (s.emit o).tg = s.tg := rfl
@[simp] theorem State.emit_dx (s : State) (o : Output) : (s.emit o).dx = s.dx := rfl
@[simp] theorem State.emit_units (s : State) (o : Output) : (s.emit o).units = s.units := rfl
@[simp] theorem State.emit_pw (s : State) (o : Output) : (s.emit o).pw = s.pw := rfl
@[simp] theorem State.emit_mp (s : State) (o : Output) : (s.emit o).mp = s.mp := rfl
@[simp] theorem State.emit_ret (s : State) (o : Output) : (s.emit o).ret = s.ret := rfl
@[simp] theorem State.emit_boot (s : State) (o : Output) : (s.emit o).boot = s.boot := rfl
@[simp] theorem State.emit_tap (s : State) (o : Output) : (s.emit o).tap = s.tap := rfl
@[simp] theorem State.emit_round (s : State) (o : Output) : (s.emit o).round = s.round := rfl
@[simp] theorem State.emit_ckRound (s : State) (o : Output) : (s.emit o).ckRound = s.ckRound := rfl
@[simp] theorem State.emit_outs (s : State) (o : Output) : (s.emit o).outs = o :: s.outs := rfl
@[simp] theorem State.emit_freeCtr (s : State) (o : Output) : (s.emit o).freeCtr = s.freeCtr := rfl
@[simp] theorem State.emit_pending (s : State) (o : Output) : (s.emit o).pending = s.pending := rfl

/-! ### State.freshTick -/

@[simp] theorem State.freshTick_sq (s : State) : (s.freshTick).sq = s.sq := rfl
@[simp] theorem State.freshTick_gl (s : State) : (s.freshTick).gl = s.gl := rfl
@[simp] theorem State.freshTick_vx (s : State) : (s.freshTick).vx = s.vx := rfl
@[simp] theorem State.freshTick_pool (s : State) : (s.freshTick).pool = s.pool := rfl
@[simp] theorem State.freshTick_lat (s : State) : (s.freshTick).lat = s.lat := rfl
@[simp] theorem State.freshTick_chans (s : State) : (s.freshTick).chans = s.chans := rfl
@[simp] theorem State.freshTick_tm (s : State) : (s.freshTick).tm = s.tm := rfl
@[simp] theorem State.freshTick_bdp (s : State) : (s.freshTick).bdp = s.bdp := rfl
@[simp] theorem State.freshTick_cd (s : State) : (s.freshTick).cd = s.cd := rfl
@[simp] theorem State.freshTick_tg (s : State) : (s.freshTick).tg = s.tg := rfl
@[simp] theorem State.freshTick_dx (s : State) : (s.freshTick).dx = s.dx := rfl
@[simp] theorem State.freshTick_units (s : State) : (s.freshTick).units = s.units := rfl
@[simp] theorem State.freshTick_pw (s : State) : (s.freshTick).pw = s.pw := rfl
@[simp] theorem State.freshTick_mp (s : State) : (s.freshTick).mp = s.mp := rfl
@[simp] theorem State.freshTick_ret (s : State) : (s.freshTick).ret = s.ret := rfl
@[simp] theorem State.freshTick_boot (s : State) : (s.freshTick).boot = s.boot := rfl
@[simp] theorem State.freshTick_tap (s : State) : (s.freshTick).tap = s.tap := rfl
@[simp] theorem State.freshTick_round (s : State) : (s.freshTick).round = s.round := rfl
@[simp] theorem State.freshTick_ckRound (s : State) : (s.freshTick).ckRound = s.ckRound := rfl
@[simp] theorem State.freshTick_outs (s : State) : (s.freshTick).outs = s.outs := rfl
@[simp] theorem State.freshTick_freeCtr (s : State) : (s.freshTick).freeCtr = s.freeCtr + 1 := rfl
@[simp] theorem State.freshTick_pending (s : State) : (s.freshTick).pending = s.pending := rfl

/-! ### State.modSq -/

@[simp] theorem State.modSq_sq (s : State) (f : Sq → Sq) : (s.modSq f).sq = f s.sq := rfl
@[simp] theorem State.modSq_gl (s : State) (f : Sq → Sq) : (s.modSq f).gl = s.gl := rfl
@[simp] theorem State.modSq_vx (s : State) (f : Sq → Sq) : (s.modSq f).vx = s.vx := rfl
@[simp] theorem State.modSq_pool (s : State) (f : Sq → Sq) : (s.modSq f).pool = s.pool := rfl
@[simp] theorem State.modSq_lat (s : State) (f : Sq → Sq) : (s.modSq f).lat = s.lat := rfl
@[simp] theorem State.modSq_chans (s : State) (f : Sq → Sq) : (s.modSq f).chans = s.chans := rfl
@[simp] theorem State.modSq_tm (s : State) (f : Sq → Sq) : (s.modSq f).tm = s.tm := rfl
@[simp] theorem State.modSq_bdp (s : State) (f : Sq → Sq) : (s.modSq f).bdp = s.bdp := rfl
@[simp] theorem State.modSq_cd (s : State) (f : Sq → Sq) : (s.modSq f).cd = s.cd := rfl
@[simp] theorem State.modSq_tg (s : State) (f : Sq → Sq) : (s.modSq f).tg = s.tg := rfl
@[simp] theorem State.modSq_dx (s : State) (f : Sq → Sq) : (s.modSq f).dx = s.dx := rfl
@[simp] theorem State.modSq_units (s : State) (f : Sq → Sq) : (s.modSq f).units = s.units := rfl
@[simp] theorem State.modSq_pw (s : State) (f : Sq → Sq) : (s.modSq f).pw = s.pw := rfl
@[simp] theorem State.modSq_mp (s : State) (f : Sq → Sq) : (s.modSq f).mp = s.mp := rfl
@[simp] theorem State.modSq_ret (s : State) (f : Sq → Sq) : (s.modSq f).ret = s.ret := rfl
@[simp] theorem State.modSq_boot (s : State) (f : Sq → Sq) : (s.modSq f).boot = s.boot := rfl
@[simp] theorem State.modSq_tap (s : State) (f : Sq → Sq) : (s.modSq f).tap = s.tap := rfl
@[simp] theorem State.modSq_round (s : State) (f : Sq → Sq) : (s.modSq f).round = s.round := rfl
@[simp] theorem State.modSq_ckRound (s : State) (f : Sq → Sq) : (s.modSq f).ckRound = s.ckRound := rfl
@[simp] theorem State.modSq_outs (s : State) (f : Sq → Sq) : (s.modSq f).outs = s.outs := rfl
@[simp] theorem State.modSq_freeCtr (s : State) (f : Sq → Sq) : (s.modSq f).freeCtr = s.freeCtr := rfl
@[simp] theorem State.modSq_pending (s : State) (f : Sq → Sq) : (s.modSq f).pending = s.pending := rfl

/-! ### State.modCr -/

@[simp] theorem State.modCr_sq (s : State) (r : Nat) (f : CmdRing → CmdRing) : (s.modCr r f).sq = ({ s.sq with crs := mset s.sq.crs r (f (s.cr r)) } : Sq) := rfl
@[simp] theorem State.modCr_gl (s : State) (r : Nat) (f : CmdRing → CmdRing) : (s.modCr r f).gl = s.gl := rfl
@[simp] theorem State.modCr_vx (s : State) (r : Nat) (f : CmdRing → CmdRing) : (s.modCr r f).vx = s.vx := rfl
@[simp] theorem State.modCr_pool (s : State) (r : Nat) (f : CmdRing → CmdRing) : (s.modCr r f).pool = s.pool := rfl
@[simp] theorem State.modCr_lat (s : State) (r : Nat) (f : CmdRing → CmdRing) : (s.modCr r f).lat = s.lat := rfl
@[simp] theorem State.modCr_chans (s : State) (r : Nat) (f : CmdRing → CmdRing) : (s.modCr r f).chans = s.chans := rfl
@[simp] theorem State.modCr_tm (s : State) (r : Nat) (f : CmdRing → CmdRing) : (s.modCr r f).tm = s.tm := rfl
@[simp] theorem State.modCr_bdp (s : State) (r : Nat) (f : CmdRing → CmdRing) : (s.modCr r f).bdp = s.bdp := rfl
@[simp] theorem State.modCr_cd (s : State) (r : Nat) (f : CmdRing → CmdRing) : (s.modCr r f).cd = s.cd := rfl
@[simp] theorem State.modCr_tg (s : State) (r : Nat) (f : CmdRing → CmdRing) : (s.modCr r f).tg = s.tg := rfl
@[simp] theorem State.modCr_dx (s : State) (r : Nat) (f : CmdRing → CmdRing) : (s.modCr r f).dx = s.dx := rfl
@[simp] theorem State.modCr_units (s : State) (r : Nat) (f : CmdRing → CmdRing) : (s.modCr r f).units = s.units := rfl
@[simp] theorem State.modCr_pw (s : State) (r : Nat) (f : CmdRing → CmdRing) : (s.modCr r f).pw = s.pw := rfl
@[simp] theorem State.modCr_mp (s : State) (r : Nat) (f : CmdRing → CmdRing) : (s.modCr r f).mp = s.mp := rfl
@[simp] theorem State.modCr_ret (s : State) (r : Nat) (f : CmdRing → CmdRing) : (s.modCr r f).ret = s.ret := rfl
@[simp] theorem State.modCr_boot (s : State) (r : Nat) (f : CmdRing → CmdRing) : (s.modCr r f).boot = s.boot := rfl
@[simp] theorem State.modCr_tap (s : State) (r : Nat) (f : CmdRing → CmdRing) : (s.modCr r f).tap = s.tap := rfl
@[simp] theorem State.modCr_round (s : State) (r : Nat) (f : CmdRing → CmdRing) : (s.modCr r f).round = s.round := rfl
@[simp] theorem State.modCr_ckRound (s : State) (r : Nat) (f : CmdRing → CmdRing) : (s.modCr r f).ckRound = s.ckRound := rfl
@[simp] theorem State.modCr_outs (s : State) (r : Nat) (f : CmdRing → CmdRing) : (s.modCr r f).outs = s.outs := rfl
@[simp] theorem State.modCr_freeCtr (s : State) (r : Nat) (f : CmdRing → CmdRing) : (s.modCr r f).freeCtr = s.freeCtr := rfl
@[simp] theorem State.modCr_pending (s : State) (r : Nat) (f : CmdRing → CmdRing) : (s.modCr r f).pending = s.pending := rfl

/-! ### State.modCq -/

@[simp] theorem State.modCq_sq (s : State) (k : Nat) (f : CqRing → CqRing) : (s.modCq k f).sq = ({ s.sq with cqs := mset s.sq.cqs k (f (s.cq k)) } : Sq) := rfl
@[simp] theorem State.modCq_gl (s : State) (k : Nat) (f : CqRing → CqRing) : (s.modCq k f).gl = s.gl := rfl
@[simp] theorem State.modCq_vx (s : State) (k : Nat) (f : CqRing → CqRing) : (s.modCq k f).vx = s.vx := rfl
@[simp] theorem State.modCq_pool (s : State) (k : Nat) (f : CqRing → CqRing) : (s.modCq k f).pool = s.pool := rfl
@[simp] theorem State.modCq_lat (s : State) (k : Nat) (f : CqRing → CqRing) : (s.modCq k f).lat = s.lat := rfl
@[simp] theorem State.modCq_chans (s : State) (k : Nat) (f : CqRing → CqRing) : (s.modCq k f).chans = s.chans := rfl
@[simp] theorem State.modCq_tm (s : State) (k : Nat) (f : CqRing → CqRing) : (s.modCq k f).tm = s.tm := rfl
@[simp] theorem State.modCq_bdp (s : State) (k : Nat) (f : CqRing → CqRing) : (s.modCq k f).bdp = s.bdp := rfl
@[simp] theorem State.modCq_cd (s : State) (k : Nat) (f : CqRing → CqRing) : (s.modCq k f).cd = s.cd := rfl
@[simp] theorem State.modCq_tg (s : State) (k : Nat) (f : CqRing → CqRing) : (s.modCq k f).tg = s.tg := rfl
@[simp] theorem State.modCq_dx (s : State) (k : Nat) (f : CqRing → CqRing) : (s.modCq k f).dx = s.dx := rfl
@[simp] theorem State.modCq_units (s : State) (k : Nat) (f : CqRing → CqRing) : (s.modCq k f).units = s.units := rfl
@[simp] theorem State.modCq_pw (s : State) (k : Nat) (f : CqRing → CqRing) : (s.modCq k f).pw = s.pw := rfl
@[simp] theorem State.modCq_mp (s : State) (k : Nat) (f : CqRing → CqRing) : (s.modCq k f).mp = s.mp := rfl
@[simp] theorem State.modCq_ret (s : State) (k : Nat) (f : CqRing → CqRing) : (s.modCq k f).ret = s.ret := rfl
@[simp] theorem State.modCq_boot (s : State) (k : Nat) (f : CqRing → CqRing) : (s.modCq k f).boot = s.boot := rfl
@[simp] theorem State.modCq_tap (s : State) (k : Nat) (f : CqRing → CqRing) : (s.modCq k f).tap = s.tap := rfl
@[simp] theorem State.modCq_round (s : State) (k : Nat) (f : CqRing → CqRing) : (s.modCq k f).round = s.round := rfl
@[simp] theorem State.modCq_ckRound (s : State) (k : Nat) (f : CqRing → CqRing) : (s.modCq k f).ckRound = s.ckRound := rfl
@[simp] theorem State.modCq_outs (s : State) (k : Nat) (f : CqRing → CqRing) : (s.modCq k f).outs = s.outs := rfl
@[simp] theorem State.modCq_freeCtr (s : State) (k : Nat) (f : CqRing → CqRing) : (s.modCq k f).freeCtr = s.freeCtr := rfl
@[simp] theorem State.modCq_pending (s : State) (k : Nat) (f : CqRing → CqRing) : (s.modCq k f).pending = s.pending := rfl

/-! ### State.modCmd -/

@[simp] theorem State.modCmd_sq (s : State) (r : Nat) (f : Cmd → Cmd) : (s.modCmd r f).sq = ({ s.sq with crs := mset s.sq.crs r { s.cr r with cmd := (s.cr r).cmd.map f } } : Sq) := rfl
@[simp] theorem State.modCmd_gl (s : State) (r : Nat) (f : Cmd → Cmd) : (s.modCmd r f).gl = s.gl := rfl
@[simp] theorem State.modCmd_vx (s : State) (r : Nat) (f : Cmd → Cmd) : (s.modCmd r f).vx = s.vx := rfl
@[simp] theorem State.modCmd_pool (s : State) (r : Nat) (f : Cmd → Cmd) : (s.modCmd r f).pool = s.pool := rfl
@[simp] theorem State.modCmd_lat (s : State) (r : Nat) (f : Cmd → Cmd) : (s.modCmd r f).lat = s.lat := rfl
@[simp] theorem State.modCmd_chans (s : State) (r : Nat) (f : Cmd → Cmd) : (s.modCmd r f).chans = s.chans := rfl
@[simp] theorem State.modCmd_tm (s : State) (r : Nat) (f : Cmd → Cmd) : (s.modCmd r f).tm = s.tm := rfl
@[simp] theorem State.modCmd_bdp (s : State) (r : Nat) (f : Cmd → Cmd) : (s.modCmd r f).bdp = s.bdp := rfl
@[simp] theorem State.modCmd_cd (s : State) (r : Nat) (f : Cmd → Cmd) : (s.modCmd r f).cd = s.cd := rfl
@[simp] theorem State.modCmd_tg (s : State) (r : Nat) (f : Cmd → Cmd) : (s.modCmd r f).tg = s.tg := rfl
@[simp] theorem State.modCmd_dx (s : State) (r : Nat) (f : Cmd → Cmd) : (s.modCmd r f).dx = s.dx := rfl
@[simp] theorem State.modCmd_units (s : State) (r : Nat) (f : Cmd → Cmd) : (s.modCmd r f).units = s.units := rfl
@[simp] theorem State.modCmd_pw (s : State) (r : Nat) (f : Cmd → Cmd) : (s.modCmd r f).pw = s.pw := rfl
@[simp] theorem State.modCmd_mp (s : State) (r : Nat) (f : Cmd → Cmd) : (s.modCmd r f).mp = s.mp := rfl
@[simp] theorem State.modCmd_ret (s : State) (r : Nat) (f : Cmd → Cmd) : (s.modCmd r f).ret = s.ret := rfl
@[simp] theorem State.modCmd_boot (s : State) (r : Nat) (f : Cmd → Cmd) : (s.modCmd r f).boot = s.boot := rfl
@[simp] theorem State.modCmd_tap (s : State) (r : Nat) (f : Cmd → Cmd) : (s.modCmd r f).tap = s.tap := rfl
@[simp] theorem State.modCmd_round (s : State) (r : Nat) (f : Cmd → Cmd) : (s.modCmd r f).round = s.round := rfl
@[simp] theorem State.modCmd_ckRound (s : State) (r : Nat) (f : Cmd → Cmd) : (s.modCmd r f).ckRound = s.ckRound := rfl
@[simp] theorem State.modCmd_outs (s : State) (r : Nat) (f : Cmd → Cmd) : (s.modCmd r f).outs = s.outs := rfl
@[simp] theorem State.modCmd_freeCtr (s : State) (r : Nat) (f : Cmd → Cmd) : (s.modCmd r f).freeCtr = s.freeCtr := rfl
@[simp] theorem State.modCmd_pending (s : State) (r : Nat) (f : Cmd → Cmd) : (s.modCmd r f).pending = s.pending := rfl

/-! ### State.modGl -/

@[simp] theorem State.modGl_sq (s : State) (f : Gl → Gl) : (s.modGl f).sq = s.sq := rfl
@[simp] theorem State.modGl_gl (s : State) (f : Gl → Gl) : (s.modGl f).gl = f s.gl := rfl
@[simp] theorem State.modGl_vx (s : State) (f : Gl → Gl) : (s.modGl f).vx = s.vx := rfl
@[simp] theorem State.modGl_pool (s : State) (f : Gl → Gl) : (s.modGl f).pool = s.pool := rfl
@[simp] theorem State.modGl_lat (s : State) (f : Gl → Gl) : (s.modGl f).lat = s.lat := rfl
@[simp] theorem State.modGl_chans (s : State) (f : Gl → Gl) : (s.modGl f).chans = s.chans := rfl
@[simp] theorem State.modGl_tm (s : State) (f : Gl → Gl) : (s.modGl f).tm = s.tm := rfl
@[simp] theorem State.modGl_bdp (s : State) (f : Gl → Gl) : (s.modGl f).bdp = s.bdp := rfl
@[simp] theorem State.modGl_cd (s : State) (f : Gl → Gl) : (s.modGl f).cd = s.cd := rfl
@[simp] theorem State.modGl_tg (s : State) (f : Gl → Gl) : (s.modGl f).tg = s.tg := rfl
@[simp] theorem State.modGl_dx (s : State) (f : Gl → Gl) : (s.modGl f).dx = s.dx := rfl
@[simp] theorem State.modGl_units (s : State) (f : Gl → Gl) : (s.modGl f).units = s.units := rfl
@[simp] theorem State.modGl_pw (s : State) (f : Gl → Gl) : (s.modGl f).pw = s.pw := rfl
@[simp] theorem State.modGl_mp (s : State) (f : Gl → Gl) : (s.modGl f).mp = s.mp := rfl
@[simp] theorem State.modGl_ret (s : State) (f : Gl → Gl) : (s.modGl f).ret = s.ret := rfl
@[simp] theorem State.modGl_boot (s : State) (f : Gl → Gl) : (s.modGl f).boot = s.boot := rfl
@[simp] theorem State.modGl_tap (s : State) (f : Gl → Gl) : (s.modGl f).tap = s.tap := rfl
@[simp] theorem State.modGl_round (s : State) (f : Gl → Gl) : (s.modGl f).round = s.round := rfl
@[simp] theorem State.modGl_ckRound (s : State) (f : Gl → Gl) : (s.modGl f).ckRound = s.ckRound := rfl
@[simp] theorem State.modGl_outs (s : State) (f : Gl → Gl) : (s.modGl f).outs = s.outs := rfl
@[simp] theorem State.modGl_freeCtr (s : State) (f : Gl → Gl) : (s.modGl f).freeCtr = s.freeCtr := rfl
@[simp] theorem State.modGl_pending (s : State) (f : Gl → Gl) : (s.modGl f).pending = s.pending := rfl

/-! ### State.modVx -/

@[simp] theorem State.modVx_sq (s : State) (f : Vx → Vx) : (s.modVx f).sq = s.sq := rfl
@[simp] theorem State.modVx_gl (s : State) (f : Vx → Vx) : (s.modVx f).gl = s.gl := rfl
@[simp] theorem State.modVx_vx (s : State) (f : Vx → Vx) : (s.modVx f).vx = f s.vx := rfl
@[simp] theorem State.modVx_pool (s : State) (f : Vx → Vx) : (s.modVx f).pool = s.pool := rfl
@[simp] theorem State.modVx_lat (s : State) (f : Vx → Vx) : (s.modVx f).lat = s.lat := rfl
@[simp] theorem State.modVx_chans (s : State) (f : Vx → Vx) : (s.modVx f).chans = s.chans := rfl
@[simp] theorem State.modVx_tm (s : State) (f : Vx → Vx) : (s.modVx f).tm = s.tm := rfl
@[simp] theorem State.modVx_bdp (s : State) (f : Vx → Vx) : (s.modVx f).bdp = s.bdp := rfl
@[simp] theorem State.modVx_cd (s : State) (f : Vx → Vx) : (s.modVx f).cd = s.cd := rfl
@[simp] theorem State.modVx_tg (s : State) (f : Vx → Vx) : (s.modVx f).tg = s.tg := rfl
@[simp] theorem State.modVx_dx (s : State) (f : Vx → Vx) : (s.modVx f).dx = s.dx := rfl
@[simp] theorem State.modVx_units (s : State) (f : Vx → Vx) : (s.modVx f).units = s.units := rfl
@[simp] theorem State.modVx_pw (s : State) (f : Vx → Vx) : (s.modVx f).pw = s.pw := rfl
@[simp] theorem State.modVx_mp (s : State) (f : Vx → Vx) : (s.modVx f).mp = s.mp := rfl
@[simp] theorem State.modVx_ret (s : State) (f : Vx → Vx) : (s.modVx f).ret = s.ret := rfl
@[simp] theorem State.modVx_boot (s : State) (f : Vx → Vx) : (s.modVx f).boot = s.boot := rfl
@[simp] theorem State.modVx_tap (s : State) (f : Vx → Vx) : (s.modVx f).tap = s.tap := rfl
@[simp] theorem State.modVx_round (s : State) (f : Vx → Vx) : (s.modVx f).round = s.round := rfl
@[simp] theorem State.modVx_ckRound (s : State) (f : Vx → Vx) : (s.modVx f).ckRound = s.ckRound := rfl
@[simp] theorem State.modVx_outs (s : State) (f : Vx → Vx) : (s.modVx f).outs = s.outs := rfl
@[simp] theorem State.modVx_freeCtr (s : State) (f : Vx → Vx) : (s.modVx f).freeCtr = s.freeCtr := rfl
@[simp] theorem State.modVx_pending (s : State) (f : Vx → Vx) : (s.modVx f).pending = s.pending := rfl

/-! ### State.modPool -/

@[simp] theorem State.modPool_sq (s : State) (f : Pool → Pool) : (s.modPool f).sq = s.sq := rfl
@[simp] theorem State.modPool_gl (s : State) (f : Pool → Pool) : (s.modPool f).gl = s.gl := rfl
@[simp] theorem State.modPool_vx (s : State) (f : Pool → Pool) : (s.modPool f).vx = s.vx := rfl
@[simp] theorem State.modPool_pool (s : State) (f : Pool → Pool) : (s.modPool f).pool = f s.pool := rfl
@[simp] theorem State.modPool_lat (s : State) (f : Pool → Pool) : (s.modPool f).lat = s.lat := rfl
@[simp] theorem State.modPool_chans (s : State) (f : Pool → Pool) : (s.modPool f).chans = s.chans := rfl
@[simp] theorem State.modPool_tm (s : State) (f : Pool → Pool) : (s.modPool f).tm = s.tm := rfl
@[simp] theorem State.modPool_bdp (s : State) (f : Pool → Pool) : (s.modPool f).bdp = s.bdp := rfl
@[simp] theorem State.modPool_cd (s : State) (f : Pool → Pool) : (s.modPool f).cd = s.cd := rfl
@[simp] theorem State.modPool_tg (s : State) (f : Pool → Pool) : (s.modPool f).tg = s.tg := rfl
@[simp] theorem State.modPool_dx (s : State) (f : Pool → Pool) : (s.modPool f).dx = s.dx := rfl
@[simp] theorem State.modPool_units (s : State) (f : Pool → Pool) : (s.modPool f).units = s.units := rfl
@[simp] theorem State.modPool_pw (s : State) (f : Pool → Pool) : (s.modPool f).pw = s.pw := rfl
@[simp] theorem State.modPool_mp (s : State) (f : Pool → Pool) : (s.modPool f).mp = s.mp := rfl
@[simp] theorem State.modPool_ret (s : State) (f : Pool → Pool) : (s.modPool f).ret = s.ret := rfl
@[simp] theorem State.modPool_boot (s : State) (f : Pool → Pool) : (s.modPool f).boot = s.boot := rfl
@[simp] theorem State.modPool_tap (s : State) (f : Pool → Pool) : (s.modPool f).tap = s.tap := rfl
@[simp] theorem State.modPool_round (s : State) (f : Pool → Pool) : (s.modPool f).round = s.round := rfl
@[simp] theorem State.modPool_ckRound (s : State) (f : Pool → Pool) : (s.modPool f).ckRound = s.ckRound := rfl
@[simp] theorem State.modPool_outs (s : State) (f : Pool → Pool) : (s.modPool f).outs = s.outs := rfl
@[simp] theorem State.modPool_freeCtr (s : State) (f : Pool → Pool) : (s.modPool f).freeCtr = s.freeCtr := rfl
@[simp] theorem State.modPool_pending (s : State) (f : Pool → Pool) : (s.modPool f).pending = s.pending := rfl

/-! ### State.modQueue -/

@[simp] theorem State.modQueue_sq (s : State) (q : Nat) (f : Queue → Queue) : (s.modQueue q f).sq = s.sq := rfl
@[simp] theorem State.modQueue_gl (s : State) (q : Nat) (f : Queue → Queue) : (s.modQueue q f).gl = s.gl := rfl
@[simp] theorem State.modQueue_vx (s : State) (q : Nat) (f : Queue → Queue) : (s.modQueue q f).vx = s.vx := rfl
@[simp] theorem State.modQueue_pool (s : State) (q : Nat) (f : Queue → Queue) : (s.modQueue q f).pool = ({ s.pool with queues := mset s.pool.queues q (f (s.queue q)) } : Pool) := rfl
@[simp] theorem State.modQueue_lat (s : State) (q : Nat) (f : Queue → Queue) : (s.modQueue q f).lat = s.lat := rfl
@[simp] theorem State.modQueue_chans (s : State) (q : Nat) (f : Queue → Queue) : (s.modQueue q f).chans = s.chans := rfl
@[simp] theorem State.modQueue_tm (s : State) (q : Nat) (f : Queue → Queue) : (s.modQueue q f).tm = s.tm := rfl
@[simp] theorem State.modQueue_bdp (s : State) (q : Nat) (f : Queue → Queue) : (s.modQueue q f).bdp = s.bdp := rfl
@[simp] theorem State.modQueue_cd (s : State) (q : Nat) (f : Queue → Queue) : (s.modQueue q f).cd = s.cd := rfl
@[simp] theorem State.modQueue_tg (s : State) (q : Nat) (f : Queue → Queue) : (s.modQueue q f).tg = s.tg := rfl
@[simp] theorem State.modQueue_dx (s : State) (q : Nat) (f : Queue → Queue) : (s.modQueue q f).dx = s.dx := rfl
@[simp] theorem State.modQueue_units (s : State) (q : Nat) (f : Queue → Queue) : (s.modQueue q f).units = s.units := rfl
@[simp] theorem State.modQueue_pw (s : State) (q : Nat) (f : Queue → Queue) : (s.modQueue q f).pw = s.pw := rfl
@[simp] theorem State.modQueue_mp (s : State) (q : Nat) (f : Queue → Queue) : (s.modQueue q f).mp = s.mp := rfl
@[simp] theorem State.modQueue_ret (s : State) (q : Nat) (f : Queue → Queue) : (s.modQueue q f).ret = s.ret := rfl
@[simp] theorem State.modQueue_boot (s : State) (q : Nat) (f : Queue → Queue) : (s.modQueue q f).boot = s.boot := rfl
@[simp] theorem State.modQueue_tap (s : State) (q : Nat) (f : Queue → Queue) : (s.modQueue q f).tap = s.tap := rfl
@[simp] theorem State.modQueue_round (s : State) (q : Nat) (f : Queue → Queue) : (s.modQueue q f).round = s.round := rfl
@[simp] theorem State.modQueue_ckRound (s : State) (q : Nat) (f : Queue → Queue) : (s.modQueue q f).ckRound = s.ckRound := rfl
@[simp] theorem State.modQueue_outs (s : State) (q : Nat) (f : Queue → Queue) : (s.modQueue q f).outs = s.outs := rfl
@[simp] theorem State.modQueue_freeCtr (s : State) (q : Nat) (f : Queue → Queue) : (s.modQueue q f).freeCtr = s.freeCtr := rfl
@[simp] theorem State.modQueue_pending (s : State) (q : Nat) (f : Queue → Queue) : (s.modQueue q f).pending = s.pending := rfl

/-! ### State.modLat -/

@[simp] theorem State.modLat_sq (s : State) (f : Lat → Lat) : (s.modLat f).sq = s.sq := rfl
@[simp] theorem State.modLat_gl (s : State) (f : Lat → Lat) : (s.modLat f).gl = s.gl := rfl
@[simp] theorem State.modLat_vx (s : State) (f : Lat → Lat) : (s.modLat f).vx = s.vx := rfl
@[simp] theorem State.modLat_pool (s : State) (f : Lat → Lat) : (s.modLat f).pool = s.pool := rfl
@[simp] theorem State.modLat_lat (s : State) (f : Lat → Lat) : (s.modLat f).lat = f s.lat := rfl
@[simp] theorem State.modLat_chans (s : State) (f : Lat → Lat) : (s.modLat f).chans = s.chans := rfl
@[simp] theorem State.modLat_tm (s : State) (f : Lat → Lat) : (s.modLat f).tm = s.tm := rfl
@[simp] theorem State.modLat_bdp (s : State) (f : Lat → Lat) : (s.modLat f).bdp = s.bdp := rfl
@[simp] theorem State.modLat_cd (s : State) (f : Lat → Lat) : (s.modLat f).cd = s.cd := rfl
@[simp] theorem State.modLat_tg (s : State) (f : Lat → Lat) : (s.modLat f).tg = s.tg := rfl
@[simp] theorem State.modLat_dx (s : State) (f : Lat → Lat) : (s.modLat f).dx = s.dx := rfl
@[simp] theorem State.modLat_units (s : State) (f : Lat → Lat) : (s.modLat f).units = s.units := rfl
@[simp] theorem State.modLat_pw (s : State) (f : Lat → Lat) : (s.modLat f).pw = s.pw := rfl
@[simp] theorem State.modLat_mp (s : State) (f : Lat → Lat) : (s.modLat f).mp = s.mp := rfl
@[simp] theorem State.modLat_ret (s : State) (f : Lat → Lat) : (s.modLat f).ret = s.ret := rfl
@[simp] theorem State.modLat_boot (s : State) (f : Lat → Lat) : (s.modLat f).boot = s.boot := rfl
@[simp] theorem State.modLat_tap (s : State) (f : Lat → Lat) : (s.modLat f).tap = s.tap := rfl
@[simp] theorem State.modLat_round (s : State) (f : Lat → Lat) : (s.modLat f).round = s.round := rfl
@[simp] theorem State.modLat_ckRound (s : State) (f : Lat → Lat) : (s.modLat f).ckRound = s.ckRound := rfl
@[simp] theorem State.modLat_outs (s : State) (f : Lat → Lat) : (s.modLat f).outs = s.outs := rfl
@[simp] theorem State.modLat_freeCtr (s : State) (f : Lat → Lat) : (s.modLat f).freeCtr = s.freeCtr := rfl
@[simp] theorem State.modLat_pending (s : State) (f : Lat → Lat) : (s.modLat f).pending = s.pending := rfl

/-! ### State.modGate -/

@[simp] theorem State.modGate_sq (s : State) (g : Nat) (f : Gate → Gate) : (s.modGate g f).sq = s.sq := rfl
@[simp] theorem State.modGate_gl (s : State) (g : Nat) (f : Gate → Gate) : (s.modGate g f).gl = s.gl := rfl
@[simp] theorem State.modGate_vx (s : State) (g : Nat) (f : Gate → Gate) : (s.modGate g f).vx = s.vx := rfl
@[simp] theorem State.modGate_pool (s : State) (g : Nat) (f : Gate → Gate) : (s.modGate g f).pool = s.pool := rfl
@[simp] theorem State.modGate_lat (s : State) (g : Nat) (f : Gate → Gate) : (s.modGate g f).lat = ({ s.lat with gates := mset s.lat.gates g (f (s.gate g)) } : Lat) := rfl
@[simp] theorem State.modGate_chans (s : State) (g : Nat) (f : Gate → Gate) : (s.modGate g f).chans = s.chans := rfl
@[simp] theorem State.modGate_tm (s : State) (g : Nat) (f : Gate → Gate) : (s.modGate g f).tm = s.tm := rfl
@[simp] theorem State.modGate_bdp (s : State) (g : Nat) (f : Gate → Gate) : (s.modGate g f).bdp = s.bdp := rfl
@[simp] theorem State.modGate_cd (s : State) (g : Nat) (f : Gate → Gate) : (s.modGate g f).cd = s.cd := rfl
@[simp] theorem State.modGate_tg (s : State) (g : Nat) (f : Gate → Gate) : (s.modGate g f).tg = s.tg := rfl
@[simp] theorem State.modGate_dx (s : State) (g : Nat) (f : Gate → Gate) : (s.modGate g f).dx = s.dx := rfl
@[simp] theorem State.modGate_units (s : State) (g : Nat) (f : Gate → Gate) : (s.modGate g f).units = s.units := rfl
@[simp] theorem State.modGate_pw (s : State) (g : Nat) (f : Gate → Gate) : (s.modGate g f).pw = s.pw := rfl
@[simp] theorem State.modGate_mp (s : State) (g : Nat) (f : Gate → Gate) : (s.modGate g f).mp = s.mp := rfl
@[simp] theorem State.modGate_ret (s : State) (g : Nat) (f : Gate → Gate) : (s.modGate g f).ret = s.ret := rfl
@[simp] theorem State.modGate_boot (s : State) (g : Nat) (f : Gate → Gate) : (s.modGate g f).boot = s.boot := rfl
@[simp] theorem State.modGate_tap (s : State) (g : Nat) (f : Gate → Gate) : (s.modGate g f).tap = s.tap := rfl
@[simp] theorem State.modGate_round (s : State) (g : Nat) (f : Gate → Gate) : (s.modGate g f).round = s.round := rfl
@[simp] theorem State.modGate_ckRound (s : State) (g : Nat) (f : Gate → Gate) : (s.modGate g f).ckRound = s.ckRound := rfl
@[simp] theorem State.modGate_outs (s : State) (g : Nat) (f : Gate → Gate) : (s.modGate g f).outs = s.outs := rfl
@[simp] theorem State.modGate_freeCtr (s : State) (g : Nat) (f : Gate → Gate) : (s.modGate g f).freeCtr = s.freeCtr := rfl
@[simp] theorem State.modGate_pending (s : State) (g : Nat) (f : Gate → Gate) : (s.modGate g f).pending = s.pending := rfl

/-! ### State.modChan -/

@[simp] theorem State.modChan_sq (s : State) (n : Nat) (f : Chan → Chan) : (s.modChan n f).sq = s.sq := rfl
@[simp] theorem State.modChan_gl (s : State) (n : Nat) (f : Chan → Chan) : (s.modChan n f).gl = s.gl := rfl
@[simp] theorem State.modChan_vx (s : State) (n : Nat) (f : Chan → Chan) : (s.modChan n f).vx = s.vx := rfl
@[simp] theorem State.modChan_pool (s : State) (n : Nat) (f : Chan → Chan) : (s.modChan n f).pool = s.pool := rfl
@[simp] theorem State.modChan_lat (s : State) (n : Nat) (f : Chan → Chan) : (s.modChan n f).lat = s.lat := rfl
@[simp] theorem State.modChan_chans (s : State) (n : Nat) (f : Chan → Chan) : (s.modChan n f).chans = mset s.chans n (f (s.chan n)) := rfl
@[simp] theorem State.modChan_tm (s : State) (n : Nat) (f : Chan → Chan) : (s.modChan n f).tm = s.tm := rfl
@[simp] theorem State.modChan_bdp (s : State) (n : Nat) (f : Chan → Chan) : (s.modChan n f).bdp = s.bdp := rfl
@[simp] theorem State.modChan_cd (s : State) (n : Nat) (f : Chan → Chan) : (s.modChan n f).cd = s.cd := rfl
@[simp] theorem State.modChan_tg (s : State) (n : Nat) (f : Chan → Chan) : (s.modChan n f).tg = s.tg := rfl
@[simp] theorem State.modChan_dx (s : State) (n : Nat) (f : Chan → Chan) : (s.modChan n f).dx = s.dx := rfl
@[simp] theorem State.modChan_units (s : State) (n : Nat) (f : Chan → Chan) : (s.modChan n f).units = s.units := rfl
@[simp] theorem State.modChan_pw (s : State) (n : Nat) (f : Chan → Chan) : (s.modChan n f).pw = s.pw := rfl
@[simp] theorem State.modChan_mp (s : State) (n : Nat) (f : Chan → Chan) : (s.modChan n f).mp = s.mp := rfl
@[simp] theorem State.modChan_ret (s : State) (n : Nat) (f : Chan → Chan) : (s.modChan n f).ret = s.ret := rfl
@[simp] theorem State.modChan_boot (s : State) (n : Nat) (f : Chan → Chan) : (s.modChan n f).boot = s.boot := rfl
@[simp] theorem State.modChan_tap (s : State) (n : Nat) (f : Chan → Chan) : (s.modChan n f).tap = s.tap := rfl
@[simp] theorem State.modChan_round (s : State) (n : Nat) (f : Chan → Chan) : (s.modChan n f).round = s.round := rfl
@[simp] theorem State.modChan_ckRound (s : State) (n : Nat) (f : Chan → Chan) : (s.modChan n f).ckRound = s.ckRound := rfl
@[simp] theorem State.modChan_outs (s : State) (n : Nat) (f : Chan → Chan) : (s.modChan n f).outs = s.outs := rfl
@[simp] theorem State.modChan_freeCtr (s : State) (n : Nat) (f : Chan → Chan) : (s.modChan n f).freeCtr = s.freeCtr := rfl
@[simp] theorem State.modChan_pending (s : State) (n : Nat) (f : Chan → Chan) : (s.modChan n f).pending = s.pending := rfl

/-! ### State.modTm -/

@[simp] theorem State.modTm_sq (s : State) (f : Tm → Tm) : (s.modTm f).sq = s.sq := rfl
@[simp] theorem State.modTm_gl (s : State) (f : Tm → Tm) : (s.modTm f).gl = s.gl := rfl
@[simp] theorem State.modTm_vx (s : State) (f : Tm → Tm) : (s.modTm f).vx = s.vx := rfl
@[simp] theorem State.modTm_pool (s : State) (f : Tm → Tm) : (s.modTm f).pool = s.pool := rfl
@[simp] theorem State.modTm_lat (s : State) (f : Tm → Tm) : (s.modTm f).lat = s.lat := rfl
@[simp] theorem State.modTm_chans (s : State) (f : Tm → Tm) : (s.modTm f).chans = s.chans := rfl
@[simp] theorem State.modTm_tm (s : State) (f : Tm → Tm) : (s.modTm f).tm = f s.tm := rfl
@[simp] theorem State.modTm_bdp (s : State) (f : Tm → Tm) : (s.modTm f).bdp = s.bdp := rfl
@[simp] theorem State.modTm_cd (s : State) (f : Tm → Tm) : (s.modTm f).cd = s.cd := rfl
@[simp] theorem State.modTm_tg (s : State) (f : Tm → Tm) : (s.modTm f).tg = s.tg := rfl
@[simp] theorem State.modTm_dx (s : State) (f : Tm → Tm) : (s.modTm f).dx = s.dx := rfl
@[simp] theorem State.modTm_units (s : State) (f : Tm → Tm) : (s.modTm f).units = s.units := rfl
@[simp] theorem State.modTm_pw (s : State) (f : Tm → Tm) : (s.modTm f).pw = s.pw := rfl
@[simp] theorem State.modTm_mp (s : State) (f : Tm → Tm) : (s.modTm f).mp = s.mp := rfl
@[simp] theorem State.modTm_ret (s : State) (f : Tm → Tm) : (s.modTm f).ret = s.ret := rfl
@[simp] theorem State.modTm_boot (s : State) (f : Tm → Tm) : (s.modTm f).boot = s.boot := rfl
@[simp] theorem State.modTm_tap (s : State) (f : Tm → Tm) : (s.modTm f).tap = s.tap := rfl
@[simp] theorem State.modTm_round (s : State) (f : Tm → Tm) : (s.modTm f).round = s.round := rfl
@[simp] theorem State.modTm_ckRound (s : State) (f : Tm → Tm) : (s.modTm f).ckRound = s.ckRound := rfl
@[simp] theorem State.modTm_outs (s : State) (f : Tm → Tm) : (s.modTm f).outs = s.outs := rfl
@[simp] theorem State.modTm_freeCtr (s : State) (f : Tm → Tm) : (s.modTm f).freeCtr = s.freeCtr := rfl
@[simp] theorem State.modTm_pending (s : State) (f : Tm → Tm) : (s.modTm f).pending = s.pending := rfl

/-! ### State.modBdp -/

@[simp] theorem State.modBdp_sq (s : State) (f : Bdp → Bdp) : (s.modBdp f).sq = s.sq := rfl
@[simp] theorem State.modBdp_gl (s : State) (f : Bdp → Bdp) : (s.modBdp f).gl = s.gl := rfl
@[simp] theorem State.modBdp_vx (s : State) (f : Bdp → Bdp) : (s.modBdp f).vx = s.vx := rfl
@[simp] theorem State.modBdp_pool (s : State) (f : Bdp → Bdp) : (s.modBdp f).pool = s.pool := rfl
@[simp] theorem State.modBdp_lat (s : State) (f : Bdp → Bdp) : (s.modBdp f).lat = s.lat := rfl
@[simp] theorem State.modBdp_chans (s : State) (f : Bdp → Bdp) : (s.modBdp f).chans = s.chans := rfl
@[simp] theorem State.modBdp_tm (s : State) (f : Bdp → Bdp) : (s.modBdp f).tm = s.tm := rfl
@[simp] theorem State.modBdp_bdp (s : State) (f : Bdp → Bdp) : (s.modBdp f).bdp = f s.bdp := rfl
@[simp] theorem State.modBdp_cd (s : State) (f : Bdp → Bdp) : (s.modBdp f).cd = s.cd := rfl
@[simp] theorem State.modBdp_tg (s : State) (f : Bdp → Bdp) : (s.modBdp f).tg = s.tg := rfl
@[simp] theorem State.modBdp_dx (s : State) (f : Bdp → Bdp) : (s.modBdp f).dx = s.dx := rfl
@[simp] theorem State.modBdp_units (s : State) (f : Bdp → Bdp) : (s.modBdp f).units = s.units := rfl
@[simp] theorem State.modBdp_pw (s : State) (f : Bdp → Bdp) : (s.modBdp f).pw = s.pw := rfl
@[simp] theorem State.modBdp_mp (s : State) (f : Bdp → Bdp) : (s.modBdp f).mp = s.mp := rfl
@[simp] theorem State.modBdp_ret (s : State) (f : Bdp → Bdp) : (s.modBdp f).ret = s.ret := rfl
@[simp] theorem State.modBdp_boot (s : State) (f : Bdp → Bdp) : (s.modBdp f).boot = s.boot := rfl
@[simp] theorem State.modBdp_tap (s : State) (f : Bdp → Bdp) : (s.modBdp f).tap = s.tap := rfl
@[simp] theorem State.modBdp_round (s : State) (f : Bdp → Bdp) : (s.modBdp f).round = s.round := rfl
@[simp] theorem State.modBdp_ckRound (s : State) (f : Bdp → Bdp) : (s.modBdp f).ckRound = s.ckRound := rfl
@[simp] theorem State.modBdp_outs (s : State) (f : Bdp → Bdp) : (s.modBdp f).outs = s.outs := rfl
@[simp] theorem State.modBdp_freeCtr (s : State) (f : Bdp → Bdp) : (s.modBdp f).freeCtr = s.freeCtr := rfl
@[simp] theorem State.modBdp_pending (s : State) (f : Bdp → Bdp) : (s.modBdp f).pending = s.pending := rfl

/-! ### State.modCd -/

@[simp] theorem State.modCd_sq (s : State) (f : Cd → Cd) : (s.modCd f).sq = s.sq := rfl
@[simp] theorem State.modCd_gl (s : State) (f : Cd → Cd) : (s.modCd f).gl = s.gl := rfl
@[simp] theorem State.modCd_vx (s : State) (f : Cd → Cd) : (s.modCd f).vx = s.vx := rfl
@[simp] theorem State.modCd_pool (s : State) (f : Cd → Cd) : (s.modCd f).pool = s.pool := rfl
@[simp] theorem State.modCd_lat (s : State) (f : Cd → Cd) : (s.modCd f).lat = s.lat := rfl
@[simp] theorem State.modCd_chans (s : State) (f : Cd → Cd) : (s.modCd f).chans = s.chans := rfl
@[simp] theorem State.modCd_tm (s : State) (f : Cd → Cd) : (s.modCd f).tm = s.tm := rfl
@[simp] theorem State.modCd_bdp (s : State) (f : Cd → Cd) : (s.modCd f).bdp = s.bdp := rfl
@[simp] theorem State.modCd_cd (s : State) (f : Cd → Cd) : (s.modCd f).cd = f s.cd := rfl
@[simp] theorem State.modCd_tg (s : State) (f : Cd → Cd) : (s.modCd f).tg = s.tg := rfl
@[simp] theorem State.modCd_dx (s : State) (f : Cd → Cd) : (s.modCd f).dx = s.dx := rfl
@[simp] theorem State.modCd_units (s : State) (f : Cd → Cd) : (s.modCd f).units = s.units := rfl
@[simp] theorem State.modCd_pw (s : State) (f : Cd → Cd) : (s.modCd f).pw = s.pw := rfl
@[simp] theorem State.modCd_mp (s : State) (f : Cd → Cd) : (s.modCd f).mp = s.mp := rfl
@[simp] theorem State.modCd_ret (s : State) (f : Cd → Cd) : (s.modCd f).ret = s.ret := rfl
@[simp] theorem State.modCd_boot (s : State) (f : Cd → Cd) : (s.modCd f).boot = s.boot := rfl
@[simp] theorem State.modCd_tap (s : State) (f : Cd → Cd) : (s.modCd f).tap = s.tap := rfl
@[simp] theorem State.modCd_round (s : State) (f : Cd → Cd) : (s.modCd f).round = s.round := rfl
@[simp] theorem State.modCd_ckRound (s : State) (f : Cd → Cd) : (s.modCd f).ckRound = s.ckRound := rfl
@[simp] theorem State.modCd_outs (s : State) (f : Cd → Cd) : (s.modCd f).outs = s.outs := rfl
@[simp] theorem State.modCd_freeCtr (s : State) (f : Cd → Cd) : (s.modCd f).freeCtr = s.freeCtr := rfl
@[simp] theorem State.modCd_pending (s : State) (f : Cd → Cd) : (s.modCd f).pending = s.pending := rfl

/-! ### State.modRoute -/

@[simp] theorem State.modRoute_sq (s : State) (r : Nat) (f : Route → Route) : (s.modRoute r f).sq = s.sq := rfl
@[simp] theorem State.modRoute_gl (s : State) (r : Nat) (f : Route → Route) : (s.modRoute r f).gl = s.gl := rfl
@[simp] theorem State.modRoute_vx (s : State) (r : Nat) (f : Route → Route) : (s.modRoute r f).vx = s.vx := rfl
@[simp] theorem State.modRoute_pool (s : State) (r : Nat) (f : Route → Route) : (s.modRoute r f).pool = s.pool := rfl
@[simp] theorem State.modRoute_lat (s : State) (r : Nat) (f : Route → Route) : (s.modRoute r f).lat = s.lat := rfl
@[simp] theorem State.modRoute_chans (s : State) (r : Nat) (f : Route → Route) : (s.modRoute r f).chans = s.chans := rfl
@[simp] theorem State.modRoute_tm (s : State) (r : Nat) (f : Route → Route) : (s.modRoute r f).tm = s.tm := rfl
@[simp] theorem State.modRoute_bdp (s : State) (r : Nat) (f : Route → Route) : (s.modRoute r f).bdp = s.bdp := rfl
@[simp] theorem State.modRoute_cd (s : State) (r : Nat) (f : Route → Route) : (s.modRoute r f).cd = ({ s.cd with routes := mset s.cd.routes r (f (mget Route.reset s.cd.routes r)) } : Cd) := rfl
@[simp] theorem State.modRoute_tg (s : State) (r : Nat) (f : Route → Route) : (s.modRoute r f).tg = s.tg := rfl
@[simp] theorem State.modRoute_dx (s : State) (r : Nat) (f : Route → Route) : (s.modRoute r f).dx = s.dx := rfl
@[simp] theorem State.modRoute_units (s : State) (r : Nat) (f : Route → Route) : (s.modRoute r f).units = s.units := rfl
@[simp] theorem State.modRoute_pw (s : State) (r : Nat) (f : Route → Route) : (s.modRoute r f).pw = s.pw := rfl
@[simp] theorem State.modRoute_mp (s : State) (r : Nat) (f : Route → Route) : (s.modRoute r f).mp = s.mp := rfl
@[simp] theorem State.modRoute_ret (s : State) (r : Nat) (f : Route → Route) : (s.modRoute r f).ret = s.ret := rfl
@[simp] theorem State.modRoute_boot (s : State) (r : Nat) (f : Route → Route) : (s.modRoute r f).boot = s.boot := rfl
@[simp] theorem State.modRoute_tap (s : State) (r : Nat) (f : Route → Route) : (s.modRoute r f).tap = s.tap := rfl
@[simp] theorem State.modRoute_round (s : State) (r : Nat) (f : Route → Route) : (s.modRoute r f).round = s.round := rfl
@[simp] theorem State.modRoute_ckRound (s : State) (r : Nat) (f : Route → Route) : (s.modRoute r f).ckRound = s.ckRound := rfl
@[simp] theorem State.modRoute_outs (s : State) (r : Nat) (f : Route → Route) : (s.modRoute r f).outs = s.outs := rfl
@[simp] theorem State.modRoute_freeCtr (s : State) (r : Nat) (f : Route → Route) : (s.modRoute r f).freeCtr = s.freeCtr := rfl
@[simp] theorem State.modRoute_pending (s : State) (r : Nat) (f : Route → Route) : (s.modRoute r f).pending = s.pending := rfl

/-! ### State.modTg -/

@[simp] theorem State.modTg_sq (s : State) (f : Tg → Tg) : (s.modTg f).sq = s.sq := rfl
@[simp] theorem State.modTg_gl (s : State) (f : Tg → Tg) : (s.modTg f).gl = s.gl := rfl
@[simp] theorem State.modTg_vx (s : State) (f : Tg → Tg) : (s.modTg f).vx = s.vx := rfl
@[simp] theorem State.modTg_pool (s : State) (f : Tg → Tg) : (s.modTg f).pool = s.pool := rfl
@[simp] theorem State.modTg_lat (s : State) (f : Tg → Tg) : (s.modTg f).lat = s.lat := rfl
@[simp] theorem State.modTg_chans (s : State) (f : Tg → Tg) : (s.modTg f).chans = s.chans := rfl
@[simp] theorem State.modTg_tm (s : State) (f : Tg → Tg) : (s.modTg f).tm = s.tm := rfl
@[simp] theorem State.modTg_bdp (s : State) (f : Tg → Tg) : (s.modTg f).bdp = s.bdp := rfl
@[simp] theorem State.modTg_cd (s : State) (f : Tg → Tg) : (s.modTg f).cd = s.cd := rfl
@[simp] theorem State.modTg_tg (s : State) (f : Tg → Tg) : (s.modTg f).tg = f s.tg := rfl
@[simp] theorem State.modTg_dx (s : State) (f : Tg → Tg) : (s.modTg f).dx = s.dx := rfl
@[simp] theorem State.modTg_units (s : State) (f : Tg → Tg) : (s.modTg f).units = s.units := rfl
@[simp] theorem State.modTg_pw (s : State) (f : Tg → Tg) : (s.modTg f).pw = s.pw := rfl
@[simp] theorem State.modTg_mp (s : State) (f : Tg → Tg) : (s.modTg f).mp = s.mp := rfl
@[simp] theorem State.modTg_ret (s : State) (f : Tg → Tg) : (s.modTg f).ret = s.ret := rfl
@[simp] theorem State.modTg_boot (s : State) (f : Tg → Tg) : (s.modTg f).boot = s.boot := rfl
@[simp] theorem State.modTg_tap (s : State) (f : Tg → Tg) : (s.modTg f).tap = s.tap := rfl
@[simp] theorem State.modTg_round (s : State) (f : Tg → Tg) : (s.modTg f).round = s.round := rfl
@[simp] theorem State.modTg_ckRound (s : State) (f : Tg → Tg) : (s.modTg f).ckRound = s.ckRound := rfl
@[simp] theorem State.modTg_outs (s : State) (f : Tg → Tg) : (s.modTg f).outs = s.outs := rfl
@[simp] theorem State.modTg_freeCtr (s : State) (f : Tg → Tg) : (s.modTg f).freeCtr = s.freeCtr := rfl
@[simp] theorem State.modTg_pending (s : State) (f : Tg → Tg) : (s.modTg f).pending = s.pending := rfl

/-! ### State.modCtx -/

@[simp] theorem State.modCtx_sq (s : State) (c : Nat) (f : Ctx → Ctx) : (s.modCtx c f).sq = s.sq := rfl
@[simp] theorem State.modCtx_gl (s : State) (c : Nat) (f : Ctx → Ctx) : (s.modCtx c f).gl = s.gl := rfl
@[simp] theorem State.modCtx_vx (s : State) (c : Nat) (f : Ctx → Ctx) : (s.modCtx c f).vx = s.vx := rfl
@[simp] theorem State.modCtx_pool (s : State) (c : Nat) (f : Ctx → Ctx) : (s.modCtx c f).pool = s.pool := rfl
@[simp] theorem State.modCtx_lat (s : State) (c : Nat) (f : Ctx → Ctx) : (s.modCtx c f).lat = s.lat := rfl
@[simp] theorem State.modCtx_chans (s : State) (c : Nat) (f : Ctx → Ctx) : (s.modCtx c f).chans = s.chans := rfl
@[simp] theorem State.modCtx_tm (s : State) (c : Nat) (f : Ctx → Ctx) : (s.modCtx c f).tm = s.tm := rfl
@[simp] theorem State.modCtx_bdp (s : State) (c : Nat) (f : Ctx → Ctx) : (s.modCtx c f).bdp = s.bdp := rfl
@[simp] theorem State.modCtx_cd (s : State) (c : Nat) (f : Ctx → Ctx) : (s.modCtx c f).cd = s.cd := rfl
@[simp] theorem State.modCtx_tg (s : State) (c : Nat) (f : Ctx → Ctx) : (s.modCtx c f).tg = ({ s.tg with ctxs := mset s.tg.ctxs c (f (s.ctx c)) } : Tg) := rfl
@[simp] theorem State.modCtx_dx (s : State) (c : Nat) (f : Ctx → Ctx) : (s.modCtx c f).dx = s.dx := rfl
@[simp] theorem State.modCtx_units (s : State) (c : Nat) (f : Ctx → Ctx) : (s.modCtx c f).units = s.units := rfl
@[simp] theorem State.modCtx_pw (s : State) (c : Nat) (f : Ctx → Ctx) : (s.modCtx c f).pw = s.pw := rfl
@[simp] theorem State.modCtx_mp (s : State) (c : Nat) (f : Ctx → Ctx) : (s.modCtx c f).mp = s.mp := rfl
@[simp] theorem State.modCtx_ret (s : State) (c : Nat) (f : Ctx → Ctx) : (s.modCtx c f).ret = s.ret := rfl
@[simp] theorem State.modCtx_boot (s : State) (c : Nat) (f : Ctx → Ctx) : (s.modCtx c f).boot = s.boot := rfl
@[simp] theorem State.modCtx_tap (s : State) (c : Nat) (f : Ctx → Ctx) : (s.modCtx c f).tap = s.tap := rfl
@[simp] theorem State.modCtx_round (s : State) (c : Nat) (f : Ctx → Ctx) : (s.modCtx c f).round = s.round := rfl
@[simp] theorem State.modCtx_ckRound (s : State) (c : Nat) (f : Ctx → Ctx) : (s.modCtx c f).ckRound = s.ckRound := rfl
@[simp] theorem State.modCtx_outs (s : State) (c : Nat) (f : Ctx → Ctx) : (s.modCtx c f).outs = s.outs := rfl
@[simp] theorem State.modCtx_freeCtr (s : State) (c : Nat) (f : Ctx → Ctx) : (s.modCtx c f).freeCtr = s.freeCtr := rfl
@[simp] theorem State.modCtx_pending (s : State) (c : Nat) (f : Ctx → Ctx) : (s.modCtx c f).pending = s.pending := rfl

/-! ### State.modDx -/

@[simp] theorem State.modDx_sq (s : State) (f : Dx → Dx) : (s.modDx f).sq = s.sq := rfl
@[simp] theorem State.modDx_gl (s : State) (f : Dx → Dx) : (s.modDx f).gl = s.gl := rfl
@[simp] theorem State.modDx_vx (s : State) (f : Dx → Dx) : (s.modDx f).vx = s.vx := rfl
@[simp] theorem State.modDx_pool (s : State) (f : Dx → Dx) : (s.modDx f).pool = s.pool := rfl
@[simp] theorem State.modDx_lat (s : State) (f : Dx → Dx) : (s.modDx f).lat = s.lat := rfl
@[simp] theorem State.modDx_chans (s : State) (f : Dx → Dx) : (s.modDx f).chans = s.chans := rfl
@[simp] theorem State.modDx_tm (s : State) (f : Dx → Dx) : (s.modDx f).tm = s.tm := rfl
@[simp] theorem State.modDx_bdp (s : State) (f : Dx → Dx) : (s.modDx f).bdp = s.bdp := rfl
@[simp] theorem State.modDx_cd (s : State) (f : Dx → Dx) : (s.modDx f).cd = s.cd := rfl
@[simp] theorem State.modDx_tg (s : State) (f : Dx → Dx) : (s.modDx f).tg = s.tg := rfl
@[simp] theorem State.modDx_dx (s : State) (f : Dx → Dx) : (s.modDx f).dx = f s.dx := rfl
@[simp] theorem State.modDx_units (s : State) (f : Dx → Dx) : (s.modDx f).units = s.units := rfl
@[simp] theorem State.modDx_pw (s : State) (f : Dx → Dx) : (s.modDx f).pw = s.pw := rfl
@[simp] theorem State.modDx_mp (s : State) (f : Dx → Dx) : (s.modDx f).mp = s.mp := rfl
@[simp] theorem State.modDx_ret (s : State) (f : Dx → Dx) : (s.modDx f).ret = s.ret := rfl
@[simp] theorem State.modDx_boot (s : State) (f : Dx → Dx) : (s.modDx f).boot = s.boot := rfl
@[simp] theorem State.modDx_tap (s : State) (f : Dx → Dx) : (s.modDx f).tap = s.tap := rfl
@[simp] theorem State.modDx_round (s : State) (f : Dx → Dx) : (s.modDx f).round = s.round := rfl
@[simp] theorem State.modDx_ckRound (s : State) (f : Dx → Dx) : (s.modDx f).ckRound = s.ckRound := rfl
@[simp] theorem State.modDx_outs (s : State) (f : Dx → Dx) : (s.modDx f).outs = s.outs := rfl
@[simp] theorem State.modDx_freeCtr (s : State) (f : Dx → Dx) : (s.modDx f).freeCtr = s.freeCtr := rfl
@[simp] theorem State.modDx_pending (s : State) (f : Dx → Dx) : (s.modDx f).pending = s.pending := rfl

/-! ### State.modUnit -/

@[simp] theorem State.modUnit_sq (s : State) (u : Nat) (f : Unit' → Unit') : (s.modUnit u f).sq = s.sq := rfl
@[simp] theorem State.modUnit_gl (s : State) (u : Nat) (f : Unit' → Unit') : (s.modUnit u f).gl = s.gl := rfl
@[simp] theorem State.modUnit_vx (s : State) (u : Nat) (f : Unit' → Unit') : (s.modUnit u f).vx = s.vx := rfl
@[simp] theorem State.modUnit_pool (s : State) (u : Nat) (f : Unit' → Unit') : (s.modUnit u f).pool = s.pool := rfl
@[simp] theorem State.modUnit_lat (s : State) (u : Nat) (f : Unit' → Unit') : (s.modUnit u f).lat = s.lat := rfl
@[simp] theorem State.modUnit_chans (s : State) (u : Nat) (f : Unit' → Unit') : (s.modUnit u f).chans = s.chans := rfl
@[simp] theorem State.modUnit_tm (s : State) (u : Nat) (f : Unit' → Unit') : (s.modUnit u f).tm = s.tm := rfl
@[simp] theorem State.modUnit_bdp (s : State) (u : Nat) (f : Unit' → Unit') : (s.modUnit u f).bdp = s.bdp := rfl
@[simp] theorem State.modUnit_cd (s : State) (u : Nat) (f : Unit' → Unit') : (s.modUnit u f).cd = s.cd := rfl
@[simp] theorem State.modUnit_tg (s : State) (u : Nat) (f : Unit' → Unit') : (s.modUnit u f).tg = s.tg := rfl
@[simp] theorem State.modUnit_dx (s : State) (u : Nat) (f : Unit' → Unit') : (s.modUnit u f).dx = s.dx := rfl
@[simp] theorem State.modUnit_units (s : State) (u : Nat) (f : Unit' → Unit') : (s.modUnit u f).units = mset s.units u (f (s.unit u)) := rfl
@[simp] theorem State.modUnit_pw (s : State) (u : Nat) (f : Unit' → Unit') : (s.modUnit u f).pw = s.pw := rfl
@[simp] theorem State.modUnit_mp (s : State) (u : Nat) (f : Unit' → Unit') : (s.modUnit u f).mp = s.mp := rfl
@[simp] theorem State.modUnit_ret (s : State) (u : Nat) (f : Unit' → Unit') : (s.modUnit u f).ret = s.ret := rfl
@[simp] theorem State.modUnit_boot (s : State) (u : Nat) (f : Unit' → Unit') : (s.modUnit u f).boot = s.boot := rfl
@[simp] theorem State.modUnit_tap (s : State) (u : Nat) (f : Unit' → Unit') : (s.modUnit u f).tap = s.tap := rfl
@[simp] theorem State.modUnit_round (s : State) (u : Nat) (f : Unit' → Unit') : (s.modUnit u f).round = s.round := rfl
@[simp] theorem State.modUnit_ckRound (s : State) (u : Nat) (f : Unit' → Unit') : (s.modUnit u f).ckRound = s.ckRound := rfl
@[simp] theorem State.modUnit_outs (s : State) (u : Nat) (f : Unit' → Unit') : (s.modUnit u f).outs = s.outs := rfl
@[simp] theorem State.modUnit_freeCtr (s : State) (u : Nat) (f : Unit' → Unit') : (s.modUnit u f).freeCtr = s.freeCtr := rfl
@[simp] theorem State.modUnit_pending (s : State) (u : Nat) (f : Unit' → Unit') : (s.modUnit u f).pending = s.pending := rfl

/-! ### State.modPw -/

@[simp] theorem State.modPw_sq (s : State) (f : Pw → Pw) : (s.modPw f).sq = s.sq := rfl
@[simp] theorem State.modPw_gl (s : State) (f : Pw → Pw) : (s.modPw f).gl = s.gl := rfl
@[simp] theorem State.modPw_vx (s : State) (f : Pw → Pw) : (s.modPw f).vx = s.vx := rfl
@[simp] theorem State.modPw_pool (s : State) (f : Pw → Pw) : (s.modPw f).pool = s.pool := rfl
@[simp] theorem State.modPw_lat (s : State) (f : Pw → Pw) : (s.modPw f).lat = s.lat := rfl
@[simp] theorem State.modPw_chans (s : State) (f : Pw → Pw) : (s.modPw f).chans = s.chans := rfl
@[simp] theorem State.modPw_tm (s : State) (f : Pw → Pw) : (s.modPw f).tm = s.tm := rfl
@[simp] theorem State.modPw_bdp (s : State) (f : Pw → Pw) : (s.modPw f).bdp = s.bdp := rfl
@[simp] theorem State.modPw_cd (s : State) (f : Pw → Pw) : (s.modPw f).cd = s.cd := rfl
@[simp] theorem State.modPw_tg (s : State) (f : Pw → Pw) : (s.modPw f).tg = s.tg := rfl
@[simp] theorem State.modPw_dx (s : State) (f : Pw → Pw) : (s.modPw f).dx = s.dx := rfl
@[simp] theorem State.modPw_units (s : State) (f : Pw → Pw) : (s.modPw f).units = s.units := rfl
@[simp] theorem State.modPw_pw (s : State) (f : Pw → Pw) : (s.modPw f).pw = f s.pw := rfl
@[simp] theorem State.modPw_mp (s : State) (f : Pw → Pw) : (s.modPw f).mp = s.mp := rfl
@[simp] theorem State.modPw_ret (s : State) (f : Pw → Pw) : (s.modPw f).ret = s.ret := rfl
@[simp] theorem State.modPw_boot (s : State) (f : Pw → Pw) : (s.modPw f).boot = s.boot := rfl
@[simp] theorem State.modPw_tap (s : State) (f : Pw → Pw) : (s.modPw f).tap = s.tap := rfl
@[simp] theorem State.modPw_round (s : State) (f : Pw → Pw) : (s.modPw f).round = s.round := rfl
@[simp] theorem State.modPw_ckRound (s : State) (f : Pw → Pw) : (s.modPw f).ckRound = s.ckRound := rfl
@[simp] theorem State.modPw_outs (s : State) (f : Pw → Pw) : (s.modPw f).outs = s.outs := rfl
@[simp] theorem State.modPw_freeCtr (s : State) (f : Pw → Pw) : (s.modPw f).freeCtr = s.freeCtr := rfl
@[simp] theorem State.modPw_pending (s : State) (f : Pw → Pw) : (s.modPw f).pending = s.pending := rfl

/-! ### State.modMp -/

@[simp] theorem State.modMp_sq (s : State) (f : Mp → Mp) : (s.modMp f).sq = s.sq := rfl
@[simp] theorem State.modMp_gl (s : State) (f : Mp → Mp) : (s.modMp f).gl = s.gl := rfl
@[simp] theorem State.modMp_vx (s : State) (f : Mp → Mp) : (s.modMp f).vx = s.vx := rfl
@[simp] theorem State.modMp_pool (s : State) (f : Mp → Mp) : (s.modMp f).pool = s.pool := rfl
@[simp] theorem State.modMp_lat (s : State) (f : Mp → Mp) : (s.modMp f).lat = s.lat := rfl
@[simp] theorem State.modMp_chans (s : State) (f : Mp → Mp) : (s.modMp f).chans = s.chans := rfl
@[simp] theorem State.modMp_tm (s : State) (f : Mp → Mp) : (s.modMp f).tm = s.tm := rfl
@[simp] theorem State.modMp_bdp (s : State) (f : Mp → Mp) : (s.modMp f).bdp = s.bdp := rfl
@[simp] theorem State.modMp_cd (s : State) (f : Mp → Mp) : (s.modMp f).cd = s.cd := rfl
@[simp] theorem State.modMp_tg (s : State) (f : Mp → Mp) : (s.modMp f).tg = s.tg := rfl
@[simp] theorem State.modMp_dx (s : State) (f : Mp → Mp) : (s.modMp f).dx = s.dx := rfl
@[simp] theorem State.modMp_units (s : State) (f : Mp → Mp) : (s.modMp f).units = s.units := rfl
@[simp] theorem State.modMp_pw (s : State) (f : Mp → Mp) : (s.modMp f).pw = s.pw := rfl
@[simp] theorem State.modMp_mp (s : State) (f : Mp → Mp) : (s.modMp f).mp = f s.mp := rfl
@[simp] theorem State.modMp_ret (s : State) (f : Mp → Mp) : (s.modMp f).ret = s.ret := rfl
@[simp] theorem State.modMp_boot (s : State) (f : Mp → Mp) : (s.modMp f).boot = s.boot := rfl
@[simp] theorem State.modMp_tap (s : State) (f : Mp → Mp) : (s.modMp f).tap = s.tap := rfl
@[simp] theorem State.modMp_round (s : State) (f : Mp → Mp) : (s.modMp f).round = s.round := rfl
@[simp] theorem State.modMp_ckRound (s : State) (f : Mp → Mp) : (s.modMp f).ckRound = s.ckRound := rfl
@[simp] theorem State.modMp_outs (s : State) (f : Mp → Mp) : (s.modMp f).outs = s.outs := rfl
@[simp] theorem State.modMp_freeCtr (s : State) (f : Mp → Mp) : (s.modMp f).freeCtr = s.freeCtr := rfl
@[simp] theorem State.modMp_pending (s : State) (f : Mp → Mp) : (s.modMp f).pending = s.pending := rfl

/-! ### State.modRet -/

@[simp] theorem State.modRet_sq (s : State) (f : Ret → Ret) : (s.modRet f).sq = s.sq := rfl
@[simp] theorem State.modRet_gl (s : State) (f : Ret → Ret) : (s.modRet f).gl = s.gl := rfl
@[simp] theorem State.modRet_vx (s : State) (f : Ret → Ret) : (s.modRet f).vx = s.vx := rfl
@[simp] theorem State.modRet_pool (s : State) (f : Ret → Ret) : (s.modRet f).pool = s.pool := rfl
@[simp] theorem State.modRet_lat (s : State) (f : Ret → Ret) : (s.modRet f).lat = s.lat := rfl
@[simp] theorem State.modRet_chans (s : State) (f : Ret → Ret) : (s.modRet f).chans = s.chans := rfl
@[simp] theorem State.modRet_tm (s : State) (f : Ret → Ret) : (s.modRet f).tm = s.tm := rfl
@[simp] theorem State.modRet_bdp (s : State) (f : Ret → Ret) : (s.modRet f).bdp = s.bdp := rfl
@[simp] theorem State.modRet_cd (s : State) (f : Ret → Ret) : (s.modRet f).cd = s.cd := rfl
@[simp] theorem State.modRet_tg (s : State) (f : Ret → Ret) : (s.modRet f).tg = s.tg := rfl
@[simp] theorem State.modRet_dx (s : State) (f : Ret → Ret) : (s.modRet f).dx = s.dx := rfl
@[simp] theorem State.modRet_units (s : State) (f : Ret → Ret) : (s.modRet f).units = s.units := rfl
@[simp] theorem State.modRet_pw (s : State) (f : Ret → Ret) : (s.modRet f).pw = s.pw := rfl
@[simp] theorem State.modRet_mp (s : State) (f : Ret → Ret) : (s.modRet f).mp = s.mp := rfl
@[simp] theorem State.modRet_ret (s : State) (f : Ret → Ret) : (s.modRet f).ret = f s.ret := rfl
@[simp] theorem State.modRet_boot (s : State) (f : Ret → Ret) : (s.modRet f).boot = s.boot := rfl
@[simp] theorem State.modRet_tap (s : State) (f : Ret → Ret) : (s.modRet f).tap = s.tap := rfl
@[simp] theorem State.modRet_round (s : State) (f : Ret → Ret) : (s.modRet f).round = s.round := rfl
@[simp] theorem State.modRet_ckRound (s : State) (f : Ret → Ret) : (s.modRet f).ckRound = s.ckRound := rfl
@[simp] theorem State.modRet_outs (s : State) (f : Ret → Ret) : (s.modRet f).outs = s.outs := rfl
@[simp] theorem State.modRet_freeCtr (s : State) (f : Ret → Ret) : (s.modRet f).freeCtr = s.freeCtr := rfl
@[simp] theorem State.modRet_pending (s : State) (f : Ret → Ret) : (s.modRet f).pending = s.pending := rfl

/-! ### State.modBoot -/

@[simp] theorem State.modBoot_sq (s : State) (f : Boot → Boot) : (s.modBoot f).sq = s.sq := rfl
@[simp] theorem State.modBoot_gl (s : State) (f : Boot → Boot) : (s.modBoot f).gl = s.gl := rfl
@[simp] theorem State.modBoot_vx (s : State) (f : Boot → Boot) : (s.modBoot f).vx = s.vx := rfl
@[simp] theorem State.modBoot_pool (s : State) (f : Boot → Boot) : (s.modBoot f).pool = s.pool := rfl
@[simp] theorem State.modBoot_lat (s : State) (f : Boot → Boot) : (s.modBoot f).lat = s.lat := rfl
@[simp] theorem State.modBoot_chans (s : State) (f : Boot → Boot) : (s.modBoot f).chans = s.chans := rfl
@[simp] theorem State.modBoot_tm (s : State) (f : Boot → Boot) : (s.modBoot f).tm = s.tm := rfl
@[simp] theorem State.modBoot_bdp (s : State) (f : Boot → Boot) : (s.modBoot f).bdp = s.bdp := rfl
@[simp] theorem State.modBoot_cd (s : State) (f : Boot → Boot) : (s.modBoot f).cd = s.cd := rfl
@[simp] theorem State.modBoot_tg (s : State) (f : Boot → Boot) : (s.modBoot f).tg = s.tg := rfl
@[simp] theorem State.modBoot_dx (s : State) (f : Boot → Boot) : (s.modBoot f).dx = s.dx := rfl
@[simp] theorem State.modBoot_units (s : State) (f : Boot → Boot) : (s.modBoot f).units = s.units := rfl
@[simp] theorem State.modBoot_pw (s : State) (f : Boot → Boot) : (s.modBoot f).pw = s.pw := rfl
@[simp] theorem State.modBoot_mp (s : State) (f : Boot → Boot) : (s.modBoot f).mp = s.mp := rfl
@[simp] theorem State.modBoot_ret (s : State) (f : Boot → Boot) : (s.modBoot f).ret = s.ret := rfl
@[simp] theorem State.modBoot_boot (s : State) (f : Boot → Boot) : (s.modBoot f).boot = f s.boot := rfl
@[simp] theorem State.modBoot_tap (s : State) (f : Boot → Boot) : (s.modBoot f).tap = s.tap := rfl
@[simp] theorem State.modBoot_round (s : State) (f : Boot → Boot) : (s.modBoot f).round = s.round := rfl
@[simp] theorem State.modBoot_ckRound (s : State) (f : Boot → Boot) : (s.modBoot f).ckRound = s.ckRound := rfl
@[simp] theorem State.modBoot_outs (s : State) (f : Boot → Boot) : (s.modBoot f).outs = s.outs := rfl
@[simp] theorem State.modBoot_freeCtr (s : State) (f : Boot → Boot) : (s.modBoot f).freeCtr = s.freeCtr := rfl
@[simp] theorem State.modBoot_pending (s : State) (f : Boot → Boot) : (s.modBoot f).pending = s.pending := rfl

/-! ### Entries after an update of their own table -/

@[simp] theorem State.modChan_chan_same (s : State) (n : Nat) (f : Chan → Chan) : (s.modChan n f).chan n = f (s.chan n) :=
  mget_mset_same _ _ _ _
theorem State.modChan_chan_other (s : State) (n j : Nat) (f : Chan → Chan) (h : j ≠ n) : (s.modChan n f).chan j = s.chan j :=
  mget_mset_other _ _ _ _ _ h
@[simp] theorem State.modQueue_queue_same (s : State) (q : Nat) (f : Queue → Queue) : (s.modQueue q f).queue q = f (s.queue q) :=
  mget_mset_same _ _ _ _
theorem State.modQueue_queue_other (s : State) (q j : Nat) (f : Queue → Queue) (h : j ≠ q) : (s.modQueue q f).queue j = s.queue j :=
  mget_mset_other _ _ _ _ _ h
@[simp] theorem State.modGate_gate_same (s : State) (g : Nat) (f : Gate → Gate) : (s.modGate g f).gate g = f (s.gate g) :=
  mget_mset_same _ _ _ _
theorem State.modGate_gate_other (s : State) (g j : Nat) (f : Gate → Gate) (h : j ≠ g) : (s.modGate g f).gate j = s.gate j :=
  mget_mset_other _ _ _ _ _ h
@[simp] theorem State.modCr_cr_same (s : State) (r : Nat) (f : CmdRing → CmdRing) : (s.modCr r f).cr r = f (s.cr r) :=
  mget_mset_same _ _ _ _
theorem State.modCr_cr_other (s : State) (r j : Nat) (f : CmdRing → CmdRing) (h : j ≠ r) : (s.modCr r f).cr j = s.cr j :=
  mget_mset_other _ _ _ _ _ h
@[simp] theorem State.modCq_cq_same (s : State) (k : Nat) (f : CqRing → CqRing) : (s.modCq k f).cq k = f (s.cq k) :=
  mget_mset_same _ _ _ _
theorem State.modCq_cq_other (s : State) (k j : Nat) (f : CqRing → CqRing) (h : j ≠ k) : (s.modCq k f).cq j = s.cq j :=
  mget_mset_other _ _ _ _ _ h
@[simp] theorem State.modCtx_ctx_same (s : State) (c : Nat) (f : Ctx → Ctx) : (s.modCtx c f).ctx c = f (s.ctx c) :=
  mget_mset_same _ _ _ _
theorem State.modCtx_ctx_other (s : State) (c j : Nat) (f : Ctx → Ctx) (h : j ≠ c) : (s.modCtx c f).ctx j = s.ctx j :=
  mget_mset_other _ _ _ _ _ h
@[simp] theorem State.modUnit_unit_same (s : State) (u : Nat) (f : Unit' → Unit') : (s.modUnit u f).unit u = f (s.unit u) :=
  mget_mset_same _ _ _ _
theorem State.modUnit_unit_other (s : State) (u j : Nat) (f : Unit' → Unit') (h : j ≠ u) : (s.modUnit u f).unit j = s.unit j :=
  mget_mset_other _ _ _ _ _ h

/-- Changing a ring twice changes it once. -/
@[simp] theorem State.modCr_modCr (s : State) (r : Nat) (f g : CmdRing → CmdRing) :
    (s.modCr r f).modCr r g = s.modCr r (fun c => g (f c)) := by
  simp [State.modCr, State.cr]

/-- A change of a ring's command is a change of the ring. -/
theorem State.modCmd_eq (s : State) (r : Nat) (f : Cmd → Cmd) :
    s.modCmd r f = s.modCr r fun c => { c with cmd := c.cmd.map f } := rfl

/-- The ring after a change of its command. -/
@[simp] theorem State.modCmd_cr_same (s : State) (r : Nat) (f : Cmd → Cmd) :
    (s.modCmd r f).cr r = { s.cr r with cmd := (s.cr r).cmd.map f } := mget_mset_same _ _ _ _

end Sys2Proof.Machine
end

