-- ==== Sys2Proof/Laws/Ops.lean ====
section
/-!
SUPPORT. What the shared operations do: the beginning and the end of a command, events, host memory.
-/
namespace Sys2Proof.Machine

/-! ## The end of a command -/

/-- `complete` on a command in progress. -/
theorem complete_inProgress (r st : Nat) (r0 r1 : Word) (s : State) (h : inProgress s r = true) :
    complete r st r0 r1 s = s.modCr r fun c => { c with
      done := wrapInc c.done
      cmd := c.cmd.map fun d => { d with dma := false, sub := none, comp := some { status := st, r0 := r0, r1 := r1 },
                                         arr := s.pool.nextSeq } } := by
  simp [complete, h, State.modCmd_eq]

/-- `complete` where no command is in progress. -/
theorem complete_idle (r st : Nat) (r0 r1 : Word) (s : State) (h : inProgress s r = false) : complete r st r0 r1 s = s := by
  simp [complete, h]

/-- After `complete` the ring's command is not in progress. -/
@[simp] theorem complete_notInProgress (r st : Nat) (r0 r1 : Word) (s : State) : inProgress (complete r st r0 r1 s) r = false := by
  cases h : inProgress s r
  · rw [complete_idle _ _ _ _ _ h, h]
  · rw [complete_inProgress _ _ _ _ _ h]
    simp only [inProgress, State.modCr_cr_same]
    cases h2 : (s.cr r).cmd <;> simp

/-- `complete` changes nothing but the ring. -/
theorem complete_frame (r st : Nat) (r0 r1 : Word) (s : State) :
    complete r st r0 r1 s = { s with sq := { s.sq with crs := (complete r st r0 r1 s).sq.crs } } := by
  unfold complete
  split <;> rfl

/-! ## Rings -/

/-- The completion rings do not hang on the command rings. -/
@[simp] theorem State.modCr_cq (s : State) (r : Nat) (f : CmdRing → CmdRing) (k : Nat) : (s.modCr r f).cq k = s.cq k := rfl
/-- The command rings do not hang on the completion rings. -/
@[simp] theorem State.modCq_cr (s : State) (k : Nat) (f : CqRing → CqRing) (r : Nat) : (s.modCq k f).cr r = s.cr r := rfl
/-- The conditions on a ring do not hang on the command rings. -/
@[simp] theorem ringConfigOk_modCr (s : State) (r : Nat) (f : CmdRing → CmdRing) (lo hi : Word) (b : Bool) (l n : Nat) :
    ringConfigOk (s.modCr r f) lo hi b l n = ringConfigOk s lo hi b l n := rfl
/-- The conditions on a ring do not hang on the completion rings. -/
@[simp] theorem ringConfigOk_modCq (s : State) (k : Nat) (f : CqRing → CqRing) (lo hi : Word) (b : Bool) (l n : Nat) :
    ringConfigOk (s.modCq k f) lo hi b l n = ringConfigOk s lo hi b l n := rfl

/-! ## The beginning of a command (R499, R506) -/

/-- The shared checks do not look at the rings. -/
@[simp] theorem sharedCheck_modCr (s : State) (r : Nat) (f : CmdRing → CmdRing) (ws : List Word) :
    sharedCheck (s.modCr r f) ws = sharedCheck s ws := rfl
/-- See `sharedCheck_modCr`. -/
@[simp] theorem sharedCheck_modCmd (s : State) (r : Nat) (f : Cmd → Cmd) (ws : List Word) :
    sharedCheck (s.modCmd r f) ws = sharedCheck s ws := rfl

/-- A ready ring holds its packet in a command that has not begun. -/
theorem ready_cmd {s : State} {r : Nat} {ws : List Word} (h : ready s r = some ws) :
    ∃ c, (s.cr r).cmd = some c ∧ c.begun = false ∧ c.words = ws := by
  unfold ready at h
  split at h
  · rename_i c hc
    refine ⟨c, hc, ?_⟩
    split at h
    · rename_i hb
      simp only [Bool.and_eq_true, Bool.not_eq_true'] at hb
      exact ⟨hb.1.1, Option.some.inj h⟩
    · cases h
  · cases h

/-- An accepted command of the opcode begins with the opcode's own body. -/
theorem beginWhen_accepted {s : State} {r : Nat} {ws : List Word} (h : Accepted s r ws) (p : List Word → Bool)
    (hp : p ws = true) (body : List Word → State → State) : beginWhen r p body s = body ws (started r s) := by
  simp [beginWhen, h.1.1, hp, h.2, started]

/-- See `beginWhen_accepted`. -/
theorem beginOp_accepted {s : State} {r : Nat} {ws : List Word} (h : Accepted s r ws) {op : Nat} (hp : pOpcode ws = op)
    (body : List Word → State → State) : beginOp r op body s = body ws (started r s) :=
  beginWhen_accepted h _ (by simp [hp]) body

/-- A command that a shared check refuses completes with that check's status. -/
theorem beginWhen_refused {s : State} {r : Nat} {ws : List Word} (h : ready s r = some ws) {e : Nat × Word}
    (he : sharedCheck s ws = some e) (p : List Word → Bool) (hp : p ws = true) (body : List Word → State → State) :
    beginWhen r p body s = complete r e.1 (endedResults r (started r s)).1
      (if e.1 = eProfile then e.2 else (endedResults r (started r s)).2) (started r s) := by
  simp [beginWhen, h, hp, he, started]

/-- A ring without a command that may begin is left as it is. -/
theorem beginWhen_none {s : State} {r : Nat} (h : ready s r = none) (p : List Word → Bool)
    (body : List Word → State → State) : beginWhen r p body s = s := by
  simp [beginWhen, h]

/-- A started command that has not completed is in progress. -/
theorem started_inProgress {s : State} {r : Nat} {ws : List Word} (h : Waits s r ws) :
    inProgress (started r s) r = true := by
  obtain ⟨c, h1, _, _⟩ := ready_cmd h.1
  have hc := h.2
  simp only [h1, Option.bind_some] at hc
  simp [inProgress, started, h1, hc]

/-- The packet of a started command. -/
theorem started_pkt {s : State} {r : Nat} {ws : List Word} (h : Waits s r ws) (i : Nat) : pkt (started r s) r i = wd ws i := by
  obtain ⟨c, h1, _, h3⟩ := ready_cmd h.1
  simp [pkt, started, h1, h3]

/-- A command that ends as soon as it has started. -/
@[simp] theorem complete_started {s : State} {r : Nat} {ws : List Word} (h : Waits s r ws) (st : Nat) (r0 r1 : Word) :
    complete r st r0 r1 (started r s) = ended r st r0 r1 s := by
  rw [complete_inProgress _ _ _ _ _ (started_inProgress h)]
  simp [started, ended, State.modCmd_eq, Function.comp_def]

/-- A command that ends after an effect which leaves the rings alone. -/
theorem complete_started_of {s u : State} {r : Nat} {ws : List Word} (h : Waits s r ws) (hu : u.sq.crs = s.sq.crs)
    (st : Nat) (r0 r1 : Word) : complete r st r0 r1 (started r u) = ended r st r0 r1 u := by
  have h1 : inProgress (started r u) r = true := by
    rw [← started_inProgress h]; simp [inProgress, started, State.modCmd, State.modCr, State.cr, hu]
  rw [complete_inProgress _ _ _ _ _ h1]
  simp [started, ended, State.modCmd_eq, Function.comp_def]

/-- A command that ends after an effect outside the host side. -/
theorem complete_effect {s : State} {r : Nat} {ws : List Word} (h : Waits s r ws) (st : Nat) (r0 r1 : Word) (t : State)
    (ht : t.sq = (started r s).sq) (hn : t.pool.nextSeq = s.pool.nextSeq) :
    complete r st r0 r1 t = { t with sq := (ended r st r0 r1 s).sq } := by
  have h1 : inProgress t r = true := by
    rw [← started_inProgress h]; simp [inProgress, State.cr, ht]
  rw [complete_inProgress _ _ _ _ _ h1]
  have h2 := complete_started h st r0 r1
  rw [complete_inProgress _ _ _ _ _ (started_inProgress h)] at h2
  rw [← h2]
  simp [State.modCr, State.cr, ht, hn, started]

/-- The result of an ended command. -/
theorem ended_endedIn {s : State} {r : Nat} {ws : List Word} (h : Waits s r ws) (st : Nat) (r0 r1 : Word) :
    EndedIn (ended r st r0 r1 s) r st r0 r1 := by
  obtain ⟨c, h1, _, _⟩ := ready_cmd h.1
  simp [EndedIn, ended, h1]

end Sys2Proof.Machine
end

