-- ==== Sys2Proof/Laws/Told.lean ====
section
/-!
SUPPORT. What an event or an interrupt changes: `Told`, once per operation that tells something.
-/
namespace Sys2Proof.Machine

/-- Completion rings left alone. -/
theorem CqsTold.of_eq {s t : State} (h : t.sq.cqs = s.sq.cqs) : CqsTold s t := by
  have hk : ∀ k, t.cq k = s.cq k := fun k => by simp [State.cq, h]
  exact ⟨fun k _ => hk k, by simp [hk]⟩

/-- See `CqsTold`. -/
theorem CqsTold.trans {s t u : State} (h : CqsTold s t) (k : CqsTold t u) : CqsTold s u := by
  refine ⟨fun j hj => (k.1 j hj).trans (h.1 j hj), ?_⟩
  rw [k.2]
  conv => lhs; rw [h.2]

/-- Nothing told is told. -/
@[simp] theorem Told.refl (s : State) : Told s s := ⟨rfl, fun _ _ => rfl, .of_eq rfl⟩

/-- What is told one after the other is told. -/
theorem Told.trans {s t u : State} (h : Told s t) (k : Told t u) : Told s u := by
  obtain ⟨h1, h2, h3⟩ := h
  obtain ⟨k1, k2, k3⟩ := k
  have hs : t.sq.stgCells = s.sq.stgCells := by rw [h1]
  refine ⟨?_, fun a ha => ?_, h3.trans k3⟩
  · rw [k1, h1]
  · rw [k2 a (by rw [hs]; exact ha), h2 a ha]

/-- A staging byte's write changes the pool's memory alone, and no byte outside staging. -/
theorem stgPut_eq (s : State) (b : Nat) (v : Byte) :
    stgPut s b v = { s with pool := { s.pool with mem := (stgPut s b v).pool.mem } }
    ∧ ∀ a, a < (65536 - s.sq.stgCells) * 64 → memGet (stgPut s b v).pool.mem a = memGet s.pool.mem a := by
  unfold stgPut
  split
  · refine ⟨rfl, fun a ha => memGet_memSet_other _ _ _ _ ?_⟩
    unfold stgAddr
    have : 65536 - s.sq.stgCells + b / 60 ≥ 65536 - s.sq.stgCells := Nat.le_add_right _ _
    have := Nat.mul_le_mul_right 64 this
    omega
  · exact ⟨rfl, fun _ _ => rfl⟩

/-- See `stgPut_eq`. -/
theorem stgWrite_eq (l : List Byte) : ∀ (s : State) (b : Nat),
    stgWrite s b l = { s with pool := { s.pool with mem := (stgWrite s b l).pool.mem } }
    ∧ ∀ a, a < (65536 - s.sq.stgCells) * 64 → memGet (stgWrite s b l).pool.mem a = memGet s.pool.mem a := by
  induction l with
  | nil => intro s b; exact ⟨rfl, fun _ _ => rfl⟩
  | cons v t ih =>
    intro s b
    obtain ⟨h1, h2⟩ := stgPut_eq s b v
    obtain ⟨k1, k2⟩ := ih (stgPut s b v) (b + 1)
    have hs : (stgPut s b v).sq = s.sq := by rw [h1]
    refine ⟨?_, fun a ha => (k2 a (by rw [hs]; exact ha)).trans (h2 a ha)⟩
    unfold stgWrite
    rw [h1] at k1 ⊢
    exact k1

/-- Host memory is written. -/
theorem hostPut_told (serial : Bool) (addr : Nat) (bytes : List Byte) (s : State) : Told s (hostPut serial addr bytes s) := by
  unfold hostPut
  cases serial
  · exact ⟨rfl, fun _ _ => rfl, .of_eq rfl⟩
  · obtain ⟨h1, h2⟩ := stgWrite_eq bytes s addr
    refine ⟨?_, fun a ha => h2 a ha, .of_eq ?_⟩
    all_goals simp only [if_true]; rw [h1]

/-- An MSI-X message. -/
theorem msixSend_told (v : Nat) (s : State) : Told s (msixSend v s) := by
  unfold msixSend
  split <;> exact ⟨rfl, fun _ _ => rfl, .of_eq rfl⟩

/-- An interrupt. -/
theorem signal_told (serial : Bool) (v : Nat) (s : State) : Told s (signal serial v s) := by
  unfold signal
  split
  · exact ⟨rfl, fun _ _ => rfl, .of_eq rfl⟩
  · exact msixSend_told v s

/-- A change of the event ring's state, place or count. -/
theorem modCq_told (f : CqRing → CqRing) (s : State) (h : f (s.cq 4) = { s.cq 4 with
    state := (f (s.cq 4)).state, tail := (f (s.cq 4)).tail, phase := (f (s.cq 4)).phase, unsig := (f (s.cq 4)).unsig }) :
    Told s (s.modCq 4 f) := by
  refine ⟨rfl, fun _ _ => rfl, fun k hk => State.modCq_cq_other _ _ _ _ hk, ?_⟩
  simpa using h

/-- The event ring signals. -/
theorem cqSignal_told (s : State) : Told s (cqSignal 4 s) := (modCq_told _ _ rfl).trans (signal_told _ _ _)

/-- An entry of the event ring is written. -/
theorem cqWrite_told (ph : Nat) (ws : List Word) (s : State) : Told s (cqWrite 4 ph ws s) := by
  unfold cqWrite
  dsimp only
  split
  · exact ((hostPut_told _ _ _ _).trans (modCq_told _ _ rfl)).trans (cqSignal_told _)
  · exact (hostPut_told _ _ _ _).trans (modCq_told _ _ rfl)

/-- An event is written. -/
theorem evWrite_told (code key : Nat) (items : List (Nat × Nat)) (s : State) : Told s (evWrite code key items s) :=
  (cqWrite_told _ _ _).trans ⟨rfl, fun _ _ => rfl, .of_eq rfl⟩

/-- An event is lost. -/
theorem evLose_told (s : State) : Told s (evLose s) := ⟨rfl, fun _ _ => rfl, .of_eq rfl⟩

/-- The event ring is HALTED. -/
theorem evHalt_told (s : State) : Told s (evHalt s) := by
  unfold evHalt
  dsimp only
  split
  · exact modCq_told _ _ rfl
  · exact (modCq_told _ _ rfl).trans (evLose_told _)

/-- An event is handled. -/
theorem evRaise_told (code key : Nat) (items : List (Nat × Nat)) (s : State) : Told s (evRaise code key items s) := by
  unfold evRaise
  split
  · simp
  · split
    · split
      · exact evWrite_told _ _ _ _
      · exact (evHalt_told _).trans (evLose_told _)
    · exact evLose_told _

/-- An event is raised. -/
@[simp] theorem raise_told (code inst : Nat) (items : List (Nat × Nat)) (s : State) : Told s (raise code inst items s) := by
  unfold raise
  dsimp only
  split
  · simp
  · exact evRaise_told _ _ _ _

/-- Lost events are reported. -/
theorem evLostFlush_told (s : State) : Told s (evLostFlush s) := by
  have h : Told s (s.modSq fun q => { q with lostSince := 0 }) := ⟨rfl, fun _ _ => rfl, .of_eq rfl⟩
  unfold evLostFlush
  split
  · simp
  · split
    · exact h
    · split
      · exact evHalt_told _
      · split
        · exact h.trans (evWrite_told _ _ _ _)
        · simp

end Sys2Proof.Machine
end

