-- ==== Sys2Proof/Laws/Side.lean ====
section
/-!
SUPPORT. What the cells, the queues and the transmit path change (chapters 6 and 7): the host side, the pool, the channels, and
the BDP's list of its own items; one lemma per operation.
-/
namespace Sys2Proof.Machine

set_option linter.unusedSimpArgs false
set_option linter.unusedVariables false

theorem ChanSide_refl (s : State) : ChanSide s s := rfl
theorem side_of {z s t : State} (h : ChanSide z s) (k : ChanSide s t) : ChanSide z t := by
  unfold ChanSide at *
  rw [k, h]
@[simp] theorem side_ite {r a b : State} {c : Prop} [Decidable c] (h1 : ChanSide r a) (h2 : ChanSide r b) : ChanSide r (if c then a else b) := by
  split <;> assumption
@[simp] theorem side_foldl {α : Type} {r : State} (f : State → α → State) (l : List α) (s : State) (h : ChanSide r s)
    (hf : ∀ s a, ChanSide r s → ChanSide r (f s a)) : ChanSide r (l.foldl f s) := by
  induction l generalizing s with
  | nil => exact h
  | cons a t ih => exact ih _ (hf _ _ h)
theorem side_foldl_fst {α β : Type} {r : State} (f : State × β → α → State × β) (l : List α) (x : State × β) (h : ChanSide r x.1)
    (hf : ∀ x a, ChanSide r x.1 → ChanSide r (f x a).1) : ChanSide r (l.foldl f x).1 := by
  induction l generalizing x with
  | nil => exact h
  | cons a t ih => exact ih _ (hf _ _ h)
@[simp] theorem side_mk {r s : State} (h : ChanSide r s) {sq pool chans bdp outs} :
    ChanSide r { s with sq := sq, pool := pool, chans := chans, bdp := bdp, outs := outs } := side_of h rfl
@[simp] theorem State.modChan_side {z s : State} (n : Nat) (f : Chan → Chan) (h : ChanSide z s) : ChanSide z (s.modChan n f) := side_of h rfl
@[simp] theorem State.modQueue_side {z s : State} (q : Nat) (f : Queue → Queue) (h : ChanSide z s) : ChanSide z (s.modQueue q f) := side_of h rfl
@[simp] theorem State.modSq_side {z s : State} (f : Sq → Sq) (h : ChanSide z s) : ChanSide z (s.modSq f) := side_of h rfl
@[simp] theorem State.modCr_side {z s : State} (r : Nat) (f : CmdRing → CmdRing) (h : ChanSide z s) : ChanSide z (s.modCr r f) := side_of h rfl
@[simp] theorem State.modCq_side {z s : State} (k : Nat) (f : CqRing → CqRing) (h : ChanSide z s) : ChanSide z (s.modCq k f) := side_of h rfl
@[simp] theorem State.modCmd_side {z s : State} (r : Nat) (f : Cmd → Cmd) (h : ChanSide z s) : ChanSide z (s.modCmd r f) := side_of h rfl
@[simp] theorem State.emit_side {z s : State} (o : Output) (h : ChanSide z s) : ChanSide z (s.emit o) := side_of h rfl
@[simp] theorem State.modPool_side {z s : State} (f : Pool → Pool) (h : ChanSide z s) : ChanSide z (s.modPool f) := side_of h rfl
variable {z : State}

/-! Ops -/

@[simp] theorem stgPut_side (s b v) (hz : ChanSide z s) : ChanSide z (stgPut s b v) := by simp [stgPut, hz]

@[simp] theorem stgWrite_side (s : State) (b : Nat) (l : List Byte) (h : ChanSide z s) : ChanSide z (stgWrite s b l) := by
  induction l generalizing s b with
  | nil => exact h
  | cons v t ih => exact ih _ _ (stgPut_side _ _ _ h)

@[simp] theorem hostPut_side (serial addr bytes s) (hz : ChanSide z s) : ChanSide z (hostPut serial addr bytes s) := by simp [hostPut, hz]

@[simp] theorem msixSend_side (v s) (hz : ChanSide z s) : ChanSide z (msixSend v s) := by simp [msixSend, hz]

@[simp] theorem signal_side (serial v s) (hz : ChanSide z s) : ChanSide z (signal serial v s) := by simp [signal, hz]

@[simp] theorem cqSignal_side (k s) (hz : ChanSide z s) : ChanSide z (cqSignal k s) := by simp [cqSignal, hz]

@[simp] theorem cqWrite_side (k ph ws s) (hz : ChanSide z s) : ChanSide z (cqWrite k ph ws s) := by simp (maxDischargeDepth := 9) [cqWrite, hz]

@[simp] theorem evWrite_side (code key items s) (hz : ChanSide z s) : ChanSide z (evWrite code key items s) := by simp [evWrite, hz]

@[simp] theorem evLose_side (s) (hz : ChanSide z s) : ChanSide z (evLose s) := by simp [evLose, hz]

@[simp] theorem evHalt_side (s) (hz : ChanSide z s) : ChanSide z (evHalt s) := by simp (maxDischargeDepth := 9) [evHalt, hz]

@[simp] theorem evRaise_side (code key items s) (hz : ChanSide z s) : ChanSide z (evRaise code key items s) := by simp (maxDischargeDepth := 9) [evRaise, hz]

@[simp] theorem raise_side (code inst items s) (hz : ChanSide z s) : ChanSide z (raise code inst items s) := by simp [raise, hz]

@[simp] theorem evLostFlush_side (s) (hz : ChanSide z s) : ChanSide z (evLostFlush s) := by simp (maxDischargeDepth := 9) [evLostFlush, hz]

@[simp] theorem complete_side (r st r0 r1 s) (hz : ChanSide z s) : ChanSide z (complete r st r0 r1 s) := by simp (maxDischargeDepth := 9) [complete, hz]

@[simp] theorem completeAll_side (rs st r0 r1 s) (hz : ChanSide z s) : ChanSide z (completeAll rs st r0 r1 s) := by
  unfold completeAll; simp +contextual (maxDischargeDepth := 60) [hz]

@[simp] theorem bumpBy_side (n off k s) (hz : ChanSide z s) : ChanSide z (bumpBy n off k s) := by simp [bumpBy, hz]

@[simp] theorem bump_side (n off s) (hz : ChanSide z s) : ChanSide z (bump n off s) := by simp [bump, hz]

@[simp] theorem chEvent_side (code n items s) (hz : ChanSide z s) : ChanSide z (chEvent code n items s) := by simp [chEvent, hz]


/-! Cells -/
@[simp] theorem fullRearm_side (q s) (hz : ChanSide z s) : ChanSide z (fullRearm q s) := by simp [fullRearm, hz]

@[simp] theorem poolLow_side (s) (hz : ChanSide z s) : ChanSide z (poolLow s) := by simp (maxDischargeDepth := 9) [poolLow, hz]

@[simp] theorem refuse_side (q byMax s) (hz : ChanSide z s) : ChanSide z (refuse q byMax s) := by simp (maxDischargeDepth := 9) [refuse, hz]

@[simp] theorem relink_side (c s) (hz : ChanSide z s) : ChanSide z (relink c s) := by simp [relink, hz]

@[simp] theorem relinkLast_side (cs s) (hz : ChanSide z s) : ChanSide z (relinkLast cs s) := by
  unfold relinkLast; (repeat' split) <;> simp [hz]

@[simp] theorem chargeOne_side (c q s) (hz : ChanSide z s) : ChanSide z (chargeOne c q s) := by simp (maxDischargeDepth := 9) [chargeOne, hz]

@[simp] theorem charge_side (c q s) (hz : ChanSide z s) : ChanSide z (charge c q s) := by simp (maxDischargeDepth := 9) [charge, hz]

@[simp] theorem ownEnded_side (cs s) (hz : ChanSide z s) : ChanSide z (ownEnded cs s) := side_of hz rfl

@[simp] theorem freeCells_side (cs s) (hz : ChanSide z s) : ChanSide z (freeCells cs s) := by
  unfold freeCells; simp +contextual (maxDischargeDepth := 60) [hz]

@[simp] theorem writeCell_side (c bytes s) (hz : ChanSide z s) : ChanSide z (writeCell c bytes s) := by simp [writeCell, hz]

@[simp] theorem unlink_side (q c s) (hz : ChanSide z s) : ChanSide z (unlink q c s) := by simp [unlink, hz]

@[simp] theorem popItem_side (q i s) (hz : ChanSide z s) : ChanSide z (popItem q i s) := by simp [popItem, hz]

@[simp] theorem linkItem_side (q i s) (hz : ChanSide z s) : ChanSide z (linkItem q i s) := by simp (maxDischargeDepth := 9) [linkItem, hz]

@[simp] theorem flushCheck_side (q s) (hz : ChanSide z s) : ChanSide z (flushCheck q s) := by
  unfold flushCheck; (repeat' split) <;> simp [hz]

@[simp] theorem flushCount_side (q n s) (hz : ChanSide z s) : ChanSide z (flushCount q n s) := by simp [flushCount, hz]

@[simp] theorem discardMarked_side (q cells s) (hz : ChanSide z s) : ChanSide z (discardMarked q cells s) := by simp (maxDischargeDepth := 9) [discardMarked, hz]


/-! TxCore -/
@[simp] theorem drainCheck_side (n s) (hz : ChanSide z s) : ChanSide z (drainCheck n s) := by
  unfold drainCheck; dsimp only; split
  · exact side_of hz rfl
  · exact hz

@[simp] theorem rtCount_side (r k s) (hz : ChanSide z s) : ChanSide z (rtCount r k s) := side_of hz rfl

@[simp] theorem ckFinished_side (key : Nat) (s : State) (hz : ChanSide z s) : ChanSide z (ckFinished key s) := by
  unfold ckFinished
  refine side_foldl _ _ _ hz ?_
  intro s e hz
  dsimp only
  (repeat' split) <;> simp +contextual (maxDischargeDepth := 60) [hz]

@[simp] theorem modPrime_side (n b f s) (hz : ChanSide z s) : ChanSide z (modPrime n b f s) := by simp [modPrime, hz]

@[simp] theorem endEvents_side (n src o i s) (hz : ChanSide z s) : ChanSide z (endEvents n src o i s) := by simp (maxDischargeDepth := 9) [endEvents, hz]

@[simp] theorem returnCells_side (n cells s) (hz : ChanSide z s) : ChanSide z (returnCells n cells s) := by simp (maxDischargeDepth := 9) [returnCells, hz]

@[simp] theorem dropSource_side (n src o i s) (hz : ChanSide z s) : ChanSide z (dropSource n src o i s) := by
  unfold dropSource; dsimp only; (repeat' split) <;> simp (maxDischargeDepth := 60) [hz]

@[simp] theorem endItem_side (n src o i s) (hz : ChanSide z s) : ChanSide z (endItem n src o i s) := by simp (maxDischargeDepth := 9) [endItem, hz]

theorem purgeSource_side (n src : Nat) : ∀ (fuel : Nat) (x : State × Nat), ChanSide z x.1 → ChanSide z (purgeSource n src fuel x).1 := by
  intro fuel
  induction fuel with
  | zero => intro x h; exact h
  | succ k ih =>
    intro x h
    unfold purgeSource
    (repeat' split) <;> first | exact h | exact ih _ (endItem_side _ _ _ _ _ h)

@[simp] theorem purgeAll_side (n : Nat) (s : State) (h : ChanSide z s) : ChanSide z (purgeAll n s).1 := by
  apply side_foldl_fst _ _ _ h
  intro x a hx; exact purgeSource_side _ _ _ _ hx

@[simp] theorem purge_side (n s) (h : ChanSide z s) : ChanSide z (purge n s) := purgeAll_side _ _ h

@[simp] theorem purgeDemoted_side (n s) (hz : ChanSide z s) : ChanSide z (purgeDemoted n s) := by simp (maxDischargeDepth := 9) [purgeDemoted, hz]

@[simp] theorem unloadGone_side (n s) (hz : ChanSide z s) : ChanSide z (unloadGone n s) := by
  unfold unloadGone; (repeat' split) <;> simp [hz]

@[simp] theorem loadWinner_side (n w s) (hz : ChanSide z s) : ChanSide z (loadWinner n w s) := by simp [loadWinner, hz]

@[simp] theorem recheck_side (n s) (hz : ChanSide z s) : ChanSide z (recheck n s) := by
  unfold recheck; dsimp only; (repeat' split) <;> simp (maxDischargeDepth := 60) [hz]

@[simp] theorem nextSeq_side (s) (hz : ChanSide z s) : ChanSide z (nextSeq s) := by simp [nextSeq, hz]

@[simp] theorem commitAt_side (q i s) (hz : ChanSide z s) : ChanSide z (commitAt q i s) := by simp (maxDischargeDepth := 9) [commitAt, hz]

@[simp] theorem commitItem_side (q cls cells s) (hz : ChanSide z s) : ChanSide z (commitItem q cls cells s) := by simp [commitItem, hz]

@[simp] theorem finishStop_side (n k s) (hz : ChanSide z s) : ChanSide z (finishStop n k s) := by simp [finishStop, hz]

@[simp] theorem dropChains_side : ∀ (n : Nat) (l : List Chain) (s : State), ChanSide z s → ChanSide z (dropChains n l s) := by
  intro n l
  induction l with
  | nil => intro s h; exact h
  | cons c t ih =>
    intro s h
    unfold dropChains
    exact ih _ (by split <;> simp [h])

@[simp] theorem cutRemove_side (q c0 s) (hz : ChanSide z s) : ChanSide z (cutRemove q c0 s) := by
  unfold cutRemove; dsimp only; (repeat' split) <;> simp (maxDischargeDepth := 60) [hz]

@[simp] theorem cutUnborn_side (n x c s) (hz : ChanSide z s) : ChanSide z (cutUnborn n x c s) := by simp (maxDischargeDepth := 9) [cutUnborn, hz]

@[simp] theorem inboundFail_side (n x s) (hz : ChanSide z s) : ChanSide z (inboundFail n x s) := by
  unfold inboundFail; dsimp only; (repeat' split) <;> simp (maxDischargeDepth := 60) [hz]

@[simp] theorem dropFrame_side (n x s) (hz : ChanSide z s) : ChanSide z (dropFrame n x s) := by simp [dropFrame, hz]

@[simp] theorem dropRecord_side (n x s) (hz : ChanSide z s) : ChanSide z (dropRecord n x s) := by simp [dropRecord, hz]

@[simp] theorem abandonRx_side (n s) (hz : ChanSide z s) : ChanSide z (abandonRx n s) := by
  unfold abandonRx; try dsimp only
  first
  | (simp +contextual (maxDischargeDepth := 60) [hz]; done)
  | (repeat' split) <;> simp +contextual (maxDischargeDepth := 60) [hz]

@[simp] theorem finishCancel_side (l o s) (hz : ChanSide z s) : ChanSide z (finishCancel l o s) := by simp [finishCancel, hz]

@[simp] theorem attemptFailed_side (n o s) (hz : ChanSide z s) : ChanSide z (attemptFailed n o s) := by
  unfold attemptFailed; dsimp only; (repeat' split) <;> simp (maxDischargeDepth := 60) [hz]

@[simp] theorem cutWire_side (n s) (hz : ChanSide z s) : ChanSide z (cutWire n s) := by simp (maxDischargeDepth := 9) [cutWire, hz]

@[simp] theorem dropRequests_side (n st s) (hz : ChanSide z s) : ChanSide z (dropRequests n st s) := by
  have h : ChanSide z (s.pw.locals.foldl (fun s l => match l.ring with
      | some r => if l.ch = n then complete r st 0 0 s else s
      | none => s) s) := by
    refine side_foldl _ _ _ hz fun s l hs => ?_
    split
    · exact side_ite (complete_side _ _ _ _ _ hs) hs
    · exact hs
  unfold dropRequests
  exact side_of h rfl

@[simp] theorem chanSafe_side (n st s) (hz : ChanSide z s) : ChanSide z (chanSafe n st s) := by
  unfold chanSafe; dsimp only; (repeat' split) <;> simp (maxDischargeDepth := 60) [hz]

@[simp] theorem chanFree_side (n s) (hz : ChanSide z s) : ChanSide z (chanFree n s) := by simp (maxDischargeDepth := 9) [chanFree, hz]


/-! Flags -/
@[simp] theorem dropSub_side (r s) (hz : ChanSide z s) : ChanSide z (dropSub r s) := by
  unfold dropSub; (repeat' split) <;> simp [hz]

@[simp] theorem endCommand_side (st s r) (hz : ChanSide z s) : ChanSide z (endCommand st s r) := by simp (maxDischargeDepth := 9) [endCommand, hz]

@[simp] theorem endCommands_side (st s) (hz : ChanSide z s) : ChanSide z (endCommands st s) := by
  unfold endCommands; simp +contextual (maxDischargeDepth := 60) [hz]


end Sys2Proof.Machine
end

