-- ==== Sys2Proof/Laws/FaultSide.lean ====
section
/-!
SUPPORT. What a fault report and its reaction change (chapter 14), one lemma per operation.
-/
namespace Sys2Proof.Machine

set_option linter.unusedSimpArgs false
set_option linter.unusedVariables false

theorem FaultSide_refl (s : State) : FaultSide s s := rfl
theorem fside_of {z s t : State} (h : FaultSide z s) (k : FaultSide s t) : FaultSide z t := by
  unfold FaultSide at *
  rw [k, h]
theorem ChanSide.fside {s t : State} (h : ChanSide s t) : FaultSide s t := by
  unfold ChanSide at h; unfold FaultSide; rw [h]
theorem fside_side {z s t : State} (h : FaultSide z s) (k : ChanSide s t) : FaultSide z t := fside_of h k.fside
@[simp] theorem fside_ite {r a b : State} {c : Prop} [Decidable c] (h1 : FaultSide r a) (h2 : FaultSide r b) :
    FaultSide r (if c then a else b) := by
  split <;> assumption
@[simp] theorem fside_foldl {α : Type} {r : State} (f : State → α → State) (l : List α) (s : State) (h : FaultSide r s)
    (hf : ∀ s a, FaultSide r s → FaultSide r (f s a)) : FaultSide r (l.foldl f s) := by
  induction l generalizing s with
  | nil => exact h
  | cons a t ih => exact ih _ (hf _ _ h)
@[simp] theorem fside_mk {r s : State} (h : FaultSide r s) {sq pool chans bdp outs vx gl pw dx ret} :
    FaultSide r { s with sq := sq, pool := pool, chans := chans, bdp := bdp, outs := outs, vx := vx, gl := gl, pw := pw, dx := dx, ret := ret } :=
  fside_of h rfl
@[simp] theorem State.modChan_fside {z s : State} (n : Nat) (f : Chan → Chan) (h : FaultSide z s) : FaultSide z (s.modChan n f) := fside_of h rfl
@[simp] theorem State.modQueue_fside {z s : State} (q : Nat) (f : Queue → Queue) (h : FaultSide z s) : FaultSide z (s.modQueue q f) := fside_of h rfl
@[simp] theorem State.modSq_fside {z s : State} (f : Sq → Sq) (h : FaultSide z s) : FaultSide z (s.modSq f) := fside_of h rfl
@[simp] theorem State.modCr_fside {z s : State} (r : Nat) (f : CmdRing → CmdRing) (h : FaultSide z s) : FaultSide z (s.modCr r f) := fside_of h rfl
@[simp] theorem State.modCmd_fside {z s : State} (r : Nat) (f : Cmd → Cmd) (h : FaultSide z s) : FaultSide z (s.modCmd r f) := fside_of h rfl
@[simp] theorem State.emit_fside {z s : State} (o : Output) (h : FaultSide z s) : FaultSide z (s.emit o) := fside_of h rfl
@[simp] theorem State.modPool_fside {z s : State} (f : Pool → Pool) (h : FaultSide z s) : FaultSide z (s.modPool f) := fside_of h rfl
@[simp] theorem State.modVx_fside {z s : State} (f : Vx → Vx) (h : FaultSide z s) : FaultSide z (s.modVx f) := fside_of h rfl
@[simp] theorem State.modGl_fside {z s : State} (f : Gl → Gl) (h : FaultSide z s) : FaultSide z (s.modGl f) := fside_of h rfl

variable {z : State}

@[simp] theorem raise_fside (code inst items s) (h : FaultSide z s) : FaultSide z (raise code inst items s) := fside_side h (raise_side code inst items s (ChanSide_refl s))
@[simp] theorem complete_fside (r st r0 r1 s) (h : FaultSide z s) : FaultSide z (complete r st r0 r1 s) := fside_side h (complete_side r st r0 r1 s (ChanSide_refl s))
@[simp] theorem signal_fside (serial v s) (h : FaultSide z s) : FaultSide z (signal serial v s) := fside_side h (signal_side serial v s (ChanSide_refl s))
@[simp] theorem chanSafe_fside (n st s) (h : FaultSide z s) : FaultSide z (chanSafe n st s) := fside_side h (chanSafe_side n st s (ChanSide_refl s))
@[simp] theorem freeCells_fside (cs s) (h : FaultSide z s) : FaultSide z (freeCells cs s) := fside_side h (freeCells_side cs s (ChanSide_refl s))
@[simp] theorem discardMarked_fside (q cells s) (h : FaultSide z s) : FaultSide z (discardMarked q cells s) := fside_side h (discardMarked_side q cells s (ChanSide_refl s))
@[simp] theorem dropSub_fside (r s) (h : FaultSide z s) : FaultSide z (dropSub r s) := fside_side h (dropSub_side r s (ChanSide_refl s))
@[simp] theorem endCommands_fside (st s) (h : FaultSide z s) : FaultSide z (endCommands st s) := fside_side h (endCommands_side st s (ChanSide_refl s))
@[simp] theorem recheck_fside (n s) (h : FaultSide z s) : FaultSide z (recheck n s) := fside_side h (recheck_side n s (ChanSide_refl s))
@[simp] theorem chEvent_fside (code n items s) (h : FaultSide z s) : FaultSide z (chEvent code n items s) := fside_side h (chEvent_side code n items s (ChanSide_refl s))
@[simp] theorem linkKick_fside (s) (hz : FaultSide z s) : FaultSide z (linkKick s) := by
  unfold linkKick; (repeat' split) <;> simp [hz]

@[simp] theorem linkSend_fside (p s) (hz : FaultSide z s) : FaultSide z (linkSend p s) := by simp (maxDischargeDepth := 9) [linkSend, hz]

@[simp] theorem sendNotice_fside (src cls s) (hz : FaultSide z s) : FaultSide z (sendNotice src cls s) := by simp [sendNotice, hz]

@[simp] theorem endCommand_fside (st s r) (hz : FaultSide z s) : FaultSide z (endCommand st s r) := by simp (maxDischargeDepth := 9) [endCommand, hz]

@[simp] theorem proofAbandon_fside (s) (hz : FaultSide z s) : FaultSide z (proofAbandon s) := by
  unfold proofAbandon; (repeat' split) <;> simp [hz]

@[simp] theorem safeLatch_fside (s) (hz : FaultSide z s) : FaultSide z (safeLatch s) := by simp [safeLatch, hz]

@[simp] theorem safeLink_fside (s) (hz : FaultSide z s) : FaultSide z (safeLink s) := by simp [safeLink, hz]

@[simp] theorem enterSafe_fside (s) (hz : FaultSide z s) : FaultSide z (enterSafe s) := by
  unfold enterSafe; simp +contextual (maxDischargeDepth := 60) [hz]

@[simp] theorem forceTarget_fside (t s) (hz : FaultSide z s) : FaultSide z (forceTarget t s) := by
  unfold forceTarget; (repeat' split) <;> simp [hz]

@[simp] theorem holdTarget_fside (src t s) (hz : FaultSide z s) : FaultSide z (holdTarget src t s) := by simp (maxDischargeDepth := 9) [holdTarget, hz]

@[simp] theorem latchFirst_fside (src cls injected detail s) (hz : FaultSide z s) : FaultSide z (latchFirst src cls injected detail s) := by simp [latchFirst, hz]

@[simp] theorem recordFirst_fside (src cls injected detail s) (hz : FaultSide z s) : FaultSide z (recordFirst src cls injected detail s) := by simp (maxDischargeDepth := 9) [recordFirst, hz]

@[simp] theorem vxFaultEvent_fside (src cls injected detail s) (hz : FaultSide z s) : FaultSide z (vxFaultEvent src cls injected detail s) := by simp [vxFaultEvent, hz]

@[simp] theorem proofDone_fside (src r lat s) (hz : FaultSide z s) : FaultSide z (proofDone src r lat s) := by simp (maxDischargeDepth := 9) [proofDone, hz]

@[simp] theorem proofSeen_fside (src s) (hz : FaultSide z s) : FaultSide z (proofSeen src s) := by
  unfold proofSeen; (repeat' split) <;> simp [hz]

@[simp] theorem recordLast3_fside (src cls detail s) (hz : FaultSide z s) : FaultSide z (recordLast3 src cls detail s) := by simp [recordLast3, hz]

@[simp] theorem faultInterrupt_fside (cls s) (hz : FaultSide z s) : FaultSide z (faultInterrupt cls s) := by simp (maxDischargeDepth := 9) [faultInterrupt, hz]

@[simp] theorem recordGenuine_fside (src cls wasSet detail s) (hz : FaultSide z s) : FaultSide z (recordGenuine src cls wasSet detail s) := by simp (maxDischargeDepth := 9) [recordGenuine, hz]

@[simp] theorem recordConseq_fside (src s) (hz : FaultSide z s) : FaultSide z (recordConseq src s) := by simp [recordConseq, hz]

@[simp] theorem reaction_fside (src cls wasSet detail s) (hz : FaultSide z s) : FaultSide z (reaction src cls wasSet detail s) := by
  unfold reaction; (repeat' split) <;> simp [hz]

@[simp] theorem vxAssert_fside (src detail s) (hz : FaultSide z s) : FaultSide z (vxAssert src detail s) := by simp (maxDischargeDepth := 9) [vxAssert, hz]

@[simp] theorem vxLevelOn_fside (src detail s) (hz : FaultSide z s) : FaultSide z (vxLevelOn src detail s) := by simp (maxDischargeDepth := 9) [vxLevelOn, hz]

@[simp] theorem vxLevelOff_fside (src s) (hz : FaultSide z s) : FaultSide z (vxLevelOff src s) := by simp [vxLevelOff, hz]

@[simp] theorem vxInject_fside (src detail s) (hz : FaultSide z s) : FaultSide z (vxInject src detail s) := by simp (maxDischargeDepth := 9) [vxInject, hz]

@[simp] theorem hostFault_fside (k s) (hz : FaultSide z s) : FaultSide z (hostFault k s) := by simp (maxDischargeDepth := 9) [hostFault, hz]


end Sys2Proof.Machine
end

