-- ==== Sys2Proof/Laws/Boot.lean ====
section
/-!
SUPPORT. The commit of an image: the checks decide, and the device is in SERVICE afterwards (R443, R452).
-/
namespace Sys2Proof.Machine

/-- Where every check passes. -/
theorem afterChecks_none {α : Type} (bad : ImgFail → α) (good : α) {x : Option ImgFail} (h : x = none) :
    afterChecks bad good x = good := by
  subst h; rfl
/-- Where a check fails. -/
theorem afterChecks_some {α : Type} (bad : ImgFail → α) (good : α) {x : Option ImgFail} {f : ImgFail} (h : x = some f) :
    afterChecks bad good x = bad f := by
  subst h; rfl

/-- The content checks pass. -/
theorem commitImage_good (ring : Option Nat) (serial : Bool) (img : List Byte) (s : State)
    (h : commitFail s serial img = none) : commitImage ring serial img s = (none, applyImage ring serial img s) := by
  unfold commitImage
  exact afterChecks_none _ _ h
/-- A content check fails. -/
theorem commitImage_bad (ring : Option Nat) (serial : Bool) (img : List Byte) (s : State) (f : ImgFail)
    (h : commitFail s serial img = some f) : commitImage ring serial img s = (some f, recordFail f s) := by
  unfold commitImage
  exact afterChecks_some _ _ h

/-- Two checks that pass. -/
theorem both_pass {α : Type} (bad : ImgFail → α) {x : Option ImgFail} {p : Option ImgFail × α} {a : α} (h1 : x = none)
    (h2 : p = (none, a)) : afterChecks bad (afterChecks bad p.2 p.1) x = a := by
  subst h1; subst h2; rfl
/-- A copy that passes every check is committed. -/
theorem copyRead_good (s : State) (img : List Byte) (h2 : imageFail img = none)
    (h3 : commitFail { s with boot := { s.boot with copy := s.boot.reading } } false img = none) :
    copyRead img s = applyImage none false img { s with boot := { s.boot with copy := s.boot.reading } } :=
  both_pass _ h2 (commitImage_good none false img _ h3)
/-- A copy that fails a check of R451. -/
theorem copyRead_bad (s : State) (img : List Byte) (f : ImgFail) (h : imageFail img = some f) :
    copyRead img s = copyFailed f s := by
  unfold copyRead
  exact afterChecks_some _ _ h

/-- Bring-up's phase and Vertex are as they were. -/
def SamePhase (z s : State) : Prop := s.boot.phase = z.boot.phase ∧ s.vx = z.vx
/-- Channels leave both alone. -/
theorem SamePhase.of_chan {z s t : State} (h : SamePhase z s) (k : ChanSide s t) : SamePhase z t := by
  unfold ChanSide at k
  exact ⟨by rw [k]; exact h.1, by rw [k]; exact h.2⟩

variable {z : State}

/-- A planned step. -/
theorem planWritten_phase (n off s) (h : SamePhase z s) : SamePhase z (planWritten n off s) := by
  unfold planWritten; dsimp only; split <;> exact h
/-- See `ChanSide`. -/
theorem stoppingEnds_side (n k s) (h : ChanSide z s) : ChanSide z (stoppingEnds n k s) := by
  unfold stoppingEnds; split <;> simp [h]
/-- See `ChanSide`. -/
theorem trxDone_side (n r s) (h : ChanSide z s) : ChanSide z (trxDone n r s) := by
  unfold trxDone; simp [h]
/-- See `ChanSide`. -/
theorem trxSettled_side (n s) (h : ChanSide z s) : ChanSide z (trxSettled n s) := by
  unfold trxSettled
  split
  · dsimp only
    split
    · exact recheck_side _ _ (trxDone_side _ _ _ (State.modChan_side _ _ h))
    · exact recheck_side _ _ (State.modChan_side _ _ h)
  · exact h
/-- A command that ends with a change of the transceiver. -/
theorem optComplete_side (o : Option Nat) (st : Nat) (s) (h : ChanSide z s) :
    ChanSide z (match o with | some r => complete r st 0 0 s | none => s) := by
  split
  · exact complete_side _ _ _ _ _ h
  · exact h
/-- See `ChanSide`. -/
theorem trxSet_side (n t r s) (h : ChanSide z s) : ChanSide z (trxSet n t r s) := by
  have h1 := optComplete_side (z := z) (s.chan n).trxRing eState s h
  have h2 : ∀ (b : Bool) (u : State), ChanSide z u → ChanSide z (if b then stoppingEnds n 3 (cutWire n u) else u) := by
    intro b u hu
    split
    · exact stoppingEnds_side _ _ _ (cutWire_side _ _ hu)
    · exact hu
  have h3 : ∀ (settle : Bool) (u : State), ChanSide z u → ChanSide z (
      let s := u.modChan n fun c => { c with
        trx := t, trxTgt := t, settling := settle, pinsDrv := true, trxRing := if settle then r else none,
        state := if lowTrx t && c.state == .active then .integrating else c.state }
      if settle then (if fld (s.chan n).trxTim 0 16 = 0 then trxSettled n s else recheck n s)
      else
        let s := match r with | some r => trxDone n r s | none => s
        recheck n s) := by
    intro b u hu
    dsimp only
    split
    · split
      · exact trxSettled_side _ _ (State.modChan_side _ _ hu)
      · exact recheck_side _ _ (State.modChan_side _ _ hu)
    · split
      · exact recheck_side _ _ (trxDone_side _ _ _ (State.modChan_side _ _ hu))
      · exact recheck_side _ _ (State.modChan_side _ _ hu)
  exact h3 _ _ (h2 _ _ h1)
/-- See `ChanSide`. -/
theorem imageTrx_side (img off n s) (h : ChanSide z s) : ChanSide z (imageTrx img off n s) := by
  unfold imageTrx
  split
  · dsimp only
    split
    · exact State.modChan_side _ _ h
    · exact trxSet_side _ _ _ _ h
  · exact State.modChan_side _ _ h
/-- See `ChanSide`. -/
theorem startChannel_side (n s) (h : ChanSide z s) : ChanSide z (startChannel n s) := by
  unfold startChannel; simp [h]
/-- See `ChanSide`. -/
theorem imageBegin_side (img off n s) (h : ChanSide z s) : ChanSide z (imageBegin img off n s) := by
  unfold imageBegin
  have h1 := imageTrx_side img off n s h
  split
  · exact h
  · split
    · exact startChannel_side _ _ h1
    · exact recheck_side _ _ h1
/-- See `SamePhase`. -/
theorem imageSettings_phase (img off n s) (h : SamePhase z s) : SamePhase z (imageSettings img off n s) := by
  have h4 : ∀ (l : List Nat) (u : State), SamePhase z u → SamePhase z (l.foldl (fun s o => planWritten n o s) u) := by
    intro l
    induction l with
    | nil => intro u hu; exact hu
    | cons a t ih => intro u hu; exact ih _ (planWritten_phase _ _ _ hu)
  have h0 : SamePhase z (s.modChan n fun c => { imageRegs img off c with
      state := if c.state == .safe then .safe else .stopped, boff := .none, seqCnt := 0 }) :=
    h.of_chan (State.modChan_side _ _ rfl)
  unfold imageSettings
  dsimp only
  split
  · exact h4 _ _ h0
  · exact h0
/-- See `SamePhase`. -/
theorem takeCommit_phase (j n s) (h : SamePhase z s) : SamePhase z (takeCommit j n s) := by
  unfold takeCommit
  split
  · split
    · exact h
    · exact SamePhase.of_chan h (recheck_side _ _ rfl)
  · unfold imageChan
    have h1 := imageSettings_phase j.image (sectAt j.image secChannel n) n s h
    generalize imageSettings j.image (sectAt j.image secChannel n) n s = u at h1 ⊢
    exact h1.of_chan (imageBegin_side _ _ _ _ rfl)
/-- See `SamePhase`. -/
theorem takeSettings_phase (n s) (h : SamePhase z s) : SamePhase z (takeSettings n s) := by
  unfold takeSettings
  split
  · split
    · exact takeCommit_phase _ _ _ h
    · exact h
  · exact h
/-- See `SamePhase`. -/
theorem startCommit_phase (j s) (h : SamePhase z s) : SamePhase z (startCommit j s) := by
  have h4 : ∀ (l : List Nat) (u : State), SamePhase z u → SamePhase z (l.foldl (fun s n => takeSettings n s) u) := by
    intro l
    induction l with
    | nil => intro u hu; exact hu
    | cons a t ih => intro u hu; exact ih _ (takeSettings_phase _ _ hu)
  exact h4 _ _ h
/-- See `ChanSide`. -/
theorem forceHeld_side (s) (h : ChanSide z s) : ChanSide z (forceHeld s) := by
  unfold forceHeld
  apply side_foldl _ _ _ h
  intro s a hs
  unfold forceAgain
  split
  · exact chanSafe_side _ _ _ hs
  · exact hs

/-- The device enters SERVICE. -/
theorem enterService_service (s : State) : (enterService s).boot.phase = .service ∧ (enterService s).vx.aliveRun = true := by
  unfold enterService
  dsimp only
  split
  · rename_i h; simp_all
  · simp

/-- After a commit the device is in SERVICE and ALIVE runs. -/
theorem applyImage_service (ring serial img) (s : State) :
    (applyImage ring serial img s).boot.phase = .service ∧ (applyImage ring serial img s).vx.aliveRun = true := by
  have h1 := enterService_service (applyBlocks serial img s)
  unfold applyImage
  generalize enterService (applyBlocks serial img s) = u at h1 ⊢
  have h2 : ∀ v, v = (match ring with
      | some r => complete r stOk (forceHeld (startCommit { ring := ring, empty := false, image := img, start := List.range 16 } u)).boot.imageId 0 (forceHeld (startCommit { ring := ring, empty := false, image := img, start := List.range 16 } u))
      | none => (forceHeld (startCommit { ring := ring, empty := false, image := img, start := List.range 16 } u))) → SamePhase u v := by
    rintro v rfl
    have h3 : SamePhase u (forceHeld (startCommit { ring := ring, empty := false, image := img, start := List.range 16 } u)) :=
      SamePhase.of_chan (startCommit_phase _ _ ⟨rfl, rfl⟩) (forceHeld_side _ rfl)
    generalize forceHeld (startCommit { ring := ring, empty := false, image := img, start := List.range 16 } u) = w at h3
    split
    · exact h3.of_chan (complete_side _ _ _ _ _ rfl)
    · exact h3
  have h4 := h2 _ rfl
  dsimp only
  exact ⟨h4.1.trans h1.1, (congrArg Vx.aliveRun h4.2).trans h1.2⟩

end Sys2Proof.Machine
end

