-- ==== Sys2Proof/Laws/Keeps.lean ====
section
/-!
SUPPORT. What every operation of the machine keeps: the queue of commands, the canonical form of the pool's memory, and a set
safe state (R395), which core power-on reset alone ends. One lemma per operation, in the order of the files.
-/
namespace Sys2Proof.Machine

/-- From `r` to `s` the queue is unchanged, and the pool's memory keeps its canonical form. -/
def KeepsQM (r s : State) : Prop := s.pending = r.pending ∧ (Inv r → Inv s)
/-- `KeepsQM`, and a set safe state stays set (R395). -/
def Keeps (r s : State) : Prop := KeepsQM r s ∧ (r.vx.safe = true → s.vx.safe = true)
theorem Keeps.refl (s : State) : Keeps s s := ⟨⟨rfl, id⟩, id⟩
theorem keeps_of {r s t : State} (h : Keeps r s) (hp : t.pending = s.pending) (hm : t.pool.mem = s.pool.mem)
    (hv : s.vx.safe = true → t.vx.safe = true) : Keeps r t :=
  ⟨⟨hp.trans h.1.1, fun x => by have := h.1.2 x; simpa [Inv, hm] using this⟩, fun x => hv (h.2 x)⟩
@[simp] theorem keeps_ite {r a b : State} {c : Prop} [Decidable c] (h1 : Keeps r a) (h2 : Keeps r b) : Keeps r (if c then a else b) := by
  split <;> assumption
@[simp] theorem keeps_foldl {α : Type} {r : State} (f : State → α → State) (l : List α) (s : State) (h : Keeps r s)
    (hf : ∀ s a, Keeps r s → Keeps r (f s a)) : Keeps r (l.foldl f s) := by
  induction l generalizing s with
  | nil => exact h
  | cons a t ih => exact ih _ (hf _ _ h)
@[simp] theorem keeps_mk {r s : State} (h : Keeps r s) {sq gl vx lat chans tm bdp cd tg dx units pw mp ret boot tap round ckRound outs freeCtr}
    {p : Pool} (hp : p.mem = s.pool.mem) (hv : s.vx.safe = true → Vx.safe vx = true) :
    Keeps r { sq := sq, gl := gl, vx := vx, pool := p, lat := lat, chans := chans, tm := tm, bdp := bdp, cd := cd, tg := tg, dx := dx, units := units, pw := pw, mp := mp, ret := ret, boot := boot, tap := tap, round := round, ckRound := ckRound, outs := outs, freeCtr := freeCtr, pending := s.pending } := 
  keeps_of h rfl hp hv
theorem keeps_foldl_fst {α β : Type} {r : State} (f : State × β → α → State × β) (l : List α) (x : State × β) (h : Keeps r x.1)
    (hf : ∀ x a, Keeps r x.1 → Keeps r (f x a).1) : Keeps r (l.foldl f x).1 := by
  induction l generalizing x with
  | nil => exact h
  | cons a t ih => exact ih _ (hf _ _ h)

set_option linter.unusedSimpArgs false
set_option linter.unusedVariables false

@[simp] theorem State.modChan_keeps {z s : State} (n : Nat) (f : Chan → Chan) (h : Keeps z s) : Keeps z (s.modChan n f) := keeps_of h rfl rfl id
@[simp] theorem State.modQueue_keeps {z s : State} (q : Nat) (f : Queue → Queue) (h : Keeps z s) : Keeps z (s.modQueue q f) := keeps_of h rfl rfl id
@[simp] theorem State.modGate_keeps {z s : State} (g : Nat) (f : Gate → Gate) (h : Keeps z s) : Keeps z (s.modGate g f) := keeps_of h rfl rfl id
@[simp] theorem State.modLat_keeps {z s : State} (f : Lat → Lat) (h : Keeps z s) : Keeps z (s.modLat f) := keeps_of h rfl rfl id
@[simp] theorem State.modGl_keeps {z s : State} (f : Gl → Gl) (h : Keeps z s) : Keeps z (s.modGl f) := keeps_of h rfl rfl id
@[simp] theorem State.modSq_keeps {z s : State} (f : Sq → Sq) (h : Keeps z s) : Keeps z (s.modSq f) := keeps_of h rfl rfl id
@[simp] theorem State.modVx_keeps {z s : State} (f : Vx → Vx) (h : Keeps z s) (hf : s.vx.safe = true → (f s.vx).safe = true) : Keeps z (s.modVx f) := keeps_of h rfl rfl hf
@[simp] theorem State.modCr_keeps {z s : State} (r : Nat) (f : CmdRing → CmdRing) (h : Keeps z s) : Keeps z (s.modCr r f) := keeps_of h rfl rfl id
@[simp] theorem State.modCq_keeps {z s : State} (k : Nat) (f : CqRing → CqRing) (h : Keeps z s) : Keeps z (s.modCq k f) := keeps_of h rfl rfl id
@[simp] theorem State.modCmd_keeps {z s : State} (r : Nat) (f : Cmd → Cmd) (h : Keeps z s) : Keeps z (s.modCmd r f) := keeps_of h rfl rfl id
@[simp] theorem State.emit_keeps {z s : State} (o : Output) (h : Keeps z s) : Keeps z (s.emit o) := keeps_of h rfl rfl id
@[simp] theorem State.freshTick_keeps {z s : State} (h : Keeps z s) : Keeps z (s.freshTick) := keeps_of h rfl rfl id
@[simp] theorem State.modBdp_keeps {z s : State} (f : Bdp → Bdp) (h : Keeps z s) : Keeps z (s.modBdp f) := keeps_of h rfl rfl id
@[simp] theorem State.modBoot_keeps {z s : State} (f : Boot → Boot) (h : Keeps z s) : Keeps z (s.modBoot f) := keeps_of h rfl rfl id
@[simp] theorem State.modUnit_keeps {z s : State} (u : Nat) (f : Unit' → Unit') (h : Keeps z s) : Keeps z (s.modUnit u f) := keeps_of h rfl rfl id
@[simp] theorem State.modCd_keeps {z s : State} (f : Cd → Cd) (h : Keeps z s) : Keeps z (s.modCd f) := keeps_of h rfl rfl id
@[simp] theorem State.modRoute_keeps {z s : State} (r : Nat) (f : Route → Route) (h : Keeps z s) : Keeps z (s.modRoute r f) := keeps_of h rfl rfl id
@[simp] theorem State.modDx_keeps {z s : State} (f : Dx → Dx) (h : Keeps z s) : Keeps z (s.modDx f) := keeps_of h rfl rfl id
@[simp] theorem State.modTg_keeps {z s : State} (f : Tg → Tg) (h : Keeps z s) : Keeps z (s.modTg f) := keeps_of h rfl rfl id
@[simp] theorem State.modCtx_keeps {z s : State} (c : Nat) (f : Ctx → Ctx) (h : Keeps z s) : Keeps z (s.modCtx c f) := keeps_of h rfl rfl id
@[simp] theorem State.modMp_keeps {z s : State} (f : Mp → Mp) (h : Keeps z s) : Keeps z (s.modMp f) := keeps_of h rfl rfl id
@[simp] theorem State.modPw_keeps {z s : State} (f : Pw → Pw) (h : Keeps z s) : Keeps z (s.modPw f) := keeps_of h rfl rfl id
@[simp] theorem State.modRet_keeps {z s : State} (f : Ret → Ret) (h : Keeps z s) : Keeps z (s.modRet f) := keeps_of h rfl rfl id
@[simp] theorem State.modTm_keeps {z s : State} (f : Tm → Tm) (h : Keeps z s) : Keeps z (s.modTm f) := keeps_of h rfl rfl id
@[simp] theorem State.modPool_keeps {z s : State} (f : Pool → Pool) (h : Keeps z s) (hf : Memory.wf s.pool.mem = true → Memory.wf (f s.pool).mem = true) : Keeps z (s.modPool f) :=
  ⟨⟨h.1.1, fun x => hf (h.1.2 x)⟩, h.2⟩


variable {z : State}

/-! Ops -/

@[simp] theorem atStraps_keeps (x s) (hz : Keeps z s) : Keeps z (atStraps x s) := by simp [atStraps, hz]

@[simp] theorem stgPut_keeps (s b v) (hz : Keeps z s) : Keeps z (stgPut s b v) := by
  unfold stgPut; simp +contextual (maxDischargeDepth := 60) [hz]

@[simp] theorem stgWrite_keeps (s : State) (b : Nat) (l : List Byte) (h : Keeps z s) : Keeps z (stgWrite s b l) := by
  induction l generalizing s b with
  | nil => exact h
  | cons v t ih => exact ih _ _ (stgPut_keeps _ _ _ h)

@[simp] theorem hostPut_keeps (serial addr bytes s) (hz : Keeps z s) : Keeps z (hostPut serial addr bytes s) := by simp [hostPut, hz]

@[simp] theorem msixSend_keeps (v s) (hz : Keeps z s) : Keeps z (msixSend v s) := by simp [msixSend, hz]

@[simp] theorem signal_keeps (serial v s) (hz : Keeps z s) : Keeps z (signal serial v s) := by simp [signal, hz]

@[simp] theorem cqSignal_keeps (k s) (hz : Keeps z s) : Keeps z (cqSignal k s) := by simp [cqSignal, hz]

@[simp] theorem cqWrite_keeps (k ph ws s) (hz : Keeps z s) : Keeps z (cqWrite k ph ws s) := by simp (maxDischargeDepth := 9) [cqWrite, hz]

@[simp] theorem evWrite_keeps (code key items s) (hz : Keeps z s) : Keeps z (evWrite code key items s) := by simp [evWrite, hz]

@[simp] theorem evLose_keeps (s) (hz : Keeps z s) : Keeps z (evLose s) := by simp [evLose, hz]

@[simp] theorem evHalt_keeps (s) (hz : Keeps z s) : Keeps z (evHalt s) := by simp (maxDischargeDepth := 9) [evHalt, hz]

@[simp] theorem evRaise_keeps (code key items s) (hz : Keeps z s) : Keeps z (evRaise code key items s) := by simp (maxDischargeDepth := 9) [evRaise, hz]

@[simp] theorem raise_keeps (code inst items s) (hz : Keeps z s) : Keeps z (raise code inst items s) := by simp [raise, hz]

@[simp] theorem evLostFlush_keeps (s) (hz : Keeps z s) : Keeps z (evLostFlush s) := by simp (maxDischargeDepth := 9) [evLostFlush, hz]

@[simp] theorem complete_keeps (r st r0 r1 s) (hz : Keeps z s) : Keeps z (complete r st r0 r1 s) := by simp (maxDischargeDepth := 9) [complete, hz]

@[simp] theorem completeAll_keeps (rs st r0 r1 s) (hz : Keeps z s) : Keeps z (completeAll rs st r0 r1 s) := by
  unfold completeAll; simp +contextual (maxDischargeDepth := 60) [hz]

@[simp] theorem bumpBy_keeps (n off k s) (hz : Keeps z s) : Keeps z (bumpBy n off k s) := by simp [bumpBy, hz]

@[simp] theorem bump_keeps (n off s) (hz : Keeps z s) : Keeps z (bump n off s) := by simp [bump, hz]

@[simp] theorem chEvent_keeps (code n items s) (hz : Keeps z s) : Keeps z (chEvent code n items s) := by simp [chEvent, hz]


/-! Endpoint -/

@[simp] theorem setEndpoint_keeps (e s) (hz : Keeps z s) : Keeps z (setEndpoint e s) := by
  unfold setEndpoint; simp +contextual (maxDischargeDepth := 60) [hz]


/-! Jtag -/

@[simp] theorem tapMove_keeps (tdi s) (hz : Keeps z s) : Keeps z (tapMove tdi s) := by
  unfold tapMove; (repeat' split) <;> simp [hz]

@[simp] theorem tapUpdate_keeps (s) (hz : Keeps z s) : Keeps z (tapUpdate s) := by
  unfold tapUpdate; (repeat' split) <;> simp [hz]

@[simp] theorem tapClock_keeps (tms tdi s) (hz : Keeps z s) : Keeps z (tapClock tms tdi s) := by simp (maxDischargeDepth := 9) [tapClock, hz]


/-! Cells -/

@[simp] theorem fullRearm_keeps (q s) (hz : Keeps z s) : Keeps z (fullRearm q s) := by simp [fullRearm, hz]

@[simp] theorem poolLow_keeps (s) (hz : Keeps z s) : Keeps z (poolLow s) := by simp (maxDischargeDepth := 9) [poolLow, hz]

@[simp] theorem refuse_keeps (q byMax s) (hz : Keeps z s) : Keeps z (refuse q byMax s) := by simp (maxDischargeDepth := 9) [refuse, hz]

@[simp] theorem relink_keeps (c s) (hz : Keeps z s) : Keeps z (relink c s) := by simp [relink, hz]

@[simp] theorem relinkLast_keeps (cs s) (hz : Keeps z s) : Keeps z (relinkLast cs s) := by
  unfold relinkLast; (repeat' split) <;> simp [hz]

@[simp] theorem chargeOne_keeps (c q s) (hz : Keeps z s) : Keeps z (chargeOne c q s) := by simp (maxDischargeDepth := 9) [chargeOne, hz]

@[simp] theorem charge_keeps (c q s) (hz : Keeps z s) : Keeps z (charge c q s) := by simp (maxDischargeDepth := 9) [charge, hz]

@[simp] theorem ownEnded_keeps (cs s) (hz : Keeps z s) : Keeps z (ownEnded cs s) := by simp [ownEnded, hz]

@[simp] theorem freeCells_keeps (cs s) (hz : Keeps z s) : Keeps z (freeCells cs s) := by
  unfold freeCells; simp +contextual (maxDischargeDepth := 60) [hz]

@[simp] theorem writeCell_keeps (c bytes s) (hz : Keeps z s) : Keeps z (writeCell c bytes s) := by
  unfold writeCell; simp +contextual (maxDischargeDepth := 60) [hz]

@[simp] theorem unlink_keeps (q c s) (hz : Keeps z s) : Keeps z (unlink q c s) := by simp [unlink, hz]

@[simp] theorem popItem_keeps (q i s) (hz : Keeps z s) : Keeps z (popItem q i s) := by simp [popItem, hz]

@[simp] theorem linkItem_keeps (q i s) (hz : Keeps z s) : Keeps z (linkItem q i s) := by simp (maxDischargeDepth := 9) [linkItem, hz]

@[simp] theorem flushCheck_keeps (q s) (hz : Keeps z s) : Keeps z (flushCheck q s) := by
  unfold flushCheck; (repeat' split) <;> simp [hz]

@[simp] theorem flushCount_keeps (q n s) (hz : Keeps z s) : Keeps z (flushCount q n s) := by simp [flushCount, hz]

@[simp] theorem discardMarked_keeps (q cells s) (hz : Keeps z s) : Keeps z (discardMarked q cells s) := by simp (maxDischargeDepth := 9) [discardMarked, hz]


/-! TxCore -/

@[simp] theorem drainCheck_keeps (n s) (hz : Keeps z s) : Keeps z (drainCheck n s) := by simp [drainCheck, hz]

@[simp] theorem rtCount_keeps (r k s) (hz : Keeps z s) : Keeps z (rtCount r k s) := by simp [rtCount, hz]

@[simp] theorem ckFinished_keeps (key : Nat) (s : State) (hz : Keeps z s) : Keeps z (ckFinished key s) := by
  unfold ckFinished
  refine keeps_foldl _ _ _ hz ?_
  intro s e hz
  dsimp only
  (repeat' split) <;> simp +contextual (maxDischargeDepth := 60) [hz]

@[simp] theorem modPrime_keeps (n b f s) (hz : Keeps z s) : Keeps z (modPrime n b f s) := by simp [modPrime, hz]

@[simp] theorem endEvents_keeps (n src o i s) (hz : Keeps z s) : Keeps z (endEvents n src o i s) := by simp (maxDischargeDepth := 9) [endEvents, hz]

@[simp] theorem returnCells_keeps (n cells s) (hz : Keeps z s) : Keeps z (returnCells n cells s) := by simp (maxDischargeDepth := 9) [returnCells, hz]

@[simp] theorem dropSource_keeps (n src o i s) (hz : Keeps z s) : Keeps z (dropSource n src o i s) := by
  unfold dropSource; dsimp only; (repeat' split) <;> simp (maxDischargeDepth := 60) [hz]

@[simp] theorem endItem_keeps (n src o i s) (hz : Keeps z s) : Keeps z (endItem n src o i s) := by simp (maxDischargeDepth := 9) [endItem, hz]

theorem purgeSource_keeps (n src : Nat) : ∀ (fuel : Nat) (x : State × Nat), Keeps z x.1 → Keeps z (purgeSource n src fuel x).1 := by
  intro fuel
  induction fuel with
  | zero => intro x h; exact h
  | succ k ih =>
    intro x h
    unfold purgeSource
    (repeat' split) <;> first | exact h | exact ih _ (endItem_keeps _ _ _ _ _ h)

@[simp] theorem purgeAll_keeps (n : Nat) (s : State) (h : Keeps z s) : Keeps z (purgeAll n s).1 := by
  apply keeps_foldl_fst _ _ _ h
  intro x a hx; exact purgeSource_keeps _ _ _ _ hx

@[simp] theorem purge_keeps (n s) (h : Keeps z s) : Keeps z (purge n s) := purgeAll_keeps _ _ h

@[simp] theorem purgeDemoted_keeps (n s) (hz : Keeps z s) : Keeps z (purgeDemoted n s) := by simp (maxDischargeDepth := 9) [purgeDemoted, hz]

@[simp] theorem unloadGone_keeps (n s) (hz : Keeps z s) : Keeps z (unloadGone n s) := by
  unfold unloadGone; (repeat' split) <;> simp [hz]

@[simp] theorem loadWinner_keeps (n w s) (hz : Keeps z s) : Keeps z (loadWinner n w s) := by simp [loadWinner, hz]

@[simp] theorem recheck_keeps (n s) (hz : Keeps z s) : Keeps z (recheck n s) := by
  unfold recheck; dsimp only; (repeat' split) <;> simp (maxDischargeDepth := 60) [hz]

@[simp] theorem nextSeq_keeps (s) (hz : Keeps z s) : Keeps z (nextSeq s) := by simp [nextSeq, hz]

@[simp] theorem commitAt_keeps (q i s) (hz : Keeps z s) : Keeps z (commitAt q i s) := by simp (maxDischargeDepth := 9) [commitAt, hz]

@[simp] theorem commitItem_keeps (q cls cells s) (hz : Keeps z s) : Keeps z (commitItem q cls cells s) := by simp [commitItem, hz]

@[simp] theorem finishStop_keeps (n k s) (hz : Keeps z s) : Keeps z (finishStop n k s) := by simp [finishStop, hz]

@[simp] theorem dropChains_keeps (n : Nat) : ∀ (l : List Chain) (s : State), Keeps z s → Keeps z (dropChains n l s) := by
  intro l
  induction l with
  | nil => intro s h; exact h
  | cons c t ih => intro s h; exact ih _ (by split <;> simp [h])

@[simp] theorem cutRemove_keeps (q c0 s) (hz : Keeps z s) : Keeps z (cutRemove q c0 s) := by
  unfold cutRemove; dsimp only; (repeat' split) <;> simp (maxDischargeDepth := 60) [hz]

@[simp] theorem cutUnborn_keeps (n x c s) (hz : Keeps z s) : Keeps z (cutUnborn n x c s) := by simp (maxDischargeDepth := 9) [cutUnborn, hz]

@[simp] theorem inboundFail_keeps (n x s) (hz : Keeps z s) : Keeps z (inboundFail n x s) := by
  unfold inboundFail; dsimp only; (repeat' split) <;> simp (maxDischargeDepth := 60) [hz]

@[simp] theorem dropFrame_keeps (n x s) (hz : Keeps z s) : Keeps z (dropFrame n x s) := by
  unfold dropFrame; try dsimp only
  first
  | (simp +contextual (maxDischargeDepth := 60) [hz]; done)
  | (repeat' split) <;> simp +contextual (maxDischargeDepth := 60) [hz]

@[simp] theorem dropRecord_keeps (n x s) (hz : Keeps z s) : Keeps z (dropRecord n x s) := by
  unfold dropRecord; try dsimp only
  first
  | (simp +contextual (maxDischargeDepth := 60) [hz]; done)
  | (repeat' split) <;> simp +contextual (maxDischargeDepth := 60) [hz]

@[simp] theorem abandonRx_keeps (n s) (hz : Keeps z s) : Keeps z (abandonRx n s) := by
  unfold abandonRx; try dsimp only
  first
  | (simp +contextual (maxDischargeDepth := 60) [hz]; done)
  | (repeat' split) <;> simp +contextual (maxDischargeDepth := 60) [hz]

@[simp] theorem finishCancel_keeps (l o s) (hz : Keeps z s) : Keeps z (finishCancel l o s) := by simp [finishCancel, hz]

@[simp] theorem attemptFailed_keeps (n o s) (hz : Keeps z s) : Keeps z (attemptFailed n o s) := by
  unfold attemptFailed; dsimp only; (repeat' split) <;> simp (maxDischargeDepth := 60) [hz]

@[simp] theorem cutWire_keeps (n s) (hz : Keeps z s) : Keeps z (cutWire n s) := by simp (maxDischargeDepth := 9) [cutWire, hz]

@[simp] theorem dropRequests_keeps (n st s) (hz : Keeps z s) : Keeps z (dropRequests n st s) := by
  have h : Keeps z (s.pw.locals.foldl (fun s l => match l.ring with
      | some r => if l.ch = n then complete r st 0 0 s else s
      | none => s) s) := by
    refine keeps_foldl _ _ _ hz fun s l hs => ?_
    split
    · exact keeps_ite (complete_keeps _ _ _ _ _ hs) hs
    · exact hs
  unfold dropRequests
  exact keeps_of h rfl rfl id

@[simp] theorem chanSafe_keeps (n st s) (hz : Keeps z s) : Keeps z (chanSafe n st s) := by
  unfold chanSafe; dsimp only; (repeat' split) <;> simp (maxDischargeDepth := 60) [hz]

@[simp] theorem chanFree_keeps (n s) (hz : Keeps z s) : Keeps z (chanFree n s) := by simp (maxDischargeDepth := 9) [chanFree, hz]


/-! Flags -/

@[simp] theorem linkKick_keeps (s) (hz : Keeps z s) : Keeps z (linkKick s) := by
  unfold linkKick; (repeat' split) <;> simp [hz]

@[simp] theorem linkSend_keeps (p s) (hz : Keeps z s) : Keeps z (linkSend p s) := by simp (maxDischargeDepth := 9) [linkSend, hz]

@[simp] theorem sendNotice_keeps (src cls s) (hz : Keeps z s) : Keeps z (sendNotice src cls s) := by simp [sendNotice, hz]

@[simp] theorem dropSub_keeps (r s) (hz : Keeps z s) : Keeps z (dropSub r s) := by
  unfold dropSub; (repeat' split) <;> simp [hz]

@[simp] theorem endCommand_keeps (st s r) (hz : Keeps z s) : Keeps z (endCommand st s r) := by simp (maxDischargeDepth := 9) [endCommand, hz]

@[simp] theorem endCommands_keeps (st s) (hz : Keeps z s) : Keeps z (endCommands st s) := by
  unfold endCommands; simp +contextual (maxDischargeDepth := 60) [hz]

@[simp] theorem proofAbandon_keeps (s) (hz : Keeps z s) : Keeps z (proofAbandon s) := by
  unfold proofAbandon; (repeat' split) <;> simp [hz]

@[simp] theorem safeLatch_keeps (s) (hz : Keeps z s) : Keeps z (safeLatch s) := by simp [safeLatch, hz]

@[simp] theorem safeLink_keeps (s) (hz : Keeps z s) : Keeps z (safeLink s) := by simp [safeLink, hz]

@[simp] theorem enterSafe_keeps (s) (hz : Keeps z s) : Keeps z (enterSafe s) := by
  unfold enterSafe; simp +contextual (maxDischargeDepth := 60) [hz]

@[simp] theorem forceTarget_keeps (t s) (hz : Keeps z s) : Keeps z (forceTarget t s) := by
  unfold forceTarget; (repeat' split) <;> simp [hz]

@[simp] theorem holdTarget_keeps (src t s) (hz : Keeps z s) : Keeps z (holdTarget src t s) := by simp (maxDischargeDepth := 9) [holdTarget, hz]

@[simp] theorem latchFirst_keeps (src cls injected detail s) (hz : Keeps z s) : Keeps z (latchFirst src cls injected detail s) := by simp [latchFirst, hz]

@[simp] theorem recordFirst_keeps (src cls injected detail s) (hz : Keeps z s) : Keeps z (recordFirst src cls injected detail s) := by simp (maxDischargeDepth := 9) [recordFirst, hz]

@[simp] theorem vxFaultEvent_keeps (src cls injected detail s) (hz : Keeps z s) : Keeps z (vxFaultEvent src cls injected detail s) := by simp [vxFaultEvent, hz]

@[simp] theorem proofDone_keeps (src r lat s) (hz : Keeps z s) : Keeps z (proofDone src r lat s) := by simp (maxDischargeDepth := 9) [proofDone, hz]

@[simp] theorem proofSeen_keeps (src s) (hz : Keeps z s) : Keeps z (proofSeen src s) := by
  unfold proofSeen; (repeat' split) <;> simp [hz]

@[simp] theorem recordLast3_keeps (src cls detail s) (hz : Keeps z s) : Keeps z (recordLast3 src cls detail s) := by simp [recordLast3, hz]

@[simp] theorem faultInterrupt_keeps (cls s) (hz : Keeps z s) : Keeps z (faultInterrupt cls s) := by simp (maxDischargeDepth := 9) [faultInterrupt, hz]

@[simp] theorem recordGenuine_keeps (src cls wasSet detail s) (hz : Keeps z s) : Keeps z (recordGenuine src cls wasSet detail s) := by simp (maxDischargeDepth := 9) [recordGenuine, hz]

@[simp] theorem recordConseq_keeps (src s) (hz : Keeps z s) : Keeps z (recordConseq src s) := by simp [recordConseq, hz]

@[simp] theorem reaction_keeps (src cls wasSet detail s) (hz : Keeps z s) : Keeps z (reaction src cls wasSet detail s) := by
  unfold reaction; (repeat' split) <;> simp [hz]

@[simp] theorem vxAssert_keeps (src detail s) (hz : Keeps z s) : Keeps z (vxAssert src detail s) := by simp (maxDischargeDepth := 9) [vxAssert, hz]

@[simp] theorem vxLevelOn_keeps (src detail s) (hz : Keeps z s) : Keeps z (vxLevelOn src detail s) := by simp (maxDischargeDepth := 9) [vxLevelOn, hz]

@[simp] theorem vxLevelOff_keeps (src s) (hz : Keeps z s) : Keeps z (vxLevelOff src s) := by simp [vxLevelOff, hz]

@[simp] theorem vxInject_keeps (src detail s) (hz : Keeps z s) : Keeps z (vxInject src detail s) := by simp (maxDischargeDepth := 9) [vxInject, hz]

@[simp] theorem hostFault_keeps (k s) (hz : Keeps z s) : Keeps z (hostFault k s) := by simp (maxDischargeDepth := 9) [hostFault, hz]


/-! Begin -/

@[simp] theorem beginWhen_keeps (r : Nat) (p : List Word → Bool) (body : List Word → State → State) (s : State)
    (h : Keeps z s) (hb : ∀ ws s, Keeps z s → Keeps z (body ws s)) : Keeps z (beginWhen r p body s) := by
  have h1 : Keeps z (s.modCmd r fun c => { c with begun := true }) := by simp [h]
  unfold beginWhen
  dsimp only
  split
  · split
    · split
      · exact complete_keeps _ _ _ _ _ h1
      · exact hb _ _ h1
    · exact h
  · exact h

@[simp] theorem beginOp_keeps (r op : Nat) (body : List Word → State → State) (s : State)
    (h : Keeps z s) (hb : ∀ ws s, Keeps z s → Keeps z (body ws s)) : Keeps z (beginOp r op body s) :=
  beginWhen_keeps r _ body s h hb

@[simp] theorem dataOut_keeps (r lo hi ws s) (hz : Keeps z s) : Keeps z (dataOut r lo hi ws s) := by simp [dataOut, hz]

@[simp] theorem dataIn_keeps (r : Nat) (lo : Word) (n : Nat) (k : List Byte → State → State) (s : State)
    (h : Keeps z s) (hk : ∀ l s, Keeps z s → Keeps z (k l s)) : Keeps z (dataIn r lo n k s) := by
  unfold dataIn
  split
  · exact hk _ _ h
  · simp [h]

@[simp] theorem regAccess_keeps (i : Iface) (off : Nat) (f : State → State) (s : State)
    (h : Keeps z s) (hf : ∀ s, Keeps z s → Keeps z (f s)) : Keeps z (regAccess i off f s) := by
  unfold regAccess
  split
  · exact hf _ h
  · exact h


/-! Wheel -/

@[simp] theorem wheelFault_keeps (slot commit s) (hz : Keeps z s) : Keeps z (wheelFault slot commit s) := by simp [wheelFault, hz]

@[simp] theorem inSlotAt_keeps (p : Nat → Bool) (f : State → State) (s : State) (h : Keeps z s)
    (hf : ∀ s, Keeps z s → Keeps z (f s)) : Keeps z (inSlotAt p f s) := by
  unfold inSlotAt
  split
  · simp [h]
  · exact hf _ h

@[simp] theorem inSlot_keeps (o : SlotOwner) (f : State → State) (s : State) (h : Keeps z s)
    (hf : ∀ s, Keeps z s → Keeps z (f s)) : Keeps z (inSlot o f s) := inSlotAt_keeps _ _ _ h hf

@[simp] theorem returnsDue_keeps (n s) (hz : Keeps z s) : Keeps z (returnsDue n s) := by
  unfold returnsDue; simp +contextual (maxDischargeDepth := 60) [hz]

@[simp] theorem inTurn_keeps (f : State → State) (s : State) (h : Keeps z s)
    (hf : ∀ s, Keeps z s → Keeps z (f s)) : Keeps z (inTurn f s) := keeps_of (inSlot_keeps _ _ _ h hf) rfl rfl id

/-! Host -/

@[simp] theorem dbErrEvent_keeps (ring s) (hz : Keeps z s) : Keeps z (dbErrEvent ring s) := by simp [dbErrEvent, hz]

@[simp] theorem haltRing_keeps (r kind s) (hz : Keeps z s) : Keeps z (haltRing r kind s) := by simp [haltRing, hz]

@[simp] theorem crTailWrite_keeps (r v s) (hz : Keeps z s) : Keeps z (crTailWrite r v s) := by simp (maxDischargeDepth := 9) [crTailWrite, hz]

@[simp] theorem cqHeadWrite_keeps (k v s) (hz : Keeps z s) : Keeps z (cqHeadWrite k v s) := by simp (maxDischargeDepth := 9) [cqHeadWrite, hz]

theorem execCmdDoorbell_keeps (i r v s t) (e : execCmdDoorbell i r v s = .next t) : Keeps s t := by
  have hz := Keeps.refl s
  rw [← Host.Outcome.next.inj e]
  simp +contextual (maxDischargeDepth := 60) [hz]

theorem execCqDoorbell_keeps (i k v s t) (e : execCqDoorbell i k v s = .next t) : Keeps s t := by
  have hz := Keeps.refl s
  rw [← Host.Outcome.next.inj e]
  simp +contextual (maxDischargeDepth := 60) [hz]

@[simp] theorem crCfgWrite_keeps (r v s) (hz : Keeps z s) : Keeps z (crCfgWrite r v s) := by
  unfold crCfgWrite; dsimp only; (repeat' split) <;> simp (maxDischargeDepth := 60) [hz]

@[simp] theorem cqCfgWrite_keeps (k v s) (hz : Keeps z s) : Keeps z (cqCfgWrite k v s) := by simp (maxDischargeDepth := 9) [cqCfgWrite, hz]

@[simp] theorem ringCfgWrite_keeps (ring v s) (hz : Keeps z s) : Keeps z (ringCfgWrite ring v s) := by simp [ringCfgWrite, hz]

theorem execRingEnable_keeps (i ring v s t) (e : execRingEnable i ring v s = .next t) : Keeps s t := by
  have hz := Keeps.refl s
  rw [← Host.Outcome.next.inj e]
  simp +contextual (maxDischargeDepth := 60) [hz]

theorem execRingDisable_keeps (i ring v s t) (e : execRingDisable i ring v s = .next t) : Keeps s t := by
  have hz := Keeps.refl s
  rw [← Host.Outcome.next.inj e]
  simp +contextual (maxDischargeDepth := 60) [hz]

@[simp] theorem takePacket_keeps (r ws s) (hz : Keeps z s) : Keeps z (takePacket r ws s) := by simp [takePacket, hz]

@[simp] theorem fetchNext_keeps (entry s) (hz : Keeps z s) : Keeps z (fetchNext entry s) := by
  unfold fetchNext; dsimp only; (repeat' split) <;> simp (maxDischargeDepth := 60) [hz]

theorem execCommandFetch_keeps (entry s t) (e : execCommandFetch entry s = .next t) : Keeps s t := by
  have hz := Keeps.refl s
  rw [← Host.Outcome.next.inj e]
  simp +contextual (maxDischargeDepth := 60) [hz]

@[simp] theorem retire_keeps (r s) (hz : Keeps z s) : Keeps z (retire r s) := by simp [retire, hz]

@[simp] theorem writeCompletion_keeps (r s) (hz : Keeps z s) : Keeps z (writeCompletion r s) := by
  unfold writeCompletion; (repeat' split) <;> simp [hz]

theorem execCompletionWrite_keeps (r s t) (e : execCompletionWrite r s = .next t) : Keeps s t := by
  have hz := Keeps.refl s
  rw [← Host.Outcome.next.inj e]
  try dsimp only
  first
  | (simp +contextual (maxDischargeDepth := 60) [hz]; done)
  | (repeat' split) <;> simp +contextual (maxDischargeDepth := 60) [hz]

theorem execCoalesceTimeout_keeps (k s t) (e : execCoalesceTimeout k s = .next t) : Keeps s t := by
  have hz := Keeps.refl s
  rw [← Host.Outcome.next.inj e]
  simp [hz]

theorem execSerialStatus_keeps (clocks s t) (e : execSerialStatus s clocks = .next t) : Keeps s t := by
  have hz := Keeps.refl s
  rw [← Host.Outcome.next.inj e]
  simp (maxDischargeDepth := 9) [hz]

theorem execSerialUnknownInstruction_keeps (s t) (e : execSerialUnknownInstruction s = .next t) : Keeps s t := by
  have hz := Keeps.refl s
  rw [← Host.Outcome.next.inj e]
  simp [hz]

theorem execPcieLinkDown_keeps (s t) (e : execPcieLinkDown s = .next t) : Keeps s t := by
  have hz := Keeps.refl s
  rw [← Host.Outcome.next.inj e]
  simp (maxDischargeDepth := 9) [hz]

theorem execPcieLinkUp_keeps (two fast s t) (e : execPcieLinkUp two fast s = .next t) : Keeps s t := by
  have hz := Keeps.refl s
  rw [← Host.Outcome.next.inj e]
  simp [hz]

theorem execPcieBadTlp_keeps (poisoned s t) (e : execPcieBadTlp poisoned s = .next t) : Keeps s t := by
  have hz := Keeps.refl s
  rw [← Host.Outcome.next.inj e]
  simp [hz]

theorem execPePerstN_keeps (s t) (e : execPePerstN s = .next t) : Keeps s t := by
  have hz := Keeps.refl s
  rw [← Host.Outcome.next.inj e]
  simp +contextual (maxDischargeDepth := 60) [hz]

@[simp] theorem stgCfgWrite_keeps (v s) (hz : Keeps z s) : Keeps z (stgCfgWrite v s) := by
  unfold stgCfgWrite; dsimp only; (repeat' split) <;> simp (maxDischargeDepth := 60) [hz]

theorem execStagingSet_keeps (i v s t) (e : execStagingSet i v s = .next t) : Keeps s t := by
  have hz := Keeps.refl s
  rw [← Host.Outcome.next.inj e]
  simp +contextual (maxDischargeDepth := 60) [hz]

theorem execStagingRelease_keeps (i v s t) (e : execStagingRelease i v s = .next t) : Keeps s t := by
  have hz := Keeps.refl s
  rw [← Host.Outcome.next.inj e]
  simp +contextual (maxDischargeDepth := 60) [hz]

@[simp] theorem keyWrite_keeps (i v s) (hz : Keeps z s) : Keeps z (keyWrite i v s) := by simp (maxDischargeDepth := 9) [keyWrite, hz]

theorem execGlKeyArm_keeps (i s t) (e : execGlKeyArm i s = .next t) : Keeps s t := by
  have hz := Keeps.refl s
  rw [← Host.Outcome.next.inj e]
  simp +contextual (maxDischargeDepth := 60) [hz]

theorem execGlKeyUnlock_keeps (i s t) (e : execGlKeyUnlock i s = .next t) : Keeps s t := by
  have hz := Keeps.refl s
  rw [← Host.Outcome.next.inj e]
  simp +contextual (maxDischargeDepth := 60) [hz]

theorem execGlKeyLock_keeps (i s t) (e : execGlKeyLock i s = .next t) : Keeps s t := by
  have hz := Keeps.refl s
  rw [← Host.Outcome.next.inj e]
  simp +contextual (maxDischargeDepth := 60) [hz]

theorem execGlKeyOtherCode_keeps (i v s t) (e : execGlKeyOtherCode i v s = .next t) : Keeps s t := by
  have hz := Keeps.refl s
  rw [← Host.Outcome.next.inj e]
  simp +contextual (maxDischargeDepth := 60) [hz]

theorem execKeyArmTimeout_keeps (s t) (e : execKeyArmTimeout s = .next t) : Keeps s t := by
  have hz := Keeps.refl s
  rw [← Host.Outcome.next.inj e]
  simp [hz]

theorem execKeyRelockTimeout_keeps (s t) (e : execKeyRelockTimeout s = .next t) : Keeps s t := by
  have hz := Keeps.refl s
  rw [← Host.Outcome.next.inj e]
  simp [hz]


/-! Trx -/

@[simp] theorem trxDone_keeps (n r s) (hz : Keeps z s) : Keeps z (trxDone n r s) := by simp [trxDone, hz]

@[simp] theorem stoppingEnds_keeps (n k s) (hz : Keeps z s) : Keeps z (stoppingEnds n k s) := by simp (maxDischargeDepth := 9) [stoppingEnds, hz]

@[simp] theorem trxSettled_keeps (n s) (hz : Keeps z s) : Keeps z (trxSettled n s) := by
  unfold trxSettled; dsimp only; (repeat' split) <;> simp (maxDischargeDepth := 60) [hz]

@[simp] theorem trxSet_keeps (n t ring s) (hz : Keeps z s) : Keeps z (trxSet n t ring s) := by
  unfold trxSet; dsimp only; (repeat' split) <;> simp (maxDischargeDepth := 60) [hz]

@[simp] theorem trxRequest_keeps (n t ring s) (hz : Keeps z s) : Keeps z (trxRequest n t ring s) := by simp [trxRequest, hz]

@[simp] theorem trxApply_keeps (n s) (hz : Keeps z s) : Keeps z (trxApply n s) := by simp (maxDischargeDepth := 9) [trxApply, hz]


/-! Time -/

@[simp] theorem bootCycles_keeps (n s) (hz : Keeps z s) : Keeps z (bootCycles n s) := by simp [bootCycles, hz]

@[simp] theorem awakeCycles_keeps (n s) (hz : Keeps z s) : Keeps z (awakeCycles n s) := by simp [awakeCycles, hz]

@[simp] theorem passCycles_keeps (n s) (hz : Keeps z s) : Keeps z (passCycles n s) := by simp (maxDischargeDepth := 9) [passCycles, hz]

@[simp] theorem txStamp_keeps (n stamp tag s) (hz : Keeps z s) : Keeps z (txStamp n stamp tag s) := by simp [txStamp, hz]

@[simp] theorem jumpTo_keeps (v delta s) (hz : Keeps z s) : Keeps z (jumpTo v delta s) := by simp [jumpTo, hz]

@[simp] theorem stepBy_keeps (d s) (hz : Keeps z s) : Keeps z (stepBy d s) := by simp [stepBy, hz]

@[simp] theorem servoTo_keeps (st s) (hz : Keeps z s) : Keeps z (servoTo st s) := by simp (maxDischargeDepth := 9) [servoTo, hz]

@[simp] theorem servoDrive_keeps (o t s) (hz : Keeps z s) : Keeps z (servoDrive o t s) := by simp [servoDrive, hz]

@[simp] theorem measured_keeps (o t s) (hz : Keeps z s) : Keeps z (measured o t s) := by
  unfold measured; dsimp only; (repeat' split) <;> simp (maxDischargeDepth := 60) [hz]

@[simp] theorem discard_keeps (reason s) (hz : Keeps z s) : Keeps z (discard reason s) := by simp [discard, hz]

@[simp] theorem syncSeen_keeps (seq sender stamp s) (hz : Keeps z s) : Keeps z (syncSeen seq sender stamp s) := by
  unfold syncSeen; simp +contextual (maxDischargeDepth := 60) [hz]

@[simp] theorem syncMeasured_keeps (n sender mine master moved s) (hz : Keeps z s) : Keeps z (syncMeasured n sender mine master moved s) := by simp (maxDischargeDepth := 9) [syncMeasured, hz]

@[simp] theorem followUpSeen_keeps (n seq sender master s) (hz : Keeps z s) : Keeps z (followUpSeen n seq sender master s) := by
  unfold followUpSeen; try dsimp only
  first
  | (simp +contextual (maxDischargeDepth := 60) [hz]; done)
  | (repeat' split) <;> simp +contextual (maxDischargeDepth := 60) [hz]

theorem execPpsInEdge_keeps (waited s t) (e : execPpsInEdge waited s = .next t) : Keeps s t := by
  have hz := Keeps.refl s
  rw [← Host.Outcome.next.inj e]
  dsimp only; (repeat' split) <;> simp (maxDischargeDepth := 60) [hz]

theorem execPpsOutRise_keeps (waited s t) (e : execPpsOutRise waited s = .next t) : Keeps s t := by
  have hz := Keeps.refl s
  rw [← Host.Outcome.next.inj e]
  simp (maxDischargeDepth := 9) [hz]

theorem execPpsOutFall_keeps (s t) (e : execPpsOutFall s = .next t) : Keeps s t := by
  have hz := Keeps.refl s
  rw [← Host.Outcome.next.inj e]
  simp [hz]

theorem execServoHoldTimeout_keeps (s t) (e : execServoHoldTimeout s = .next t) : Keeps s t := by
  have hz := Keeps.refl s
  rw [← Host.Outcome.next.inj e]
  dsimp only; (repeat' split) <;> simp (maxDischargeDepth := 60) [hz]

theorem execHoldoverLimit_keeps (s t) (e : execHoldoverLimit s = .next t) : Keeps s t := by
  have hz := Keeps.refl s
  rw [← Host.Outcome.next.inj e]
  simp (maxDischargeDepth := 9) [hz]

@[simp] theorem tmDone_keeps (r s) (hz : Keeps z s) : Keeps z (tmDone r s) := by simp [tmDone, hz]

@[simp] theorem tmSetBody_keeps (r ws s) (hz : Keeps z s) : Keeps z (tmSetBody r ws s) := by
  unfold tmSetBody
  split
  · exact complete_keeps _ _ _ _ _ hz
  · split
    · exact complete_keeps _ _ _ _ _ hz
    · exact tmDone_keeps _ _ (jumpTo_keeps _ _ _ (State.modTm_keeps _ hz))

@[simp] theorem tmStepBody_keeps (r ws s) (hz : Keeps z s) : Keeps z (tmStepBody r ws s) := by simp (maxDischargeDepth := 9) [tmStepBody, hz]

@[simp] theorem tmRateBody_keeps (r ws s) (hz : Keeps z s) : Keeps z (tmRateBody r ws s) := by simp (maxDischargeDepth := 9) [tmRateBody, hz]

theorem execTmSet_keeps (r s t) (e : execTmSet r s = .next t) : Keeps s t := by
  have hz := Keeps.refl s
  rw [← Host.Outcome.next.inj e]
  simp +contextual (maxDischargeDepth := 60) [hz]

theorem execTmStep_keeps (r s t) (e : execTmStep r s = .next t) : Keeps s t := by
  have hz := Keeps.refl s
  rw [← Host.Outcome.next.inj e]
  simp +contextual (maxDischargeDepth := 60) [hz]

theorem execTmRate_keeps (r s t) (e : execTmRate r s = .next t) : Keeps s t := by
  have hz := Keeps.refl s
  rw [← Host.Outcome.next.inj e]
  simp +contextual (maxDischargeDepth := 60) [hz]

@[simp] theorem setRole_keeps (w1 w2 s) (hz : Keeps z s) : Keeps z (setRole w1 w2 s) := by simp [setRole, hz]


/-! Bdp -/

@[simp] theorem bdpDue_keeps (n k words s) (hz : Keeps z s) : Keeps z (bdpDue n k words s) := by simp (maxDischargeDepth := 9) [bdpDue, hz]

@[simp] theorem followUpDue_keeps (n aux stamp s) (hz : Keeps z s) : Keeps z (followUpDue n aux stamp s) := by simp [followUpDue, hz]

@[simp] theorem bdpCommit_keeps (d pick s) (hz : Keeps z s) : Keeps z (bdpCommit d pick s) := by
  unfold bdpCommit; dsimp only; (repeat' split) <;> simp (maxDischargeDepth := 60) [hz]

@[simp] theorem bdpTry_keeps (n k pick s) (hz : Keeps z s) : Keeps z (bdpTry n k pick s) := by
  unfold bdpTry; try dsimp only
  first
  | (simp +contextual (maxDischargeDepth := 60) [hz]; done)
  | (repeat' split) <;> simp +contextual (maxDischargeDepth := 60) [hz]

theorem execBdpItemCommit_keeps (ch kind pick s t) (e : execBdpItemCommit ch kind pick s = .next t) : Keeps s t := by
  have hz := Keeps.refl s
  rw [← Host.Outcome.next.inj e]
  simp [hz]

@[simp] theorem withdrawOwn_keeps (o s) (hz : Keeps z s) : Keeps z (withdrawOwn o s) := by
  unfold withdrawOwn; dsimp only; (repeat' split) <;> simp (maxDischargeDepth := 60) [hz]

@[simp] theorem withdrawKind_keeps (n k s) (hz : Keeps z s) : Keeps z (withdrawKind n k s) := by
  unfold withdrawKind; simp +contextual (maxDischargeDepth := 60) [hz]

@[simp] theorem roleChange_keeps (w1 w2 s) (hz : Keeps z s) : Keeps z (roleChange w1 w2 s) := by
  unfold roleChange; simp +contextual (maxDischargeDepth := 60) [hz]

theorem execTmRole_keeps (r s t) (e : execTmRole r s = .next t) : Keeps s t := by
  have hz := Keeps.refl s
  rw [← Host.Outcome.next.inj e]
  simp +contextual (maxDischargeDepth := 60) [hz]

@[simp] theorem syncDue_keeps (n s) (hz : Keeps z s) : Keeps z (syncDue n s) := by
  unfold syncDue; simp +contextual (maxDischargeDepth := 60) [hz]

theorem execSyncInterval_keeps (s t) (e : execSyncInterval s = .next t) : Keeps s t := by
  have hz := Keeps.refl s
  rw [← Host.Outcome.next.inj e]
  simp +contextual (maxDischargeDepth := 60) [hz]

theorem execMarginEchoCommit_keeps (ch pick s t) (e : execMarginEchoCommit ch pick s = .next t) : Keeps s t := by
  have hz := Keeps.refl s
  rw [← Host.Outcome.next.inj e]
  simp (maxDischargeDepth := 9) [hz]


/-! Power -/

@[simp] theorem keepAwake_keeps (ballot s) (hz : Keeps z s) : Keeps z (keepAwake ballot s) := by
  unfold keepAwake; try dsimp only
  first
  | (simp +contextual (maxDischargeDepth := 60) [hz]; done)
  | (repeat' split) <;> simp +contextual (maxDischargeDepth := 60) [hz]

@[simp] theorem ballotEvent_keeps (cause outcome s) (hz : Keeps z s) : Keeps z (ballotEvent cause outcome s) := by simp [ballotEvent, hz]

@[simp] theorem ballotEnds_keeps (outcome info s) (hz : Keeps z s) : Keeps z (ballotEnds outcome info s) := by
  unfold ballotEnds; dsimp only; (repeat' split) <;> simp (maxDischargeDepth := 60) [hz]

@[simp] theorem latchWake_keeps (bit s) (hz : Keeps z s) : Keeps z (latchWake bit s) := by simp [latchWake, hz]

@[simp] theorem awakeRestart_keeps (s) (hz : Keeps z s) : Keeps z (awakeRestart s) := by simp [awakeRestart, hz]

@[simp] theorem reasonArose_keeps (s) (hz : Keeps z s) : Keeps z (reasonArose s) := by simp (maxDischargeDepth := 9) [reasonArose, hz]

@[simp] theorem noteReasons_keeps (before s) (hz : Keeps z s) : Keeps z (noteReasons before s) := by simp (maxDischargeDepth := 9) [noteReasons, hz]

@[simp] theorem putAsleep_keeps (n s) (hz : Keeps z s) : Keeps z (putAsleep n s) := by simp [putAsleep, hz]

@[simp] theorem wakeTidy_keeps (s) (hz : Keeps z s) : Keeps z (wakeTidy s) := by simp [wakeTidy, hz]

@[simp] theorem wakeChannel_keeps (n source confirmed s) (hz : Keeps z s) : Keeps z (wakeChannel n source confirmed s) := by
  unfold wakeChannel; try dsimp only
  first
  | (simp +contextual (maxDischargeDepth := 60) [hz]; done)
  | (repeat' split) <;> simp +contextual (maxDischargeDepth := 60) [hz]

@[simp] theorem localWake_keeps (n trx source ring s) (hz : Keeps z s) : Keeps z (localWake n trx source ring s) := by simp (maxDischargeDepth := 9) [localWake, hz]

@[simp] theorem askWake_keeps (n trx source ring s) (hz : Keeps z s) : Keeps z (askWake n trx source ring s) := by
  unfold askWake; dsimp only; (repeat' split) <;> simp (maxDischargeDepth := 60) [hz]

@[simp] theorem serveLatch_keeps (s) (hz : Keeps z s) : Keeps z (serveLatch s) := by
  unfold serveLatch; simp +contextual (maxDischargeDepth := 60) [hz]

@[simp] theorem openBallot_keeps (b s) (hz : Keeps z s) : Keeps z (openBallot b s) := by
  unfold openBallot; simp +contextual (maxDischargeDepth := 60) [hz]

@[simp] theorem commitBallot_keeps (b s) (hz : Keeps z s) : Keeps z (commitBallot b s) := by
  unfold commitBallot; simp +contextual (maxDischargeDepth := 60) [hz]

theorem execBallotWindowEnd_keeps (s t) (e : execBallotWindowEnd s = .next t) : Keeps s t := by
  have hz := Keeps.refl s
  rw [← Host.Outcome.next.inj e]
  dsimp only; (repeat' split) <;> simp (maxDischargeDepth := 60) [hz]

theorem execBallotSendTimeout_keeps (s t) (e : execBallotSendTimeout s = .next t) : Keeps s t := by
  have hz := Keeps.refl s
  rw [← Host.Outcome.next.inj e]
  try dsimp only
  first
  | (simp +contextual (maxDischargeDepth := 60) [hz]; done)
  | (repeat' split) <;> simp +contextual (maxDischargeDepth := 60) [hz]

theorem execBallotLapse_keeps (s t) (e : execBallotLapse s = .next t) : Keeps s t := by
  have hz := Keeps.refl s
  rw [← Host.Outcome.next.inj e]
  simp [hz]

theorem execBallotDelayEnd_keeps (s t) (e : execBallotDelayEnd s = .next t) : Keeps s t := by
  have hz := Keeps.refl s
  rw [← Host.Outcome.next.inj e]
  try dsimp only
  first
  | (simp +contextual (maxDischargeDepth := 60) [hz]; done)
  | (repeat' split) <;> simp +contextual (maxDischargeDepth := 60) [hz]

theorem execGroupSleepDelayEnd_keeps (s t) (e : execGroupSleepDelayEnd s = .next t) : Keeps s t := by
  have hz := Keeps.refl s
  rw [← Host.Outcome.next.inj e]
  simp +contextual (maxDischargeDepth := 60) [hz]

theorem execAwakeTimerExpiry_keeps (s t) (e : execAwakeTimerExpiry s = .next t) : Keeps s t := by
  have hz := Keeps.refl s
  rw [← Host.Outcome.next.inj e]
  simp +contextual (maxDischargeDepth := 60) [hz]

theorem execKeepAwakeInterval_keeps (s t) (e : execKeepAwakeInterval s = .next t) : Keeps s t := by
  have hz := Keeps.refl s
  rw [← Host.Outcome.next.inj e]
  simp [hz]

@[simp] theorem pwFrameValid_keeps (n s) (hz : Keeps z s) : Keeps z (pwFrameValid n s) := by simp (maxDischargeDepth := 9) [pwFrameValid, hz]

@[simp] theorem prepareSeen_keeps (n sender w0 s) (hz : Keeps z s) : Keeps z (prepareSeen n sender w0 s) := by simp (maxDischargeDepth := 9) [prepareSeen, hz]

@[simp] theorem commitSeen_keeps (n s) (hz : Keeps z s) : Keeps z (commitSeen n s) := by simp [commitSeen, hz]

@[simp] theorem keepAwakeSeen_keeps (n sender w0 s) (hz : Keeps z s) : Keeps z (keepAwakeSeen n sender w0 s) := by simp (maxDischargeDepth := 9) [keepAwakeSeen, hz]

@[simp] theorem keepAwakeSent_keeps (n w0 s) (hz : Keeps z s) : Keeps z (keepAwakeSent n w0 s) := by simp (maxDischargeDepth := 9) [keepAwakeSent, hz]

@[simp] theorem pwFrameSent_keeps (n s) (hz : Keeps z s) : Keeps z (pwFrameSent n s) := by simp [pwFrameSent, hz]

@[simp] theorem ballotSent_keeps (n kind w0 s) (hz : Keeps z s) : Keeps z (ballotSent n kind w0 s) := by simp [ballotSent, hz]

@[simp] theorem forgetRings_keeps (keep s) (hz : Keeps z s) : Keeps z (forgetRings keep s) := by simp (maxDischargeDepth := 9) [forgetRings, hz]

@[simp] theorem endFetched_keeps (keep s) (hz : Keeps z s) : Keeps z (endFetched keep s) := by
  unfold endFetched; simp +contextual (maxDischargeDepth := 60) [hz]

@[simp] theorem modeEvent_keeps (m s) (hz : Keeps z s) : Keeps z (modeEvent m s) := by simp [modeEvent, hz]

@[simp] theorem dropPrimes_keeps (n s) (hz : Keeps z s) : Keeps z (dropPrimes n s) := by
  unfold dropPrimes; dsimp only; (repeat' split) <;> simp (maxDischargeDepth := 60) [hz]

@[simp] theorem startEntry_keeps (hib ring s) (hz : Keeps z s) : Keeps z (startEntry hib ring s) := by
  unfold startEntry; try dsimp only
  first
  | (simp +contextual (maxDischargeDepth := 60) [hz]; done)
  | (repeat' split) <;> simp +contextual (maxDischargeDepth := 60) [hz]

theorem execDeviceSleepEntry_keeps (s t) (e : execDeviceSleepEntry s = .next t) : Keeps s t := by
  have hz := Keeps.refl s
  rw [← Host.Outcome.next.inj e]
  simp [hz]

@[simp] theorem dropFrames_keeps (s) (hz : Keeps z s) : Keeps z (dropFrames s) := by simp [dropFrames, hz]

@[simp] theorem sleepLoses_keeps (s) (hz : Keeps z s) : Keeps z (sleepLoses s) := ⟨⟨hz.1.1, fun _ => rfl⟩, hz.2⟩

@[simp] theorem drainPosted_keeps (s) (hz : Keeps z s) : Keeps z (drainPosted s) := by
  unfold drainPosted; simp +contextual (maxDischargeDepth := 60) [hz]

theorem execEntryComplete_keeps (s t) (e : execEntryComplete s = .next t) : Keeps s t := by
  have hz := Keeps.refl s
  rw [← Host.Outcome.next.inj e]
  dsimp only; (repeat' split) <;> simp (maxDischargeDepth := 60) [hz]

theorem execEntryTimeout_keeps (step s t) (e : execEntryTimeout step s = .next t) : Keeps s t := by
  have hz := Keeps.refl s
  rw [← Host.Outcome.next.inj e]
  try dsimp only
  first
  | (simp +contextual (maxDischargeDepth := 60) [hz]; done)
  | (repeat' split) <;> simp +contextual (maxDischargeDepth := 60) [hz]

@[simp] theorem retClear_keeps (b s) (hz : Keeps z s) : Keeps z (retClear b s) := by simp (maxDischargeDepth := 9) [retClear, hz]

@[simp] theorem retCheck_keeps (bad s) (hz : Keeps z s) : Keeps z (retCheck bad s) := by
  unfold retCheck; try dsimp only
  first
  | (simp +contextual (maxDischargeDepth := 60) [hz]; done)
  | (repeat' split) <;> simp +contextual (maxDischargeDepth := 60) [hz]

@[simp] theorem exitTime_keeps (ticks bad s) (hz : Keeps z s) : Keeps z (exitTime ticks bad s) := by
  unfold exitTime; dsimp only; (repeat' split) <;> simp (maxDischargeDepth := 60) [hz]

@[simp] theorem exitBlocks_keeps (s) (hz : Keeps z s) : Keeps z (exitBlocks s) := by simp [exitBlocks, hz]

@[simp] theorem exitMode_keeps (s) (hz : Keeps z s) : Keeps z (exitMode s) := by simp (maxDischargeDepth := 9) [exitMode, hz]

theorem execExitComplete_keeps (ticks bad s t) (e : execExitComplete ticks bad s = .next t) : Keeps s t := by
  have hz := Keeps.refl s
  rw [← Host.Outcome.next.inj e]
  simp (maxDischargeDepth := 9) [hz]

theorem execBusWake_keeps (ch s t) (e : execBusWake ch s = .next t) : Keeps s t := by
  have hz := Keeps.refl s
  rw [← Host.Outcome.next.inj e]
  dsimp only; (repeat' split) <;> simp (maxDischargeDepth := 60) [hz]

theorem execHostWakePin_keeps (s t) (e : execHostWakePin s = .next t) : Keeps s t := by
  have hz := Keeps.refl s
  rw [← Host.Outcome.next.inj e]
  simp (maxDischargeDepth := 9) [hz]

theorem execWakeTimer_keeps (s t) (e : execWakeTimer s = .next t) : Keeps s t := by
  have hz := Keeps.refl s
  rw [← Host.Outcome.next.inj e]
  simp [hz]

theorem execConfirmTimeout_keeps (ch s t) (e : execConfirmTimeout ch s = .next t) : Keeps s t := by
  have hz := Keeps.refl s
  rw [← Host.Outcome.next.inj e]
  try dsimp only
  first
  | (simp +contextual (maxDischargeDepth := 60) [hz]; done)
  | (repeat' split) <;> simp +contextual (maxDischargeDepth := 60) [hz]

theorem execFwWindowClose_keeps (ch s t) (e : execFwWindowClose ch s = .next t) : Keeps s t := by
  have hz := Keeps.refl s
  rw [← Host.Outcome.next.inj e]
  simp [hz]

@[simp] theorem sleepPrepareBody_keeps (r ws s) (hz : Keeps z s) : Keeps z (sleepPrepareBody r ws s) := by simp (maxDischargeDepth := 9) [sleepPrepareBody, hz]

theorem execPwSleepPrepare_keeps (r s t) (e : execPwSleepPrepare r s = .next t) : Keeps s t := by
  have hz := Keeps.refl s
  rw [← Host.Outcome.next.inj e]
  simp +contextual (maxDischargeDepth := 60) [hz]

@[simp] theorem sleepCommitBody_keeps (r ws s) (hz : Keeps z s) : Keeps z (sleepCommitBody r ws s) := by
  unfold sleepCommitBody; dsimp only; (repeat' split) <;> simp (maxDischargeDepth := 60) [hz]

theorem execPwSleepCommit_keeps (r s t) (e : execPwSleepCommit r s = .next t) : Keeps s t := by
  have hz := Keeps.refl s
  rw [← Host.Outcome.next.inj e]
  simp +contextual (maxDischargeDepth := 60) [hz]

@[simp] theorem setChWake_keeps (n w c s) (hz : Keeps z s) : Keeps z (setChWake n w c s) := by simp [setChWake, hz]

@[simp] theorem setPwGlobal_keeps (cfg bal bal2 timer s) (hz : Keeps z s) : Keeps z (setPwGlobal cfg bal bal2 timer s) := by simp [setPwGlobal, hz]

@[simp] theorem wakeConfigBody_keeps (r ws s) (hz : Keeps z s) : Keeps z (wakeConfigBody r ws s) := by simp (maxDischargeDepth := 9) [wakeConfigBody, hz]

theorem execPwWakeConfig_keeps (r s t) (e : execPwWakeConfig r s = .next t) : Keeps s t := by
  have hz := Keeps.refl s
  rw [← Host.Outcome.next.inj e]
  simp +contextual (maxDischargeDepth := 60) [hz]

theorem execDozeOn_keeps (r s t) (e : execDozeOn r s = .next t) : Keeps s t := by
  have hz := Keeps.refl s
  rw [← Host.Outcome.next.inj e]
  simp +contextual (maxDischargeDepth := 60) [hz]

theorem execDozeOff_keeps (r s t) (e : execDozeOff r s = .next t) : Keeps s t := by
  have hz := Keeps.refl s
  rw [← Host.Outcome.next.inj e]
  simp +contextual (maxDischargeDepth := 60) [hz]

@[simp] theorem pwModeEnter_keeps (r hib s) (hz : Keeps z s) : Keeps z (pwModeEnter r hib s) := by simp [pwModeEnter, hz]

theorem execPwModeSleep_keeps (r s t) (e : execPwModeSleep r s = .next t) : Keeps s t := by
  have hz := Keeps.refl s
  rw [← Host.Outcome.next.inj e]
  simp +contextual (maxDischargeDepth := 60) [hz]

theorem execPwModeHibernate_keeps (r s t) (e : execPwModeHibernate r s = .next t) : Keeps s t := by
  have hz := Keeps.refl s
  rw [← Host.Outcome.next.inj e]
  simp +contextual (maxDischargeDepth := 60) [hz]

theorem execReasonSet_keeps (r s t) (e : execReasonSet r s = .next t) : Keeps s t := by
  have hz := Keeps.refl s
  rw [← Host.Outcome.next.inj e]
  simp +contextual (maxDischargeDepth := 60) [hz]

theorem execReasonClear_keeps (r s t) (e : execReasonClear r s = .next t) : Keeps s t := by
  have hz := Keeps.refl s
  rw [← Host.Outcome.next.inj e]
  simp +contextual (maxDischargeDepth := 60) [hz]


/-! Elements -/

@[simp] theorem setElem_keeps (i d s) (hz : Keeps z s) : Keeps z (setElem i d s) := by simp [setElem, hz]

@[simp] theorem corrected_keeps (i s) (hz : Keeps z s) : Keeps z (corrected i s) := by simp (maxDischargeDepth := 9) [corrected, hz]

@[simp] theorem uncorrectable_keeps (i s) (hz : Keeps z s) : Keeps z (uncorrectable i s) := by simp (maxDischargeDepth := 9) [uncorrectable, hz]

@[simp] theorem walkEcc_keeps (w s) (hz : Keeps z s) : Keeps z (walkEcc w s) := by
  unfold walkEcc; try dsimp only
  first
  | (simp +contextual (maxDischargeDepth := 60) [hz]; done)
  | (repeat' split) <;> simp +contextual (maxDischargeDepth := 60) [hz]

@[simp] theorem gateCorrected_keeps (g s) (hz : Keeps z s) : Keeps z (gateCorrected g s) := by simp (maxDischargeDepth := 9) [gateCorrected, hz]

@[simp] theorem gateUncorrectable_keeps (g s) (hz : Keeps z s) : Keeps z (gateUncorrectable g s) := by simp (maxDischargeDepth := 9) [gateUncorrectable, hz]

@[simp] theorem setHighest_keeps (g v s) (hz : Keeps z s) : Keeps z (setHighest g v s) := by simp (maxDischargeDepth := 9) [setHighest, hz]

@[simp] theorem armGate_keeps (g claim s) (hz : Keeps z s) : Keeps z (armGate g claim s) := by simp (maxDischargeDepth := 9) [armGate, hz]

@[simp] theorem gateRead_keeps (g s) (hz : Keeps z s) : Keeps z (gateRead g s) := by simp (maxDischargeDepth := 9) [gateRead, hz]

@[simp] theorem judgeGate_keeps (g xl af s) (hz : Keeps z s) : Keeps z (judgeGate g xl af s).1 := by
  unfold judgeGate; dsimp only; (repeat' split) <;> simp (maxDischargeDepth := 60) [hz]

@[simp] theorem raiseGate_keeps (g claim s) (hz : Keeps z s) : Keeps z (raiseGate g claim s) := by simp [raiseGate, hz]

@[simp] theorem gateAtValid_keeps (n u s) (hz : Keeps z s) : Keeps z (gateAtValid n u s) := by
  unfold gateAtValid; dsimp only; (repeat' split) <;> simp (maxDischargeDepth := 60) [hz]

@[simp] theorem claimSeen_keeps (sender claim s) (hz : Keeps z s) : Keeps z (claimSeen sender claim s) := by
  unfold claimSeen; simp +contextual (maxDischargeDepth := 60) [hz]

theorem resolveFrom_keeps (f : Frame) (fmt : Nat) : ∀ (l : List Cand) (x : State × Resolution),
    Keeps z x.1 → Keeps z (resolveFrom f fmt l x).1 := by
  intro l
  induction l with
  | nil => intro x h; exact h
  | cons c t ih =>
    intro x h
    have hj := judgeGate_keeps (fld64 c.a 22 8) (fmt == 2) f.af x.1 h
    unfold resolveFrom
    dsimp only
    (repeat' split) <;> first | exact ih _ h | exact h | exact ih _ hj | exact hj

@[simp] theorem resolve_keeps (w : Walk) (half : Bool) (n : Nat) (dw : Word) (f : Frame) (fmt : Nat) (s : State)
    (h : Keeps z s) : Keeps z (resolve w half n dw f fmt s).1 := by
  unfold resolve
  dsimp only
  (repeat' split) <;> first | exact h | exact resolveFrom_keeps _ _ _ _ h


/-! Lattice -/

@[simp] theorem ltWriteData_keeps (r data s) (hz : Keeps z s) : Keeps z (ltWriteData r data s) := by simp [ltWriteData, hz]

@[simp] theorem ltWriteCut_keeps (r st info before s) (hz : Keeps z s) : Keeps z (ltWriteCut r st info before s) := by simp (maxDischargeDepth := 9) [ltWriteCut, hz]

@[simp] theorem ltWriteBody_keeps (r ws s) (hz : Keeps z s) : Keeps z (ltWriteBody r ws s) := by
  unfold ltWriteBody; simp +contextual (maxDischargeDepth := 60) [hz]

theorem execLtWrite_keeps (r s t) (e : execLtWrite r s = .next t) : Keeps s t := by
  have hz := Keeps.refl s
  rw [← Host.Outcome.next.inj e]
  simp +contextual (maxDischargeDepth := 60) [hz]

@[simp] theorem putElems_keeps (half : Bool) (n : Nat) : ∀ (l : List DWord) (p : Nat) (s : State),
    Keeps z s → Keeps z (putElems half n p l s) := by
  intro l
  induction l with
  | nil => intro p s h; exact h
  | cons d t ih => intro p s h; exact ih _ _ (by simp [h])

@[simp] theorem moveWrite_keeps (w s) (hz : Keeps z s) : Keeps z (moveWrite w s) := by simp (maxDischargeDepth := 9) [moveWrite, hz]

theorem execLtWriteDone_keeps (s t) (e : execLtWriteDone s = .next t) : Keeps s t := by
  have hz := Keeps.refl s
  rw [← Host.Outcome.next.inj e]
  try dsimp only
  first
  | (simp +contextual (maxDischargeDepth := 60) [hz]; done)
  | (repeat' split) <;> simp +contextual (maxDischargeDepth := 60) [hz]

@[simp] theorem copyElem_keeps (n p s) (hz : Keeps z s) : Keeps z (copyElem n p s) := by simp (maxDischargeDepth := 9) [copyElem, hz]

@[simp] theorem moveCopy_keeps (n p s) (hz : Keeps z s) : Keeps z (moveCopy n p s) := by
  unfold moveCopy; simp +contextual (maxDischargeDepth := 60) [hz]

theorem execLtCopyDone_keeps (ch s t) (e : execLtCopyDone ch s = .next t) : Keeps s t := by
  have hz := Keeps.refl s
  rw [← Host.Outcome.next.inj e]
  try dsimp only
  first
  | (simp +contextual (maxDischargeDepth := 60) [hz]; done)
  | (repeat' split) <;> simp +contextual (maxDischargeDepth := 60) [hz]

@[simp] theorem writeBack_keeps (key s) (hz : Keeps z s) : Keeps z (writeBack key s) := by simp (maxDischargeDepth := 9) [writeBack, hz]

@[simp] theorem scrubCell_keeps (c s) (hz : Keeps z s) : Keeps z (scrubCell c s) := by
  unfold scrubCell; simp +contextual (maxDischargeDepth := 60) [hz]

@[simp] theorem scrubTurn_keeps (s) (hz : Keeps z s) : Keeps z (scrubTurn s) := by simp (maxDischargeDepth := 9) [scrubTurn, hz]

@[simp] theorem latTurn_keeps (s) (hz : Keeps z s) : Keeps z (latTurn s) := by
  unfold latTurn; (repeat' split) <;> simp [hz]

@[simp] theorem swapHalves_keeps (mask copy s) (hz : Keeps z s) : Keeps z (swapHalves mask copy s) := by
  unfold swapHalves; simp +contextual (maxDischargeDepth := 60) [hz]

@[simp] theorem commitDone_keeps (c s) (hz : Keeps z s) : Keeps z (commitDone c s) := by simp (maxDischargeDepth := 9) [commitDone, hz]

@[simp] theorem ltSwap_keeps (ring mask copy s) (hz : Keeps z s) : Keeps z (ltSwap ring mask copy s) := by simp (maxDischargeDepth := 9) [ltSwap, hz]

@[simp] theorem correctRun_keeps (half n p k s) (hz : Keeps z s) : Keeps z (correctRun half n p k s) := by
  unfold correctRun; simp +contextual (maxDischargeDepth := 60) [hz]

@[simp] theorem checkReads_keeps (half ns x s) (hz : Keeps z s) : Keeps z (checkReads half ns x s) := by
  unfold checkReads; try dsimp only
  first
  | (simp +contextual (maxDischargeDepth := 60) [hz]; done)
  | (repeat' split) <;> simp +contextual (maxDischargeDepth := 60) [hz]

@[simp] theorem ltCommitBody_keeps (r ws s) (hz : Keeps z s) : Keeps z (ltCommitBody r ws s) := by
  unfold ltCommitBody; try dsimp only
  first
  | (simp +contextual (maxDischargeDepth := 60) [hz]; done)
  | (repeat' split) <;> simp +contextual (maxDischargeDepth := 60) [hz]

theorem execLtCommit_keeps (r s t) (e : execLtCommit r s = .next t) : Keeps s t := by
  have hz := Keeps.refl s
  rw [← Host.Outcome.next.inj e]
  simp +contextual (maxDischargeDepth := 60) [hz]

@[simp] theorem ltReadBody_keeps (r ws s) (hz : Keeps z s) : Keeps z (ltReadBody r ws s) := by
  unfold ltReadBody; dsimp only; (repeat' split) <;> simp (maxDischargeDepth := 60) [hz]

theorem execLtRead_keeps (r s t) (e : execLtRead r s = .next t) : Keeps s t := by
  have hz := Keeps.refl s
  rw [← Host.Outcome.next.inj e]
  simp +contextual (maxDischargeDepth := 60) [hz]

@[simp] theorem ltOwnedBody_keeps (r ws s) (hz : Keeps z s) : Keeps z (ltOwnedBody r ws s) := by simp (maxDischargeDepth := 9) [ltOwnedBody, hz]

theorem execLtOwned_keeps (r s t) (e : execLtOwned r s = .next t) : Keeps s t := by
  have hz := Keeps.refl s
  rw [← Host.Outcome.next.inj e]
  simp +contextual (maxDischargeDepth := 60) [hz]

@[simp] theorem reportOwned_keeps (n ide ident s) (hz : Keeps z s) : Keeps z (reportOwned n ide ident s) := by simp (maxDischargeDepth := 9) [reportOwned, hz]

@[simp] theorem winLow_keeps (c p v s) (hz : Keeps z s) : Keeps z (winLow c p v s) := by simp [winLow, hz]

@[simp] theorem keepLow_keeps (i v s) (hz : Keeps z s) : Keeps z (keepLow i v s) := by simp (maxDischargeDepth := 9) [keepLow, hz]

@[simp] theorem winHigh_keeps (c p v s) (hz : Keeps z s) : Keeps z (winHigh c p v s) := by
  unfold winHigh; dsimp only; (repeat' split) <;> simp (maxDischargeDepth := 60) [hz]

theorem execElementWindowLowWrite_keeps (i c p v s t) (e : execElementWindowLowWrite i c p v s = .next t) : Keeps s t := by
  have hz := Keeps.refl s
  rw [← Host.Outcome.next.inj e]
  simp +contextual (maxDischargeDepth := 60) [hz]

theorem execElementWindowHighWrite_keeps (i c p v s t) (e : execElementWindowHighWrite i c p v s = .next t) : Keeps s t := by
  have hz := Keeps.refl s
  rw [← Host.Outcome.next.inj e]
  simp +contextual (maxDischargeDepth := 60) [hz]

@[simp] theorem gateCfgWrite_keeps (g v s) (hz : Keeps z s) : Keeps z (gateCfgWrite g v s) := by simp [gateCfgWrite, hz]

@[simp] theorem gateStatWrite_keeps (g v s) (hz : Keeps z s) : Keeps z (gateStatWrite g v s) := by simp (maxDischargeDepth := 9) [gateStatWrite, hz]

theorem execGateEnable_keeps (i g v s t) (e : execGateEnable i g v s = .next t) : Keeps s t := by
  have hz := Keeps.refl s
  rw [← Host.Outcome.next.inj e]
  simp +contextual (maxDischargeDepth := 60) [hz]

theorem execGateDisable_keeps (i g v s t) (e : execGateDisable i g v s = .next t) : Keeps s t := by
  have hz := Keeps.refl s
  rw [← Host.Outcome.next.inj e]
  simp +contextual (maxDischargeDepth := 60) [hz]

theorem execGateHighestWrite_keeps (i g v s t) (e : execGateHighestWrite i g v s = .next t) : Keeps s t := by
  have hz := Keeps.refl s
  rw [← Host.Outcome.next.inj e]
  simp +contextual (maxDischargeDepth := 60) [hz]


/-! Queues -/

@[simp] theorem breakLists_keeps (q s) (hz : Keeps z s) : Keeps z (breakLists q s) := by
  unfold breakLists; dsimp only; (repeat' split) <;> simp (maxDischargeDepth := 60) [hz]

@[simp] theorem listFault_keeps (q kind c s) (hz : Keeps z s) : Keeps z (listFault q kind c s) := by
  unfold listFault; dsimp only; (repeat' split) <;> simp (maxDischargeDepth := 60) [hz]

@[simp] theorem linkRead_keeps (c s) (hz : Keeps z s) : Keeps z (linkRead c s) := by simp (maxDischargeDepth := 9) [linkRead, hz]

@[simp] theorem linkReads_keeps (cs s) (hz : Keeps z s) : Keeps z (linkReads cs s) := by
  unfold linkReads; simp +contextual (maxDischargeDepth := 60) [hz]

@[simp] theorem takeHead_keeps (q s) (hz : Keeps z s) : Keeps z (takeHead q s).1 := by
  unfold takeHead; dsimp only; (repeat' split) <;> simp (maxDischargeDepth := 60) [hz]

@[simp] theorem createQueue_keeps (q min max consumer ch pos notify xl s) (hz : Keeps z s) : Keeps z (createQueue q min max consumer ch pos notify xl s) := by simp [createQueue, hz]

@[simp] theorem qCreateBody_keeps (r ws s) (hz : Keeps z s) : Keeps z (qCreateBody r ws s) := by simp (maxDischargeDepth := 9) [qCreateBody, hz]

theorem execQCreate_keeps (r s t) (e : execQCreate r s = .next t) : Keeps s t := by
  have hz := Keeps.refl s
  rw [← Host.Outcome.next.inj e]
  simp +contextual (maxDischargeDepth := 60) [hz]

@[simp] theorem qRemoveBody_keeps (r ws s) (hz : Keeps z s) : Keeps z (qRemoveBody r ws s) := by simp (maxDischargeDepth := 9) [qRemoveBody, hz]

theorem execQRemove_keeps (r s t) (e : execQRemove r s = .next t) : Keeps s t := by
  have hz := Keeps.refl s
  rw [← Host.Outcome.next.inj e]
  simp +contextual (maxDischargeDepth := 60) [hz]

@[simp] theorem markItems_keeps (q mask s) (hz : Keeps z s) : Keeps z (markItems q mask s) := by simp [markItems, hz]

@[simp] theorem flushTaken_keeps (q mask n : Nat) (s : State) (hz : Keeps z s) : Keeps z (flushTaken q mask n s) := by
  unfold flushTaken
  refine keeps_foldl _ _ _ hz ?_
  intro s e hz
  dsimp only
  (repeat' split) <;> simp +contextual (maxDischargeDepth := 60) [hz]

@[simp] theorem unlinkClasses_keeps (q mask s) (hz : Keeps z s) : Keeps z (unlinkClasses q mask s) := by
  unfold unlinkClasses; simp +contextual (maxDischargeDepth := 60) [hz]

@[simp] theorem qFlushBody_keeps (r ws s) (hz : Keeps z s) : Keeps z (qFlushBody r ws s) := by
  unfold qFlushBody; simp +contextual (maxDischargeDepth := 60) [hz]

theorem execQFlush_keeps (r s t) (e : execQFlush r s = .next t) : Keeps s t := by
  have hz := Keeps.refl s
  rw [← Host.Outcome.next.inj e]
  simp +contextual (maxDischargeDepth := 60) [hz]

@[simp] theorem qRepairBody_keeps (r : Nat) (ws : List Word) (s : State) (hz : Keeps z s) : Keeps z (qRepairBody r ws s) := by
  unfold qRepairBody
  dsimp only
  refine keeps_ite (complete_keeps _ _ _ _ _ hz) (keeps_ite (complete_keeps _ _ _ _ _ hz) (keeps_ite (complete_keeps _ _ _ _ _ hz)
    (keeps_ite (complete_keeps _ _ _ _ _ hz) ?_)))
  exact State.modPool_keeps _ (State.modQueue_keeps _ _ hz) id

theorem execQFlushRepair_keeps (r s t) (e : execQFlushRepair r s = .next t) : Keeps s t := by
  have hz := Keeps.refl s
  rw [← Host.Outcome.next.inj e]
  simp +contextual (maxDischargeDepth := 60) [hz]

@[simp] theorem qBudgetBody_keeps (r ws s) (hz : Keeps z s) : Keeps z (qBudgetBody r ws s) := by simp (maxDischargeDepth := 9) [qBudgetBody, hz]

theorem execQBudget_keeps (r s t) (e : execQBudget r s = .next t) : Keeps s t := by
  have hz := Keeps.refl s
  rw [← Host.Outcome.next.inj e]
  simp +contextual (maxDischargeDepth := 60) [hz]

@[simp] theorem qStatusBody_keeps (r ws s) (hz : Keeps z s) : Keeps z (qStatusBody r ws s) := by simp [qStatusBody, hz]

theorem execQStatus_keeps (r s t) (e : execQStatus r s = .next t) : Keeps s t := by
  have hz := Keeps.refl s
  rw [← Host.Outcome.next.inj e]
  simp +contextual (maxDischargeDepth := 60) [hz]

@[simp] theorem setUnderrun_keeps (q s) (hz : Keeps z s) : Keeps z (setUnderrun q s) := by simp [setUnderrun, hz]

@[simp] theorem windowLock_keeps (q s) (hz : Keeps z s) : Keeps z (windowLock q s).1 := by
  unfold windowLock; (repeat' split) <;> simp [hz]

@[simp] theorem windowData_keeps (q k s) (hz : Keeps z s) : Keeps z (windowData q k s).1 := by
  unfold windowData; dsimp only; (repeat' split) <;> simp (maxDischargeDepth := 60) [hz]

theorem execWindowLockRead_keeps (i q s t) (e : execWindowLockRead i q s = .next t) : Keeps s t := by
  have hz := Keeps.refl s
  rw [← Host.Outcome.next.inj e]
  (repeat' split) <;> simp [hz]

theorem execWindowDataRead_keeps (i q k s t) (e : execWindowDataRead i q k s = .next t) : Keeps s t := by
  have hz := Keeps.refl s
  rw [← Host.Outcome.next.inj e]
  (repeat' split) <;> simp [hz]

@[simp] theorem windowPop_keeps (q v s) (hz : Keeps z s) : Keeps z (windowPop q v s) := by
  unfold windowPop; try dsimp only
  first
  | (simp +contextual (maxDischargeDepth := 60) [hz]; done)
  | (repeat' split) <;> simp +contextual (maxDischargeDepth := 60) [hz]

theorem execWindowPop_keeps (i q v s t) (e : execWindowPop i q v s = .next t) : Keeps s t := by
  have hz := Keeps.refl s
  rw [← Host.Outcome.next.inj e]
  simp +contextual (maxDischargeDepth := 60) [hz]

theorem execWindowRelease_keeps (i q v s t) (e : execWindowRelease i q v s = .next t) : Keeps s t := by
  have hz := Keeps.refl s
  rw [← Host.Outcome.next.inj e]
  simp +contextual (maxDischargeDepth := 60) [hz]

theorem execLockTimeout_keeps (q s t) (e : execLockTimeout q s = .next t) : Keeps s t := by
  have hz := Keeps.refl s
  rw [← Host.Outcome.next.inj e]
  simp (maxDischargeDepth := 9) [hz]

@[simp] theorem auditTurn_keeps (s) (hz : Keeps z s) : Keeps z (auditTurn s) := by simp [auditTurn, hz]

@[simp] theorem auditRest_keeps (s) (hz : Keeps z s) : Keeps z (auditRest s) := by simp [auditRest, hz]

@[simp] theorem repairDone_keeps (q f s) (hz : Keeps z s) : Keeps z (repairDone q f s) := by simp (maxDischargeDepth := 9) [repairDone, hz]

@[simp] theorem auditRepair_keeps (q s) (hz : Keeps z s) : Keeps z (auditRepair q s) := by
  unfold auditRepair; (repeat' split) <;> simp [hz]

@[simp] theorem auditEnd_keeps (bad freeBad ownerBad s) (hz : Keeps z s) : Keeps z (auditEnd bad freeBad ownerBad s) := by
  unfold auditEnd; try dsimp only
  first
  | (simp +contextual (maxDischargeDepth := 60) [hz]; done)
  | (repeat' split) <;> simp +contextual (maxDischargeDepth := 60) [hz]

@[simp] theorem auditStep_keeps (s) (hz : Keeps z s) : Keeps z (auditStep s) := by simp (maxDischargeDepth := 9) [auditStep, hz]

theorem execAuditPassEnd_keeps (bad freeBad ownerBad s t) (e : execAuditPassEnd bad freeBad ownerBad s = .next t) : Keeps s t := by
  have hz := Keeps.refl s
  rw [← Host.Outcome.next.inj e]
  simp +contextual (maxDischargeDepth := 60) [hz]

@[simp] theorem drainItem_keeps (q s) (hz : Keeps z s) : Keeps z (drainItem q s) := by
  unfold drainItem; dsimp only; (repeat' split) <;> simp (maxDischargeDepth := 60) [hz]

theorem execHostDmaDrain_keeps (q s t) (e : execHostDmaDrain q s = .next t) : Keeps s t := by
  have hz := Keeps.refl s
  rw [← Host.Outcome.next.inj e]
  try dsimp only
  first
  | (simp +contextual (maxDischargeDepth := 60) [hz]; done)
  | (repeat' split) <;> simp +contextual (maxDischargeDepth := 60) [hz]

@[simp] theorem poolBytes_keeps (addr be v s) (hz : Keeps z s) : Keeps z (poolBytes addr be v s) := by
  unfold poolBytes; simp +contextual (maxDischargeDepth := 60) [hz]

@[simp] theorem poolWrite_keeps (word be v s) (hz : Keeps z s) : Keeps z (poolWrite word be v s) := by
  unfold poolWrite; simp +contextual (maxDischargeDepth := 60) [hz]

@[simp] theorem poolRead_keeps (word s) (hz : Keeps z s) : Keeps z (poolRead word s).1 := by
  unfold poolRead; (repeat' split) <;> simp [hz]

theorem execPoolWindowWrite_keeps (addr : Nat) (be : Fin 16) (v : Word) (s : State) (t : State)
    (e : execPoolWindowWrite addr be v s = .next t) : Keeps s t := by
  have hz := Keeps.refl s
  unfold execPoolWindowWrite at e
  split at e
  · cases e; simp +contextual (maxDischargeDepth := 60) [hz]
  · cases e


/-! Chord -/

@[simp] theorem chargeRaw_keeps (c q s) (hz : Keeps z s) : Keeps z (chargeRaw c q s) := by simp [chargeRaw, hz]

@[simp] theorem recharge_keeps (q cells s) (hz : Keeps z s) : Keeps z (recharge q cells s) := by
  unfold recharge; simp +contextual (maxDischargeDepth := 60) [hz]

@[simp] theorem takeToken_keeps (r s) (hz : Keeps z s) : Keeps z (takeToken r s) := by simp [takeToken, hz]

@[simp] theorem routeDrop_keeps (r n reason s) (hz : Keeps z s) : Keeps z (routeDrop r n reason s) := by simp (maxDischargeDepth := 9) [routeDrop, hz]

@[simp] theorem clearRoute_keeps (r s) (hz : Keeps z s) : Keeps z (clearRoute r s) := by simp [clearRoute, hz]

@[simp] theorem removeCheck_keeps (r s) (hz : Keeps z s) : Keeps z (removeCheck r s) := by
  unfold removeCheck; simp +contextual (maxDischargeDepth := 60) [hz]

@[simp] theorem noteForward_keeps (r s) (hz : Keeps z s) : Keeps z (noteForward r s) := by
  unfold noteForward; simp +contextual (maxDischargeDepth := 60) [hz]

@[simp] theorem emptyHold_keeps (n s) (hz : Keeps z s) : Keeps z (emptyHold n s) := by simp [emptyHold, hz]

@[simp] theorem dropHeld_keeps (n h reason late s) (hz : Keeps z s) : Keeps z (dropHeld n h reason late s) := by simp (maxDischargeDepth := 9) [dropHeld, hz]

@[simp] theorem fillHold_keeps (n k cells s) (hz : Keeps z s) : Keeps z (fillHold n k cells s) := by simp [fillHold, hz]

@[simp] theorem chordPop_keeps (n s) (hz : Keeps z s) : Keeps z (chordPop n s) := by
  unfold chordPop; dsimp only; (repeat' split) <;> simp (maxDischargeDepth := 60) [hz]

theorem execChordSelect_keeps (ch s t) (e : execChordSelect ch s = .next t) : Keeps s t := by
  have hz := Keeps.refl s
  rw [← Host.Outcome.next.inj e]
  try dsimp only
  first
  | (simp +contextual (maxDischargeDepth := 60) [hz]; done)
  | (repeat' split) <;> simp +contextual (maxDischargeDepth := 60) [hz]

@[simp] theorem chordParity_keeps (r n inHold s) (hz : Keeps z s) : Keeps z (chordParity r n inHold s) := by simp (maxDischargeDepth := 9) [chordParity, hz]

@[simp] theorem wakeRequest_keeps (r m s) (hz : Keeps z s) : Keeps z (wakeRequest r m s) := by simp (maxDischargeDepth := 9) [wakeRequest, hz]

@[simp] theorem wakeWait_keeps (r m permit asleepOut s) (hz : Keeps z s) : Keeps z (wakeWait r m permit asleepOut s) := by simp (maxDischargeDepth := 9) [wakeWait, hz]

@[simp] theorem forwardHeld_keeps (n h e s) (hz : Keeps z s) : Keeps z (forwardHeld n h e s) := by
  unfold forwardHeld; simp +contextual (maxDischargeDepth := 60) [hz]

@[simp] theorem judgeHeld_keeps (n h s) (hz : Keeps z s) : Keeps z (judgeHeld n h s) := by
  unfold judgeHeld; dsimp only; (repeat' split) <;> simp (maxDischargeDepth := 60) [hz]

theorem execChordJudge_keeps (ch s t) (e : execChordJudge ch s = .next t) : Keeps s t := by
  have hz := Keeps.refl s
  rw [← Host.Outcome.next.inj e]
  try dsimp only
  first
  | (simp +contextual (maxDischargeDepth := 60) [hz]; done)
  | (repeat' split) <;> simp +contextual (maxDischargeDepth := 60) [hz]

theorem execCdStall_keeps (ch s t) (e : execCdStall ch s = .next t) : Keeps s t := by
  have hz := Keeps.refl s
  rw [← Host.Outcome.next.inj e]
  (repeat' split) <;> simp [hz]

theorem execTokenAdd_keeps (r s t) (e : execTokenAdd r s = .next t) : Keeps s t := by
  have hz := Keeps.refl s
  rw [← Host.Outcome.next.inj e]
  simp [hz]

@[simp] theorem forgetCut_keeps (n s) (hz : Keeps z s) : Keeps z (forgetCut n s) := by simp [forgetCut, hz]

@[simp] theorem cutCommit_keeps (n c s) (hz : Keeps z s) : Keeps z (cutCommit n c s) := by simp (maxDischargeDepth := 9) [cutCommit, hz]

theorem execCutThroughCommit_keeps (ch s t) (e : execCutThroughCommit ch s = .next t) : Keeps s t := by
  have hz := Keeps.refl s
  rw [← Host.Outcome.next.inj e]
  try dsimp only
  first
  | (simp +contextual (maxDischargeDepth := 60) [hz]; done)
  | (repeat' split) <;> simp +contextual (maxDischargeDepth := 60) [hz]

@[simp] theorem addRoute_keeps (r cfg ident xl rate s) (hz : Keeps z s) : Keeps z (addRoute r cfg ident xl rate s) := by simp [addRoute, hz]

@[simp] theorem routeAddBody_keeps (r ws s) (hz : Keeps z s) : Keeps z (routeAddBody r ws s) := by simp (maxDischargeDepth := 9) [routeAddBody, hz]

theorem execCdRouteAdd_keeps (r s t) (e : execCdRouteAdd r s = .next t) : Keeps s t := by
  have hz := Keeps.refl s
  rw [← Host.Outcome.next.inj e]
  simp +contextual (maxDischargeDepth := 60) [hz]

@[simp] theorem routeReenableBody_keeps (r ws s) (hz : Keeps z s) : Keeps z (routeReenableBody r ws s) := by simp (maxDischargeDepth := 9) [routeReenableBody, hz]

theorem execCdRouteReenable_keeps (r s t) (e : execCdRouteReenable r s = .next t) : Keeps s t := by
  have hz := Keeps.refl s
  rw [← Host.Outcome.next.inj e]
  simp +contextual (maxDischargeDepth := 60) [hz]

@[simp] theorem routeRemoveBody_keeps (r ws s) (hz : Keeps z s) : Keeps z (routeRemoveBody r ws s) := by
  unfold routeRemoveBody; simp +contextual (maxDischargeDepth := 60) [hz]

theorem execCdRouteRemove_keeps (r s t) (e : execCdRouteRemove r s = .next t) : Keeps s t := by
  have hz := Keeps.refl s
  rw [← Host.Outcome.next.inj e]
  simp +contextual (maxDischargeDepth := 60) [hz]

@[simp] theorem cdStatsBody_keeps (r ws s) (hz : Keeps z s) : Keeps z (cdStatsBody r ws s) := by simp (maxDischargeDepth := 9) [cdStatsBody, hz]

theorem execCdStats_keeps (r s t) (e : execCdStats r s = .next t) : Keeps s t := by
  have hz := Keeps.refl s
  rw [← Host.Outcome.next.inj e]
  simp +contextual (maxDischargeDepth := 60) [hz]


/-! Check -/

@[simp] theorem ckStream_keeps (u k seq s) (hz : Keeps z s) : Keeps z (ckStream u k seq s) := by simp [ckStream, hz]

@[simp] theorem ckDisagree_keeps (u genuine s) (hz : Keeps z s) : Keeps z (ckDisagree u genuine s) := by simp (maxDischargeDepth := 9) [ckDisagree, hz]

@[simp] theorem ckFaultSeen_keeps (u fault s) (hz : Keeps z s) : Keeps z (ckFaultSeen u fault s) := by simp [ckFaultSeen, hz]

@[simp] theorem ckRecord_keeps (u res reason s) (hz : Keeps z s) : Keeps z (ckRecord u res reason s) := by simp [ckRecord, hz]

@[simp] theorem ckMismatch_keeps (u ch reason ident ide cval carried irq s) (hz : Keeps z s) : Keeps z (ckMismatch u ch reason ident ide cval carried irq s) := by simp (maxDischargeDepth := 9) [ckMismatch, hz]

@[simp] theorem ckFree_keeps (s) (hz : Keeps z s) : Keeps z (ckFree s).1 := by simp [ckFree, hz]

@[simp] theorem ckRun_keeps (u cfg cfg2 ch ident ide data fault seqTest s) (hz : Keeps z s) : Keeps z (ckRun u cfg cfg2 ch ident ide data fault seqTest s).1 := by
  unfold ckRun; dsimp only; (repeat' split) <;> simp (maxDischargeDepth := 60) [hz]

@[simp] theorem ckGenerate_keeps (u cfg cfg2 i fault s) (hz : Keeps z s) : Keeps z (ckGenerate u cfg cfg2 i fault s).1 := by
  unfold ckGenerate; (repeat' split) <;> simp [hz]

@[simp] theorem ckConfigBody_keeps (r ws s) (hz : Keeps z s) : Keeps z (ckConfigBody r ws s) := by simp (maxDischargeDepth := 9) [ckConfigBody, hz]

theorem execCkConfig_keeps (r s t) (e : execCkConfig r s = .next t) : Keeps s t := by
  have hz := Keeps.refl s
  rw [← Host.Outcome.next.inj e]
  simp +contextual (maxDischargeDepth := 60) [hz]

@[simp] theorem ckSaveBody_keeps (r ws s) (hz : Keeps z s) : Keeps z (ckSaveBody r ws s) := by simp (maxDischargeDepth := 9) [ckSaveBody, hz]

theorem execCkSave_keeps (r s t) (e : execCkSave r s = .next t) : Keeps s t := by
  have hz := Keeps.refl s
  rw [← Host.Outcome.next.inj e]
  simp +contextual (maxDischargeDepth := 60) [hz]

@[simp] theorem ckRestoreData_keeps (r data s) (hz : Keeps z s) : Keeps z (ckRestoreData r data s) := by simp (maxDischargeDepth := 9) [ckRestoreData, hz]

@[simp] theorem ckRestoreBody_keeps (r ws s) (hz : Keeps z s) : Keeps z (ckRestoreBody r ws s) := by
  unfold ckRestoreBody; simp +contextual (maxDischargeDepth := 60) [hz]

theorem execCkRestore_keeps (r s t) (e : execCkRestore r s = .next t) : Keeps s t := by
  have hz := Keeps.refl s
  rw [← Host.Outcome.next.inj e]
  simp +contextual (maxDischargeDepth := 60) [hz]

@[simp] theorem feedFold_keeps (ws data s) (hz : Keeps z s) : Keeps z (feedFold ws data s) := by simp [feedFold, hz]

@[simp] theorem ckFeedCut_keeps (r st info before s) (hz : Keeps z s) : Keeps z (ckFeedCut r st info before s) := by simp (maxDischargeDepth := 9) [ckFeedCut, hz]

@[simp] theorem ckFeedData_keeps (r data s) (hz : Keeps z s) : Keeps z (ckFeedData r data s) := by
  unfold ckFeedData; dsimp only; (repeat' split) <;> simp (maxDischargeDepth := 60) [hz]

@[simp] theorem ckFeedHostBody_keeps (r fault ws s) (hz : Keeps z s) : Keeps z (ckFeedHostBody r fault ws s) := by
  unfold ckFeedHostBody; simp +contextual (maxDischargeDepth := 60) [hz]

theorem execCkFeedHost_keeps (r fault s t) (e : execCkFeedHost r fault s = .next t) : Keeps s t := by
  have hz := Keeps.refl s
  rw [← Host.Outcome.next.inj e]
  simp +contextual (maxDischargeDepth := 60) [hz]

@[simp] theorem ckFeedQueueBody_keeps (r ws s) (hz : Keeps z s) : Keeps z (ckFeedQueueBody r ws s) := by simp (maxDischargeDepth := 9) [ckFeedQueueBody, hz]

theorem execCkFeedQueue_keeps (r s t) (e : execCkFeedQueue r s = .next t) : Keeps s t := by
  have hz := Keeps.refl s
  rw [← Host.Outcome.next.inj e]
  simp +contextual (maxDischargeDepth := 60) [hz]

@[simp] theorem ckJobEnd_keeps (u j s) (hz : Keeps z s) : Keeps z (ckJobEnd u j s) := by simp [ckJobEnd, hz]

@[simp] theorem ckJobNext_keeps (u j s) (hz : Keeps z s) : Keeps z (ckJobNext u j s) := by simp [ckJobNext, hz]

@[simp] theorem ckDeliver_keeps (u j cells cls s) (hz : Keeps z s) : Keeps z (ckDeliver u j cells cls s) := by simp (maxDischargeDepth := 9) [ckDeliver, hz]

@[simp] theorem ckStore_keeps (c w0 w7 status s) (hz : Keeps z s) : Keeps z (ckStore c w0 w7 status s) := by
  unfold ckStore; simp +contextual (maxDischargeDepth := 60) [hz]

@[simp] theorem ckJudge_keeps (u j fault i s) (hz : Keeps z s) : Keeps z (ckJudge u j fault i s) := by simp (maxDischargeDepth := 9) [ckJudge, hz]

@[simp] theorem ckItem_keeps (u j fault s) (hz : Keeps z s) : Keeps z (ckItem u j fault s) := by
  unfold ckItem; dsimp only; (repeat' split) <;> simp (maxDischargeDepth := 60) [hz]

@[simp] theorem ckTaken_keeps (u s) (hz : Keeps z s) : Keeps z (ckTaken u s) := by simp [ckTaken, hz]

@[simp] theorem ckServe_keeps (u fault s) (hz : Keeps z s) : Keeps z (ckServe u fault s) := by
  unfold ckServe; (repeat' split) <;> simp [hz]

theorem execCkFeedItem_keeps (u fault s t) (e : execCkFeedItem u fault s = .next t) : Keeps s t := by
  have hz := Keeps.refl s
  rw [← Host.Outcome.next.inj e]
  simp +contextual (maxDischargeDepth := 60) [hz]


/-! Confine -/

@[simp] theorem busOffEntry_keeps (n s) (hz : Keeps z s) : Keeps z (busOffEntry n s) := by simp (maxDischargeDepth := 9) [busOffEntry, hz]

@[simp] theorem setCounters_keeps (n tec rc s) (hz : Keeps z s) : Keeps z (setCounters n tec rc s) := by simp (maxDischargeDepth := 9) [setCounters, hz]

@[simp] theorem tecEights_keeps (n : Nat) : ∀ (k : Nat) (s : State), Keeps z s → Keeps z (tecEights n k s) := by
  intro k
  induction k with
  | zero => intro s h; exact h
  | succ k ih =>
    intro s h
    unfold tecEights
    split
    · exact ih _ (by simp [h])
    · exact h

@[simp] theorem recAdd_keeps (n k s) (hz : Keeps z s) : Keeps z (recAdd n k s) := by simp [recAdd, hz]

@[simp] theorem txError_keeps (n counted e s) (hz : Keeps z s) : Keeps z (txError n counted e s) := by simp (maxDischargeDepth := 9) [txError, hz]

@[simp] theorem rxError_keeps (n e s) (hz : Keeps z s) : Keeps z (rxError n e s) := by simp (maxDischargeDepth := 9) [rxError, hz]

@[simp] theorem rxNack_keeps (n s) (hz : Keeps z s) : Keeps z (rxNack n s) := by simp (maxDischargeDepth := 9) [rxNack, hz]

@[simp] theorem overloadFlag_keeps (n transmitter e s) (hz : Keeps z s) : Keeps z (overloadFlag n transmitter e s) := by simp [overloadFlag, hz]

@[simp] theorem txGood_keeps (n s) (hz : Keeps z s) : Keeps z (txGood n s) := by simp [txGood, hz]

@[simp] theorem rxGood_keeps (n s) (hz : Keeps z s) : Keeps z (rxGood n s) := by simp (maxDischargeDepth := 9) [rxGood, hz]

@[simp] theorem startRecovery_keeps (n s) (hz : Keeps z s) : Keeps z (startRecovery n s) := by simp [startRecovery, hz]

@[simp] theorem ceilClear_keeps (n s) (hz : Keeps z s) : Keeps z (ceilClear n s) := by simp (maxDischargeDepth := 9) [ceilClear, hz]

theorem execBackoffElapsed_keeps (ch s t) (e : execBackoffElapsed ch s = .next t) : Keeps s t := by
  have hz := Keeps.refl s
  rw [← Host.Outcome.next.inj e]
  simp [hz]

theorem execRecoveryOccurrence_keeps (ch s t) (e : execRecoveryOccurrence ch s = .next t) : Keeps s t := by
  have hz := Keeps.refl s
  rw [← Host.Outcome.next.inj e]
  simp [hz]

theorem execRecoveryDone_keeps (ch s t) (e : execRecoveryDone ch s = .next t) : Keeps s t := by
  have hz := Keeps.refl s
  rw [← Host.Outcome.next.inj e]
  simp (maxDischargeDepth := 9) [hz]

theorem execBoffWindowClose_keeps (ch s t) (e : execBoffWindowClose ch s = .next t) : Keeps s t := by
  have hz := Keeps.refl s
  rw [← Host.Outcome.next.inj e]
  simp [hz]

@[simp] theorem dupStart_keeps (n src fresh s) (hz : Keeps z s) : Keeps z (dupStart n src fresh s) := by simp [dupStart, hz]

@[simp] theorem dupEnd_keeps (n src i counted s) (hz : Keeps z s) : Keeps z (dupEnd n src i counted s) := by simp (maxDischargeDepth := 9) [dupEnd, hz]

@[simp] theorem dupRelease_keeps (n v s) (hz : Keeps z s) : Keeps z (dupRelease n v s) := by simp [dupRelease, hz]

theorem execDupHoldRelease_keeps (i ch v s t) (e : execDupHoldRelease i ch v s = .next t) : Keeps s t := by
  have hz := Keeps.refl s
  rw [← Host.Outcome.next.inj e]
  simp +contextual (maxDischargeDepth := 60) [hz]


/-! Channel -/

@[simp] theorem planWritten_keeps (n off s) (hz : Keeps z s) : Keeps z (planWritten n off s) := by
  unfold planWritten; (repeat' split) <;> simp [hz]

@[simp] theorem chCfgWrite_keeps (n off v s) (hz : Keeps z s) : Keeps z (chCfgWrite n off v s) := by
  unfold chCfgWrite; (repeat' split) <;> simp [hz]

@[simp] theorem chConfigData_keeps (r data s) (hz : Keeps z s) : Keeps z (chConfigData r data s) := by
  unfold chConfigData; simp +contextual (maxDischargeDepth := 60) [hz]

@[simp] theorem chConfigBody_keeps (r ws s) (hz : Keeps z s) : Keeps z (chConfigBody r ws s) := by
  unfold chConfigBody; simp +contextual (maxDischargeDepth := 60) [hz]

theorem execChConfigure_keeps (r s t) (e : execChConfigure r s = .next t) : Keeps s t := by
  have hz := Keeps.refl s
  rw [← Host.Outcome.next.inj e]
  simp +contextual (maxDischargeDepth := 60) [hz]

@[simp] theorem startChannel_keeps (n s) (hz : Keeps z s) : Keeps z (startChannel n s) := by simp [startChannel, hz]

@[simp] theorem chStartBody_keeps (r ws s) (hz : Keeps z s) : Keeps z (chStartBody r ws s) := by simp (maxDischargeDepth := 9) [chStartBody, hz]

theorem execChStart_keeps (r s t) (e : execChStart r s = .next t) : Keeps s t := by
  have hz := Keeps.refl s
  rw [← Host.Outcome.next.inj e]
  simp +contextual (maxDischargeDepth := 60) [hz]

theorem execIntegrationDone_keeps (ch s t) (e : execIntegrationDone ch s = .next t) : Keeps s t := by
  have hz := Keeps.refl s
  rw [← Host.Outcome.next.inj e]
  simp (maxDischargeDepth := 9) [hz]

@[simp] theorem chStopBody_keeps (r ws s) (hz : Keeps z s) : Keeps z (chStopBody r ws s) := by
  unfold chStopBody; dsimp only; (repeat' split) <;> simp (maxDischargeDepth := 60) [hz]

theorem execChStop_keeps (r s t) (e : execChStop r s = .next t) : Keeps s t := by
  have hz := Keeps.refl s
  rw [← Host.Outcome.next.inj e]
  simp +contextual (maxDischargeDepth := 60) [hz]

@[simp] theorem chSetStateBody_keeps (r ws s) (hz : Keeps z s) : Keeps z (chSetStateBody r ws s) := by simp (maxDischargeDepth := 9) [chSetStateBody, hz]

theorem execChSetState_keeps (r s t) (e : execChSetState r s = .next t) : Keeps s t := by
  have hz := Keeps.refl s
  rw [← Host.Outcome.next.inj e]
  simp +contextual (maxDischargeDepth := 60) [hz]

theorem execTrxChangeApplied_keeps (ch s t) (e : execTrxChangeApplied ch s = .next t) : Keeps s t := by
  have hz := Keeps.refl s
  rw [← Host.Outcome.next.inj e]
  simp [hz]

theorem execTrxSettled_keeps (ch s t) (e : execTrxSettled ch s = .next t) : Keeps s t := by
  have hz := Keeps.refl s
  rw [← Host.Outcome.next.inj e]
  simp [hz]

@[simp] theorem chRecoverBody_keeps (r ws s) (hz : Keeps z s) : Keeps z (chRecoverBody r ws s) := by
  unfold chRecoverBody; dsimp only; (repeat' split) <;> simp (maxDischargeDepth := 60) [hz]

theorem execChRecover_keeps (r s t) (e : execChRecover r s = .next t) : Keeps s t := by
  have hz := Keeps.refl s
  rw [← Host.Outcome.next.inj e]
  simp +contextual (maxDischargeDepth := 60) [hz]

@[simp] theorem chCountersBody_keeps (r ws s) (hz : Keeps z s) : Keeps z (chCountersBody r ws s) := by simp (maxDischargeDepth := 9) [chCountersBody, hz]

theorem execChCounters_keeps (r s t) (e : execChCounters r s = .next t) : Keeps s t := by
  have hz := Keeps.refl s
  rw [← Host.Outcome.next.inj e]
  simp +contextual (maxDischargeDepth := 60) [hz]

@[simp] theorem armPrime_keeps (n b s) (hz : Keeps z s) : Keeps z (armPrime n b s) := by simp (maxDischargeDepth := 9) [armPrime, hz]

@[simp] theorem armWrite_keeps (n b v s) (hz : Keeps z s) : Keeps z (armWrite n b v s) := by simp (maxDischargeDepth := 9) [armWrite, hz]

theorem execPrimeArm_keeps (i ch b v s t) (e : execPrimeArm i ch b v s = .next t) : Keeps s t := by
  have hz := Keeps.refl s
  rw [← Host.Outcome.next.inj e]
  simp +contextual (maxDischargeDepth := 60) [hz]


/-! Law -/

@[simp] theorem bindUpdate_keeps (n c w0 data pass s) (hz : Keeps z s) : Keeps z (bindUpdate n c w0 data pass s) := by simp (maxDischargeDepth := 9) [bindUpdate, hz]


/-! DuplexCore -/

@[simp] theorem setClaim_keeps (v s) (hz : Keeps z s) : Keeps z (setClaim v s) := by simp [setClaim, hz]

@[simp] theorem noteClaim_keeps (v s) (hz : Keeps z s) : Keeps z (noteClaim v s) := by simp [noteClaim, hz]

@[simp] theorem raiseClaim_keeps (s) (hz : Keeps z s) : Keeps z (raiseClaim s) := by simp (maxDischargeDepth := 9) [raiseClaim, hz]

@[simp] theorem claimFrames_keeps (reason s) (hz : Keeps z s) : Keeps z (claimFrames reason s) := by
  unfold claimFrames; simp +contextual (maxDischargeDepth := 60) [hz]

@[simp] theorem flagDivergent_keeps (c s) (hz : Keeps z s) : Keeps z (flagDivergent c s) := by simp [flagDivergent, hz]

@[simp] theorem verdictEvent_keeps (c v s) (hz : Keeps z s) : Keeps z (verdictEvent c v s) := by simp [verdictEvent, hz]

@[simp] theorem refereeNone_keeps (late s) (hz : Keeps z s) : Keeps z (refereeNone late s) := by
  unfold refereeNone; dsimp only; (repeat' split) <;> simp (maxDischargeDepth := 60) [hz]

@[simp] theorem selfFault_keeps (detail s) (hz : Keeps z s) : Keeps z (selfFault detail s) := by simp (maxDischargeDepth := 9) [selfFault, hz]

@[simp] theorem discardEpoch_keeps (s) (hz : Keeps z s) : Keeps z (discardEpoch s) := by simp (maxDischargeDepth := 9) [discardEpoch, hz]

@[simp] theorem dropPartial_keeps (s) (hz : Keeps z s) : Keeps z (dropPartial s) := by simp [dropPartial, hz]

@[simp] theorem becomeActive_keeps (cause s) (hz : Keeps z s) : Keeps z (becomeActive cause s) := by simp (maxDischargeDepth := 9) [becomeActive, hz]

@[simp] theorem stopOwn_keeps (s) (hz : Keeps z s) : Keeps z (stopOwn s) := by simp [stopOwn, hz]

@[simp] theorem demote_keeps (new cause claim s) (hz : Keeps z s) : Keeps z (demote new cause claim s) := by
  unfold demote; simp +contextual (maxDischargeDepth := 60) [hz]

@[simp] theorem sendResync_keeps (s) (hz : Keeps z s) : Keeps z (sendResync s) := by simp [sendResync, hz]

@[simp] theorem enterSync_keeps (s) (hz : Keeps z s) : Keeps z (enterSync s) := by simp [enterSync, hz]

@[simp] theorem linkDown_keeps (s) (hz : Keeps z s) : Keeps z (linkDown s) := by simp (maxDischargeDepth := 9) [linkDown, hz]

@[simp] theorem linkComesUp_keeps (s) (hz : Keeps z s) : Keeps z (linkComesUp s) := by simp (maxDischargeDepth := 9) [linkComesUp, hz]

@[simp] theorem askReplay_keeps (c r why s) (hz : Keeps z s) : Keeps z (askReplay c r why s) := by simp [askReplay, hz]

@[simp] theorem judgeExchange_keeps (s) (hz : Keeps z s) : Keeps z (judgeExchange s) := by
  unfold judgeExchange; dsimp only; (repeat' split) <;> simp (maxDischargeDepth := 60) [hz]

@[simp] theorem selfJudged_keeps (ok s) (hz : Keeps z s) : Keeps z (selfJudged ok s) := by simp [selfJudged, hz]

@[simp] theorem startExchange_keeps (c kind index shown s) (hz : Keeps z s) : Keeps z (startExchange c kind index shown s) := by
  unfold startExchange; dsimp only; (repeat' split) <;> simp (maxDischargeDepth := 60) [hz]

@[simp] theorem mismatch_keeps (c kind index shown s) (hz : Keeps z s) : Keeps z (mismatch c kind index shown s) := by simp (maxDischargeDepth := 9) [mismatch, hz]

@[simp] theorem observeFrame_keeps (n f s) (hz : Keeps z s) : Keeps z (observeFrame n f s) := by
  unfold observeFrame; (repeat' split) <;> simp [hz]

@[simp] theorem partnerHeard_keeps (sender s) (hz : Keeps z s) : Keeps z (partnerHeard sender s) := by simp [partnerHeard, hz]

@[simp] theorem claimObserved_keeps (n kind sender claim s) (hz : Keeps z s) : Keeps z (claimObserved n kind sender claim s) := by
  unfold claimObserved; dsimp only; (repeat' split) <;> simp (maxDischargeDepth := 60) [hz]

@[simp] theorem resyncDone_keeps (s) (hz : Keeps z s) : Keeps z (resyncDone s) := by simp [resyncDone, hz]

@[simp] theorem standbyReached_keeps (s) (hz : Keeps z s) : Keeps z (standbyReached s) := by simp (maxDischargeDepth := 9) [standbyReached, hz]

@[simp] theorem frameGone_keeps (c s) (hz : Keeps z s) : Keeps z (frameGone c s) := by simp [frameGone, hz]

@[simp] theorem notAwaited_keeps (c s) (hz : Keeps z s) : Keeps z (notAwaited c s) := by simp (maxDischargeDepth := 9) [notAwaited, hz]

@[simp] theorem ctxDisabled_keeps (c r0 s) (hz : Keeps z s) : Keeps z (ctxDisabled c r0 s) := by
  unfold ctxDisabled; dsimp only; (repeat' split) <;> simp (maxDischargeDepth := 60) [hz]

@[simp] theorem ctxFailed_keeps (c s) (hz : Keeps z s) : Keeps z (ctxFailed c s) := by
  unfold ctxFailed; dsimp only; (repeat' split) <;> simp (maxDischargeDepth := 60) [hz]

@[simp] theorem ctxCheck_keeps (c ks s) (hz : Keeps z s) : Keeps z (ctxCheck c ks s) := by simp [ctxCheck, hz]


/-! Upset -/

@[simp] theorem applyUpset_keeps (u s) (hz : Keeps z s) : Keeps z (applyUpset u s) := by
  cases u with
  | poolByte a v => exact State.modPool_keeps _ hz fun h => memSet_wf _ _ _ h
  | _ => dsimp only [applyUpset]; (repeat' split) <;> first | exact hz | simp [hz]

@[simp] theorem applyUpsets_keeps (us s) (hz : Keeps z s) : Keeps z (applyUpsets us s) := by
  unfold applyUpsets; simp +contextual (maxDischargeDepth := 60) [hz]


/-! Measure -/

@[simp] theorem measureRx_keeps (n f bdp edges s) (hz : Keeps z s) : Keeps z (measureRx n f bdp edges s) := by
  unfold measureRx; simp +contextual (maxDischargeDepth := 60) [hz]

@[simp] theorem measureTx_keeps (n phase edges s) (hz : Keeps z s) : Keeps z (measureTx n phase edges s) := by
  unfold measureTx; simp +contextual (maxDischargeDepth := 60) [hz]

@[simp] theorem measureDelay_keeps (n d s) (hz : Keeps z s) : Keeps z (measureDelay n d s) := by simp [measureDelay, hz]


/-! RxBdp -/

@[simp] theorem identifySeen_keeps (n w0 s) (hz : Keeps z s) : Keeps z (identifySeen n w0 s) := by simp [identifySeen, hz]

@[simp] theorem probeSeen_keeps (n w0 s) (hz : Keeps z s) : Keeps z (probeSeen n w0 s) := by simp (maxDischargeDepth := 9) [probeSeen, hz]

@[simp] theorem claimFrame_keeps (n kind sender claim s) (hz : Keeps z s) : Keeps z (claimFrame n kind sender claim s) := by simp (maxDischargeDepth := 9) [claimFrame, hz]

@[simp] theorem bdpAct_keeps (n kind aux sender stamp w0 w1 s) (hz : Keeps z s) : Keeps z (bdpAct n kind aux sender stamp w0 w1 s) := by
  unfold bdpAct; simp +contextual (maxDischargeDepth := 60) [hz]

@[simp] theorem bdpReceived_keeps (n stamp ident data s) (hz : Keeps z s) : Keeps z (bdpReceived n stamp ident data s) := by simp (maxDischargeDepth := 9) [bdpReceived, hz]

@[simp] theorem reducedValid_keeps (n stamp f s) (hz : Keeps z s) : Keeps z (reducedValid n stamp f s) := by simp (maxDischargeDepth := 9) [reducedValid, hz]


/-! Image -/

@[simp] theorem onSection_keeps (img : List Byte) (kind inst : Nat) (f : Nat → State → State) (s : State)
    (hz : Keeps z s) (hf : ∀ o s, Keeps z s → Keeps z (f o s)) : Keeps z (onSection img kind inst f s) := by
  have h1 : ∀ x : Option Nat, Keeps z (withOffset f x s) := by
    intro x; cases x with
    | none => exact hz
    | some o => exact hf o s hz
  exact h1 _

@[simp] theorem imageTrx_keeps (img off n s) (hz : Keeps z s) : Keeps z (imageTrx img off n s) := by
  unfold imageTrx; (repeat' split) <;> simp [hz]

@[simp] theorem imageSettings_keeps (img off n s) (hz : Keeps z s) : Keeps z (imageSettings img off n s) := by simp (maxDischargeDepth := 9) [imageSettings, hz]

@[simp] theorem imageBegin_keeps (img off n s) (hz : Keeps z s) : Keeps z (imageBegin img off n s) := by simp (maxDischargeDepth := 9) [imageBegin, hz]

@[simp] theorem imageChan_keeps (img n s) (hz : Keeps z s) : Keeps z (imageChan img n s) := by
  unfold imageChan; simp +contextual (maxDischargeDepth := 60) [hz]

@[simp] theorem takeCommit_keeps (j n s) (hz : Keeps z s) : Keeps z (takeCommit j n s) := by simp (maxDischargeDepth := 9) [takeCommit, hz]

@[simp] theorem takeSettings_keeps (n s) (hz : Keeps z s) : Keeps z (takeSettings n s) := by
  unfold takeSettings; dsimp only; (repeat' split) <;> simp (maxDischargeDepth := 60) [hz]

@[simp] theorem wireFree_keeps (n k s) (hz : Keeps z s) : Keeps z (wireFree n k s) := by simp (maxDischargeDepth := 9) [wireFree, hz]


/-! Rx -/

@[simp] theorem modRx_keeps (n g s) (hz : Keeps z s) : Keeps z (modRx n g s) := by simp [modRx, hz]

@[simp] theorem rxOpen_keeps (n own stamp s) (hz : Keeps z s) : Keeps z (rxOpen n own stamp s) := by simp [rxOpen, hz]

@[simp] theorem rxSof_keeps (n s) (hz : Keeps z s) : Keeps z (rxSof n s) := by simp [rxSof, hz]

theorem addRouteCopy_keeps {z : State} (n r element : Nat) (x : RxFrame) (f : Frame) (b : Build) (hz : Keeps z b.st) :
    Keeps z (addRouteCopy n r element x f b).st := by
  unfold addRouteCopy
  dsimp only
  split
  · exact takeToken_keeps _ _ hz
  · split
    · exact hz
    · exact routeDrop_keeps _ _ _ _ hz

theorem addDest_keeps (n : Nat) (x : RxFrame) (f : Frame) (b : Build) (d : Dest × Nat) (hz : Keeps z b.st) :
    Keeps z (addDest n x f b d).st := by
  unfold addDest
  split
  · split <;> exact hz
  · exact addRouteCopy_keeps _ _ _ _ _ _ hz
  · unfold addBind; dsimp only; (repeat' split) <;> simp [hz]
  · exact hz
theorem addDests_keeps (n : Nat) (x : RxFrame) (f : Frame) (l : List (Dest × Nat)) : ∀ (b : Build), Keeps z b.st →
    Keeps z (l.foldl (addDest n x f) b).st := by
  induction l with
  | nil => intro b h; exact h
  | cons d t ih => intro b h; exact ih _ (addDest_keeps _ _ _ _ _ h)

@[simp] theorem placeFrame_keeps (n : Nat) (x : RxFrame) (f : Frame) (w : Walk) (r : Resolution) (s : State)
    (hz : Keeps z s) : Keeps z (placeFrame n x f w r s) := by
  unfold placeFrame
  exact modRx_keeps _ _ _ (addDests_keeps _ _ _ _ _ (keeps_ite (by simp +contextual (maxDischargeDepth := 60) [hz]) hz))

@[simp] theorem handover_keeps (n half ide ident rtr s) (hz : Keeps z s) : Keeps z (handover n half ide ident rtr s) := by simp (maxDischargeDepth := 9) [handover, hz]

@[simp] theorem handovers_keeps (n x f s) (hz : Keeps z s) : Keeps z (handovers n x f s) := by simp (maxDischargeDepth := 9) [handovers, hz]

@[simp] theorem verdictOf_keeps (n x f s) (hz : Keeps z s) : Keeps z (verdictOf n x f s) := by simp (maxDischargeDepth := 9) [verdictOf, hz]

@[simp] theorem protocolException_keeps (n s) (hz : Keeps z s) : Keeps z (protocolException n s) := by simp (maxDischargeDepth := 9) [protocolException, hz]

@[simp] theorem rxVerdict_keeps (n x f s) (hz : Keeps z s) : Keeps z (rxVerdict n x f s) := by simp (maxDischargeDepth := 9) [rxVerdict, hz]

@[simp] theorem rxKnown_keeps (n x f s) (hz : Keeps z s) : Keeps z (rxKnown n x f s) := by simp (maxDischargeDepth := 9) [rxKnown, hz]

@[simp] theorem rxHeader_keeps (n f ups s) (hz : Keeps z s) : Keeps z (rxHeader n f ups s) := by
  unfold rxHeader; dsimp only; (repeat' split) <;> simp (maxDischargeDepth := 60) [hz]

@[simp] theorem rxCrc_keeps (n fault s) (hz : Keeps z s) : Keeps z (rxCrc n fault s) := by
  unfold rxCrc; dsimp only; (repeat' split) <;> simp (maxDischargeDepth := 60) [hz]

@[simp] theorem extendCut_keeps (q c0 cell s) (hz : Keeps z s) : Keeps z (extendCut q c0 cell s) := by simp [extendCut, hz]

@[simp] theorem writeNext_keeps (n x pick s) (hz : Keeps z s) : Keeps z (writeNext n x pick s).1 := by
  unfold writeNext; dsimp only; (repeat' split) <;> simp (maxDischargeDepth := 60) [hz]

@[simp] theorem rxFail_keeps (n x s) (hz : Keeps z s) : Keeps z (rxFail n x s) := by simp (maxDischargeDepth := 9) [rxFail, hz]

@[simp] theorem integrateAgain_keeps (n s) (hz : Keeps z s) : Keeps z (integrateAgain n s) := by simp [integrateAgain, hz]

@[simp] theorem countVerdict_keeps (n v s) (hz : Keeps z s) : Keeps z (countVerdict n v s) := by
  unfold countVerdict; (repeat' split) <;> simp [hz]

@[simp] theorem rxCheck_keeps (n x f s) (hz : Keeps z s) : Keeps z (rxCheck n x f s).1 := by
  unfold rxCheck; try dsimp only
  first
  | (simp +contextual (maxDischargeDepth := 60) [hz]; done)
  | (repeat' split) <;> simp +contextual (maxDischargeDepth := 60) [hz]

@[simp] theorem rxStage_keeps (n x s) (hz : Keeps z s) : Keeps z (rxStage n x s) := by simp (maxDischargeDepth := 9) [rxStage, hz]

@[simp] theorem ownedSeen_keeps (n x f s) (hz : Keeps z s) : Keeps z (ownedSeen n x f s) := by simp [ownedSeen, hz]

@[simp] theorem cutValid_keeps (x s) (hz : Keeps z s) : Keeps z (cutValid x s) := by
  unfold cutValid; (repeat' split) <;> simp [hz]

@[simp] theorem rxMeasure_keeps (n x edges s) (hz : Keeps z s) : Keeps z (rxMeasure n x edges s) := by
  unfold rxMeasure; (repeat' split) <;> simp [hz]

@[simp] theorem rxServed_keeps (n x f edges s) (hz : Keeps z s) : Keeps z (rxServed n x f edges s) := by
  unfold rxServed; simp +contextual (maxDischargeDepth := 60) [hz]

@[simp] theorem rxValid_keeps (n x f edges s) (hz : Keeps z s) : Keeps z (rxValid n x f edges s) := by
  unfold rxValid; simp +contextual (maxDischargeDepth := 60) [hz]

@[simp] theorem rxParity_keeps (n s) (hz : Keeps z s) : Keeps z (rxParity n s) := by simp [rxParity, hz]

@[simp] theorem rxErrorEnd_keeps (n x e s) (hz : Keeps z s) : Keeps z (rxErrorEnd n x e s) := by simp (maxDischargeDepth := 9) [rxErrorEnd, hz]

@[simp] theorem rxEnd_keeps (n e edges s) (hz : Keeps z s) : Keeps z (rxEnd n e edges s) := by
  unfold rxEnd; dsimp only; (repeat' split) <;> simp (maxDischargeDepth := 60) [hz]

@[simp] theorem rxPart_keeps (n p s) (hz : Keeps z s) : Keeps z (rxPart n p s) := by
  unfold rxPart; try dsimp only
  first
  | (simp +contextual (maxDischargeDepth := 60) [hz]; done)
  | (repeat' split) <;> simp +contextual (maxDischargeDepth := 60) [hz]

theorem execRxFrame_keeps (ch waited p s t) (e : execRxFrame ch waited p s = .next t) : Keeps s t := by
  have hz := Keeps.refl s
  rw [← Host.Outcome.next.inj e]
  simp (maxDischargeDepth := 9) [hz]

@[simp] theorem dropWriting_keeps (n s) (hz : Keeps z s) : Keeps z (dropWriting n s) := by
  unfold dropWriting; (repeat' split) <;> simp [hz]

@[simp] theorem cutTidy_keeps (s) (hz : Keeps z s) : Keeps z (cutTidy s) := by simp [cutTidy, hz]

@[simp] theorem cellWrite_keeps (n pick s) (hz : Keeps z s) : Keeps z (cellWrite n pick s) := by
  unfold cellWrite; dsimp only; (repeat' split) <;> simp (maxDischargeDepth := 60) [hz]

theorem execStagedCellWrite_keeps (ch pick fault s t) (e : execStagedCellWrite ch pick fault s = .next t) : Keeps s t := by
  have hz := Keeps.refl s
  rw [← Host.Outcome.next.inj e]
  (repeat' split) <;> simp [hz]

@[simp] theorem commitChain_keeps (x seq s c) (hz : Keeps z s) : Keeps z (commitChain x seq s c) := by simp (maxDischargeDepth := 9) [commitChain, hz]

@[simp] theorem bindFrame_keeps (n c w0 data pass s) (hz : Keeps z s) : Keeps z (bindFrame n c w0 data pass s) := by simp [bindFrame, hz]

@[simp] theorem commitFrame_keeps (n x s) (hz : Keeps z s) : Keeps z (commitFrame n x s) := by
  unfold commitFrame; try dsimp only
  first
  | (simp +contextual (maxDischargeDepth := 60) [hz]; done)
  | (repeat' split) <;> simp +contextual (maxDischargeDepth := 60) [hz]

theorem execRxCommit_keeps (ch fault s t) (e : execRxCommit ch fault s = .next t) : Keeps s t := by
  have hz := Keeps.refl s
  rw [← Host.Outcome.next.inj e]
  dsimp only; (repeat' split) <;> simp (maxDischargeDepth := 60) [hz]


/-! Transmit -/

@[simp] theorem itemIn_keeps (r : Nat) (lo hi : Word) (k : List Byte → State → State) (s : State) (hz : Keeps z s)
    (hk : ∀ l s, Keeps z s → Keeps z (k l s)) : Keeps z (itemIn r lo hi k s) := by
  unfold itemIn
  repeat' apply keeps_ite
  all_goals first | exact hk _ _ hz | simp +contextual (maxDischargeDepth := 60) [hz]

@[simp] theorem submitData_keeps (r data s) (hz : Keeps z s) : Keeps z (submitData r data s) := by simp (maxDischargeDepth := 9) [submitData, hz]

@[simp] theorem txSubmitBody_keeps (r ws s) (hz : Keeps z s) : Keeps z (txSubmitBody r ws s) := by
  unfold txSubmitBody; simp +contextual (maxDischargeDepth := 60) [hz]

theorem execTxSubmit_keeps (r s t) (e : execTxSubmit r s = .next t) : Keeps s t := by
  have hz := Keeps.refl s
  rw [← Host.Outcome.next.inj e]
  simp +contextual (maxDischargeDepth := 60) [hz]

@[simp] theorem fillSub_keeps (pick : Nat) : ∀ (fuel : Nat) (b : Submission) (s : State), Keeps z s →
    Keeps z (fillSub pick fuel b s).1 := by
  intro fuel
  induction fuel with
  | zero => intro b s h; exact h
  | succ k ih =>
    intro b s h
    have hw := fun c => writeCell_keeps c (cellBytes b.words b.data b.cells.length) _
      (charge_keeps c b.queue _ (relinkLast_keeps b.cells s h))
    unfold fillSub
    dsimp only
    split
    · exact h
    · split
      · exact ih _ _ (hw _)
      · exact nextSeq_keeps _ (refuse_keeps _ _ _ h)

@[simp] theorem submitCells_keeps (r pick b s) (hz : Keeps z s) : Keeps z (submitCells r pick b s) := by simp (maxDischargeDepth := 9) [submitCells, hz]

theorem execHostItemCommit_keeps (r pick s t) (e : execHostItemCommit r pick s = .next t) : Keeps s t := by
  have hz := Keeps.refl s
  rw [← Host.Outcome.next.inj e]
  try dsimp only
  first
  | (simp +contextual (maxDischargeDepth := 60) [hz]; done)
  | (repeat' split) <;> simp +contextual (maxDischargeDepth := 60) [hz]

theorem execBpTimeout_keeps (r s t) (e : execBpTimeout r s = .next t) : Keeps s t := by
  have hz := Keeps.refl s
  rw [← Host.Outcome.next.inj e]
  dsimp only; (repeat' split) <;> simp (maxDischargeDepth := 60) [hz]

@[simp] theorem primeData_keeps (r data s) (hz : Keeps z s) : Keeps z (primeData r data s) := by simp (maxDischargeDepth := 9) [primeData, hz]

@[simp] theorem txPrimeBody_keeps (r ws s) (hz : Keeps z s) : Keeps z (txPrimeBody r ws s) := by
  unfold txPrimeBody; simp +contextual (maxDischargeDepth := 60) [hz]

theorem execTxPrime_keeps (r s t) (e : execTxPrime r s = .next t) : Keeps s t := by
  have hz := Keeps.refl s
  rw [← Host.Outcome.next.inj e]
  simp +contextual (maxDischargeDepth := 60) [hz]

@[simp] theorem cancelLatched_keeps (n r s) (hz : Keeps z s) : Keeps z (cancelLatched n r s) := by simp [cancelLatched, hz]

@[simp] theorem txCancelBody_keeps (r ws s) (hz : Keeps z s) : Keeps z (txCancelBody r ws s) := by
  unfold txCancelBody; dsimp only; (repeat' split) <;> simp (maxDischargeDepth := 60) [hz]

theorem execTxCancel_keeps (r s t) (e : execTxCancel r s = .next t) : Keeps s t := by
  have hz := Keeps.refl s
  rw [← Host.Outcome.next.inj e]
  simp +contextual (maxDischargeDepth := 60) [hz]

@[simp] theorem headFetch_keeps (n s) (hz : Keeps z s) : Keeps z (headFetch n s) := by
  unfold headFetch; dsimp only; (repeat' split) <;> simp (maxDischargeDepth := 60) [hz]

theorem execTxHeadFetch_keeps (ch fault s t) (e : execTxHeadFetch ch fault s = .next t) : Keeps s t := by
  have hz := Keeps.refl s
  rw [← Host.Outcome.next.inj e]
  (repeat' split) <;> simp [hz]

@[simp] theorem takeLoaded_keeps (n src s) (hz : Keeps z s) : Keeps z (takeLoaded n src s).1 := by
  unfold takeLoaded; dsimp only; (repeat' split) <;> simp (maxDischargeDepth := 60) [hz]

@[simp] theorem txLatch_keeps (n joined s) (hz : Keeps z s) : Keeps z (txLatch n joined s) := by
  unfold txLatch; dsimp only; (repeat' split) <;> simp (maxDischargeDepth := 60) [hz]

@[simp] theorem txDeadline_keeps (n s) (hz : Keeps z s) : Keeps z (txDeadline n s) := by
  unfold txDeadline; dsimp only; (repeat' split) <;> simp (maxDischargeDepth := 60) [hz]

@[simp] theorem measureLoop_keeps (n fd delay s) (hz : Keeps z s) : Keeps z (measureLoop n fd delay s) := by simp (maxDischargeDepth := 9) [measureLoop, hz]

@[simp] theorem fixPayload_keeps (n delay fault l s) (hz : Keeps z s) : Keeps z (fixPayload n delay fault l s) := by
  unfold fixPayload; dsimp only; (repeat' split) <;> simp (maxDischargeDepth := 60) [hz]

@[simp] theorem txHeader_keeps (n delay fault s) (hz : Keeps z s) : Keeps z (txHeader n delay fault s) := by
  unfold txHeader; try dsimp only
  first
  | (simp +contextual (maxDischargeDepth := 60) [hz]; done)
  | (repeat' split) <;> simp +contextual (maxDischargeDepth := 60) [hz]

@[simp] theorem txDataEnd_keeps (n s) (hz : Keeps z s) : Keeps z (txDataEnd n s) := by simp [txDataEnd, hz]

@[simp] theorem bdpSent_keeps (n c0 stamp s) (hz : Keeps z s) : Keeps z (bdpSent n c0 stamp s) := by
  unfold bdpSent; dsimp only; (repeat' split) <;> simp (maxDischargeDepth := 60) [hz]

@[simp] theorem loopBack_keeps (n stamp f s) (hz : Keeps z s) : Keeps z (loopBack n stamp f s) := by simp (maxDischargeDepth := 9) [loopBack, hz]

@[simp] theorem txSent_keeps (n l edges s) (hz : Keeps z s) : Keeps z (txSent n l edges s) := by
  unfold txSent; dsimp only; (repeat' split) <;> simp (maxDischargeDepth := 60) [hz]

@[simp] theorem txFailed_keeps (n l tec dup e s) (hz : Keeps z s) : Keeps z (txFailed n l tec dup e s) := by simp (maxDischargeDepth := 9) [txFailed, hz]

@[simp] theorem sendAbort_keeps (n l s) (hz : Keeps z s) : Keeps z (sendAbort n l s) := by simp (maxDischargeDepth := 9) [sendAbort, hz]

@[simp] theorem noteUnderrun_keeps (n l s) (hz : Keeps z s) : Keeps z (noteUnderrun n l s) := by simp [noteUnderrun, hz]

@[simp] theorem txCutAbort_keeps (n l s) (hz : Keeps z s) : Keeps z (txCutAbort n l s) := by simp (maxDischargeDepth := 9) [txCutAbort, hz]

@[simp] theorem cutAfter_keeps (n l cells s) (hz : Keeps z s) : Keeps z (cutAfter n l cells s) := by simp [cutAfter, hz]

@[simp] theorem txOver_keeps (n l e edges s) (hz : Keeps z s) : Keeps z (txOver n l e edges s) := by
  unfold txOver; (repeat' split) <;> simp [hz]

@[simp] theorem txEnd_keeps (n e edges s) (hz : Keeps z s) : Keeps z (txEnd n e edges s) := by
  unfold txEnd; dsimp only; (repeat' split) <;> simp (maxDischargeDepth := 60) [hz]

@[simp] theorem txPart_keeps (n p s) (hz : Keeps z s) : Keeps z (txPart n p s) := by
  unfold txPart; dsimp only; (repeat' split) <;> simp (maxDischargeDepth := 60) [hz]

theorem execTxAttempt_keeps (ch waited p s t) (e : execTxAttempt ch waited p s = .next t) : Keeps s t := by
  have hz := Keeps.refl s
  rw [← Host.Outcome.next.inj e]
  simp (maxDischargeDepth := 9) [hz]


/-! Tangent -/

@[simp] theorem ctxEvent_keeps (code c s) (hz : Keeps z s) : Keeps z (ctxEvent code c s) := by simp [ctxEvent, hz]

@[simp] theorem enableCtx_keeps (c mode k s) (hz : Keeps z s) : Keeps z (enableCtx c mode k s) := by simp [enableCtx, hz]

@[simp] theorem disableCtx_keeps (c discard ring s) (hz : Keeps z s) : Keeps z (disableCtx c discard ring s) := by simp (maxDischargeDepth := 9) [disableCtx, hz]

@[simp] theorem ctlRead_keeps (c op s) (hz : Keeps z s) : Keeps z (ctlRead c op s) := by simp [ctlRead, hz]

@[simp] theorem applyCtl_keeps (c op param k ring s) (hz : Keeps z s) : Keeps z (applyCtl c op param k ring s) := by
  unfold applyCtl; dsimp only; (repeat' split) <;> simp (maxDischargeDepth := 60) [hz]

@[simp] theorem applyHeld_keeps (c k s) (hz : Keeps z s) : Keeps z (applyHeld c k s) := by
  unfold applyHeld; simp +contextual (maxDischargeDepth := 60) [hz]

@[simp] theorem dxChange_keeps (c op param ring s) (hz : Keeps z s) : Keeps z (dxChange c op param ring s) := by
  unfold dxChange; (repeat' split) <;> simp [hz]

@[simp] theorem overrunRun_keeps (c s) (hz : Keeps z s) : Keeps z (overrunRun c s) := by simp (maxDischargeDepth := 9) [overrunRun, hz]

@[simp] theorem skipSample_keeps (c k s) (hz : Keeps z s) : Keeps z (skipSample c k s) := by simp (maxDischargeDepth := 9) [skipSample, hz]

@[simp] theorem ageUp_keeps (c s) (hz : Keeps z s) : Keeps z (ageUp c s) := by simp [ageUp, hz]

@[simp] theorem instantSeen_keeps (c k s) (hz : Keeps z s) : Keeps z (instantSeen c k s) := by
  unfold instantSeen; dsimp only; (repeat' split) <;> simp (maxDischargeDepth := 60) [hz]

theorem execTgInstant_keeps (c waited s t) (e : execTgInstant c waited s = .next t) : Keeps s t := by
  have hz := Keeps.refl s
  rw [← Host.Outcome.next.inj e]
  simp (maxDischargeDepth := 9) [hz]

@[simp] theorem keepRec_keeps (c r s) (hz : Keeps z s) : Keeps z (keepRec c r s) := by simp [keepRec, hz]

@[simp] theorem pendFrame_keeps (c index img s) (hz : Keeps z s) : Keeps z (pendFrame c index img s) := by
  unfold pendFrame; dsimp only; (repeat' split) <;> simp (maxDischargeDepth := 60) [hz]

@[simp] theorem evalEvents_keeps (c was stale sat s) (hz : Keeps z s) : Keeps z (evalEvents c was stale sat s) := by simp (maxDischargeDepth := 9) [evalEvents, hz]

@[simp] theorem emitFrame_keeps (c k rw f s) (hz : Keeps z s) : Keeps z (emitFrame c k rw f s) := by simp (maxDischargeDepth := 9) [emitFrame, hz]

@[simp] theorem correctCtx_keeps (c s) (hz : Keeps z s) : Keeps z (correctCtx c s) := by simp (maxDischargeDepth := 9) [correctCtx, hz]

@[simp] theorem evaluate_keeps (c k s) (hz : Keeps z s) : Keeps z (evaluate c k s) := by simp (maxDischargeDepth := 9) [evaluate, hz]

@[simp] theorem lagNote_keeps (t s) (hz : Keeps z s) : Keeps z (lagNote t s) := by simp [lagNote, hz]

@[simp] theorem evalTurn_keeps (c k t s) (hz : Keeps z s) : Keeps z (evalTurn c k t s) := by simp (maxDischargeDepth := 9) [evalTurn, hz]

theorem execTgEvaluation_keeps (s t) (e : execTgEvaluation s = .next t) : Keeps s t := by
  have hz := Keeps.refl s
  rw [← Host.Outcome.next.inj e]
  (repeat' split) <;> simp [hz]

@[simp] theorem frameLeft_keeps (c r0 s) (hz : Keeps z s) : Keeps z (frameLeft c r0 s) := by simp (maxDischargeDepth := 9) [frameLeft, hz]

@[simp] theorem emitOne_keeps (c f pick s) (hz : Keeps z s) : Keeps z (emitOne c f pick s) := by simp (maxDischargeDepth := 9) [emitOne, hz]

theorem execTgEmitCommit_keeps (pick s t) (e : execTgEmitCommit pick s = .next t) : Keeps s t := by
  have hz := Keeps.refl s
  rw [← Host.Outcome.next.inj e]
  refine keeps_ite hz ?_
  split
  · exact inSlot_keeps _ _ _ hz fun s hs => by split <;> simp [hs]
  · exact hz

@[simp] theorem spCheck_keeps (s) (hz : Keeps z s) : Keeps z (spCheck s) := by
  unfold spCheck; simp +contextual (maxDischargeDepth := 60) [hz]

@[simp] theorem spTarget_keeps (c data s) (hz : Keeps z s) : Keeps z (spTarget c data s) := by simp (maxDischargeDepth := 9) [spTarget, hz]

@[simp] theorem spRead_keeps (c s) (hz : Keeps z s) : Keeps z (spRead c s) := by
  unfold spRead; dsimp only; (repeat' split) <;> simp (maxDischargeDepth := 60) [hz]

theorem execSetpointItemRead_keeps (s t) (e : execSetpointItemRead s = .next t) : Keeps s t := by
  have hz := Keeps.refl s
  rw [← Host.Outcome.next.inj e]
  try dsimp only
  first
  | (simp +contextual (maxDischargeDepth := 60) [hz]; done)
  | (repeat' split) <;> simp +contextual (maxDischargeDepth := 60) [hz]

@[simp] theorem inLine_keeps (c s) (hz : Keeps z s) : Keeps z (inLine c s) := by simp (maxDischargeDepth := 9) [inLine, hz]

@[simp] theorem refAnswer_keeps (c index ok noRec skipped s) (hz : Keeps z s) : Keeps z (refAnswer c index ok noRec skipped s) := by simp [refAnswer, hz]

@[simp] theorem replayFails_keeps (r s) (hz : Keeps z s) : Keeps z (replayFails r s) := by
  unfold replayFails; (repeat' split) <;> simp [hz]

@[simp] theorem replayDone_keeps (r s) (hz : Keeps z s) : Keeps z (replayDone r s) := by
  unfold replayDone; dsimp only; (repeat' split) <;> simp (maxDischargeDepth := 60) [hz]

theorem execTgReplay_keeps (s t) (e : execTgReplay s = .next t) : Keeps s t := by
  have hz := Keeps.refl s
  rw [← Host.Outcome.next.inj e]
  dsimp only; (repeat' split) <;> simp (maxDischargeDepth := 60) [hz]

@[simp] theorem configCtx_keeps (c w s) (hz : Keeps z s) : Keeps z (configCtx c w s) := by simp [configCtx, hz]

@[simp] theorem tgConfigData_keeps (r data s) (hz : Keeps z s) : Keeps z (tgConfigData r data s) := by simp (maxDischargeDepth := 9) [tgConfigData, hz]

@[simp] theorem tgConfigBody_keeps (r ws s) (hz : Keeps z s) : Keeps z (tgConfigBody r ws s) := by
  unfold tgConfigBody; simp +contextual (maxDischargeDepth := 60) [hz]

theorem execTgConfig_keeps (r s t) (e : execTgConfig r s = .next t) : Keeps s t := by
  have hz := Keeps.refl s
  rw [← Host.Outcome.next.inj e]
  simp +contextual (maxDischargeDepth := 60) [hz]

@[simp] theorem tgEnableBody_keeps (r ws s) (hz : Keeps z s) : Keeps z (tgEnableBody r ws s) := by simp [tgEnableBody, hz]

theorem execTgEnable_keeps (r s t) (e : execTgEnable r s = .next t) : Keeps s t := by
  have hz := Keeps.refl s
  rw [← Host.Outcome.next.inj e]
  simp +contextual (maxDischargeDepth := 60) [hz]

theorem execTgDisable_keeps (r s t) (e : execTgDisable r s = .next t) : Keeps s t := by
  have hz := Keeps.refl s
  rw [← Host.Outcome.next.inj e]
  simp +contextual (maxDischargeDepth := 60) [hz]

@[simp] theorem tgModeBody_keeps (r ws s) (hz : Keeps z s) : Keeps z (tgModeBody r ws s) := by simp [tgModeBody, hz]

theorem execTgMode_keeps (r s t) (e : execTgMode r s = .next t) : Keeps s t := by
  have hz := Keeps.refl s
  rw [← Host.Outcome.next.inj e]
  simp +contextual (maxDischargeDepth := 60) [hz]

@[simp] theorem tgSetpointBody_keeps (r ws s) (hz : Keeps z s) : Keeps z (tgSetpointBody r ws s) := by simp (maxDischargeDepth := 9) [tgSetpointBody, hz]

theorem execTgSetpoint_keeps (r s t) (e : execTgSetpoint r s = .next t) : Keeps s t := by
  have hz := Keeps.refl s
  rw [← Host.Outcome.next.inj e]
  simp +contextual (maxDischargeDepth := 60) [hz]

@[simp] theorem tgReadBody_keeps (r ws s) (hz : Keeps z s) : Keeps z (tgReadBody r ws s) := by
  unfold tgReadBody; dsimp only; (repeat' split) <;> simp (maxDischargeDepth := 60) [hz]

theorem execTgRead_keeps (r s t) (e : execTgRead r s = .next t) : Keeps s t := by
  have hz := Keeps.refl s
  rw [← Host.Outcome.next.inj e]
  simp +contextual (maxDischargeDepth := 60) [hz]


/-! Duplex -/

theorem execLinkHbSend_keeps (s t) (e : execLinkHbSend s = .next t) : Keeps s t := by
  have hz := Keeps.refl s
  rw [← Host.Outcome.next.inj e]
  simp (maxDischargeDepth := 9) [hz]

@[simp] theorem chunkSent_keeps (number s) (hz : Keeps z s) : Keeps z (chunkSent number s) := by
  unfold chunkSent; simp +contextual (maxDischargeDepth := 60) [hz]

theorem execLinkPacketEnd_keeps (s t) (e : execLinkPacketEnd s = .next t) : Keeps s t := by
  have hz := Keeps.refl s
  rw [← Host.Outcome.next.inj e]
  dsimp only; (repeat' split) <;> simp (maxDischargeDepth := 60) [hz]

theorem execLaneAligned_keeps (lane s t) (e : execLaneAligned lane s = .next t) : Keeps s t := by
  have hz := Keeps.refl s
  rw [← Host.Outcome.next.inj e]
  simp [hz]

theorem execLaneAlignLoss_keeps (lane s t) (e : execLaneAlignLoss lane s = .next t) : Keeps s t := by
  have hz := Keeps.refl s
  rw [← Host.Outcome.next.inj e]
  simp (maxDischargeDepth := 9) [hz]

theorem execLinkHbTimeout_keeps (s t) (e : execLinkHbTimeout s = .next t) : Keeps s t := by
  have hz := Keeps.refl s
  rw [← Host.Outcome.next.inj e]
  simp [hz]

@[simp] theorem packetIn_keeps (kind : Nat) (ws : List Word) (p : LinkFrame) (f : State → State) (s : State) (hz : Keeps z s)
    (hf : ∀ s, Keeps z s → Keeps z (f s)) : Keeps z (packetIn kind ws p f s) := by
  unfold packetIn
  refine keeps_ite hz (keeps_ite (State.modDx_keeps _ hz) (keeps_ite ?_ hz))
  exact noteReasons_keeps _ _ (hf _ hz)

@[simp] theorem hbSeen_keeps (w0 s) (hz : Keeps z s) : Keeps z (hbSeen w0 s) := by simp (maxDischargeDepth := 9) [hbSeen, hz]

theorem execHbPacket_keeps (p w0 w1 s t) (e : execHbPacket p w0 w1 s = .next t) : Keeps s t := by
  have hz := Keeps.refl s
  rw [← Host.Outcome.next.inj e]
  try dsimp only
  first
  | (simp +contextual (maxDischargeDepth := 60) [hz]; done)
  | (repeat' split) <;> simp +contextual (maxDischargeDepth := 60) [hz]

theorem execNoticePacket_keeps (p w0 s t) (e : execNoticePacket p w0 s = .next t) : Keeps s t := by
  have hz := Keeps.refl s
  rw [← Host.Outcome.next.inj e]
  try dsimp only
  first
  | (simp +contextual (maxDischargeDepth := 60) [hz]; done)
  | (repeat' split) <;> simp +contextual (maxDischargeDepth := 60) [hz]

theorem execVerdictPacket_keeps (p w0 s t) (e : execVerdictPacket p w0 s = .next t) : Keeps s t := by
  rw [← Host.Outcome.next.inj e]
  exact packetIn_keeps _ _ _ _ _ (Keeps.refl s) fun s hs =>
    keeps_ite (vxAssert_keeps _ _ _ (demote_keeps _ _ _ _ (State.modDx_keeps _ hs))) (State.modDx_keeps _ hs)

@[simp] theorem refRequest_keeps (words s) (hz : Keeps z s) : Keeps z (refRequest words s) := by
  unfold refRequest; dsimp only; (repeat' split) <;> simp (maxDischargeDepth := 60) [hz]

theorem execRefReqPacket_keeps (p words s t) (e : execRefReqPacket p words s = .next t) : Keeps s t := by
  have hz := Keeps.refl s
  rw [← Host.Outcome.next.inj e]
  try dsimp only
  first
  | (simp +contextual (maxDischargeDepth := 60) [hz]; done)
  | (repeat' split) <;> simp +contextual (maxDischargeDepth := 60) [hz]

theorem execRefAnsPacket_keeps (p : LinkFrame) (w0 w1 : Word) (s : State) (t : State) (e : execRefAnsPacket p w0 w1 s = .next t) : Keeps s t := by
  unfold execRefAnsPacket at e
  rw [← Host.Outcome.next.inj e]
  refine packetIn_keeps _ _ _ _ _ (Keeps.refl s) ?_
  intro s hz
  (repeat' split) <;> first | exact hz | simp +contextual (maxDischargeDepth := 60) [hz]

theorem execCtlPacket_keeps (p words s t) (e : execCtlPacket p words s = .next t) : Keeps s t := by
  have hz := Keeps.refl s
  rw [← Host.Outcome.next.inj e]
  try dsimp only
  first
  | (simp +contextual (maxDischargeDepth := 60) [hz]; done)
  | (repeat' split) <;> simp +contextual (maxDischargeDepth := 60) [hz]

theorem execResyncPacket_keeps (p w0 s t) (e : execResyncPacket p w0 s = .next t) : Keeps s t := by
  have hz := Keeps.refl s
  rw [← Host.Outcome.next.inj e]
  try dsimp only
  first
  | (simp +contextual (maxDischargeDepth := 60) [hz]; done)
  | (repeat' split) <;> simp +contextual (maxDischargeDepth := 60) [hz]

theorem execRecPacket_keeps (p words after s t) (e : execRecPacket p words s after = .next t) : Keeps s t := by
  have hz := Keeps.refl s
  rw [← Host.Outcome.next.inj e]
  try dsimp only
  first
  | (simp +contextual (maxDischargeDepth := 60) [hz]; done)
  | (repeat' split) <;> simp +contextual (maxDischargeDepth := 60) [hz]

theorem execHeartbeatInterval_keeps (s t) (e : execHeartbeatInterval s = .next t) : Keeps s t := by
  have hz := Keeps.refl s
  rw [← Host.Outcome.next.inj e]
  simp +contextual (maxDischargeDepth := 60) [hz]

theorem execClaimInterval_keeps (s t) (e : execClaimInterval s = .next t) : Keeps s t := by
  have hz := Keeps.refl s
  rw [← Host.Outcome.next.inj e]
  simp [hz]

theorem execPairingTimeout_keeps (s t) (e : execPairingTimeout s = .next t) : Keeps s t := by
  have hz := Keeps.refl s
  rw [← Host.Outcome.next.inj e]
  simp (maxDischargeDepth := 9) [hz]

theorem execBusHbTimeout_keeps (s t) (e : execBusHbTimeout s = .next t) : Keeps s t := by
  have hz := Keeps.refl s
  rw [← Host.Outcome.next.inj e]
  simp (maxDischargeDepth := 9) [hz]

theorem execCmpMissingTimeout_keeps (c s t) (e : execCmpMissingTimeout c s = .next t) : Keeps s t := by
  have hz := Keeps.refl s
  rw [← Host.Outcome.next.inj e]
  (repeat' split) <;> simp [hz]

theorem execRefereeTimeout_keeps (s t) (e : execRefereeTimeout s = .next t) : Keeps s t := by
  have hz := Keeps.refl s
  rw [← Host.Outcome.next.inj e]
  (repeat' split) <;> simp [hz]

theorem execResyncEpochLimit_keeps (s t) (e : execResyncEpochLimit s = .next t) : Keeps s t := by
  have hz := Keeps.refl s
  rw [← Host.Outcome.next.inj e]
  simp [hz]

@[simp] theorem captureReads_keeps (s) (hz : Keeps z s) : Keeps z (captureReads s) := by
  unfold captureReads; simp +contextual (maxDischargeDepth := 60) [hz]

@[simp] theorem sendSnapshot_keeps (app s) (hz : Keeps z s) : Keeps z (sendSnapshot app s) := by
  unfold sendSnapshot; simp +contextual (maxDischargeDepth := 60) [hz]

theorem execEpochBoundary_keeps (waited app s t) (e : execEpochBoundary waited app s = .next t) : Keeps s t := by
  have hz := Keeps.refl s
  rw [← Host.Outcome.next.inj e]
  (repeat' split) <;> simp [hz]

@[simp] theorem lostFrom_keeps (number s) (hz : Keeps z s) : Keeps z (lostFrom number s) := by simp [lostFrom, hz]

@[simp] theorem chunkLost_keeps (number s) (hz : Keeps z s) : Keeps z (chunkLost number s) := by
  unfold chunkLost; (repeat' split) <;> simp [hz]

@[simp] theorem chunkSeen_keeps (number index data s) (hz : Keeps z s) : Keeps z (chunkSeen number index data s) := by
  unfold chunkSeen; (repeat' split) <;> simp [hz]

theorem execChunkPacket_keeps (p words s t) (e : execChunkPacket p words s = .next t) : Keeps s t := by
  have hz := Keeps.refl s
  rw [← Host.Outcome.next.inj e]
  try dsimp only
  first
  | (simp +contextual (maxDischargeDepth := 60) [hz]; done)
  | (repeat' split) <;> simp +contextual (maxDischargeDepth := 60) [hz]

@[simp] theorem compareCtl_keeps (snap s) (hz : Keeps z s) : Keeps z (compareCtl snap s) := by
  unfold compareCtl; simp +contextual (maxDischargeDepth := 60) [hz]

@[simp] theorem loadCtx_keeps (snap c s) (hz : Keeps z s) : Keeps z (loadCtx snap c s) := by simp [loadCtx, hz]

@[simp] theorem loadUnit_keeps (snap u s) (hz : Keeps z s) : Keeps z (loadUnit snap u s) := by simp [loadUnit, hz]

@[simp] theorem loadFull_keeps (snap s) (hz : Keeps z s) : Keeps z (loadFull snap s) := by
  unfold loadFull; simp +contextual (maxDischargeDepth := 60) [hz]

@[simp] theorem useEpoch_keeps (snap s) (hz : Keeps z s) : Keeps z (useEpoch snap s) := by simp (maxDischargeDepth := 9) [useEpoch, hz]

@[simp] theorem commitSeen'_keeps (number len crc s) (hz : Keeps z s) : Keeps z (commitSeen' number len crc s) := by
  unfold commitSeen'; dsimp only; (repeat' split) <;> simp (maxDischargeDepth := 60) [hz]

theorem execCommitPacket_keeps (p w0 w1 w2 s t) (e : execCommitPacket p w0 w1 w2 s = .next t) : Keeps s t := by
  have hz := Keeps.refl s
  rw [← Host.Outcome.next.inj e]
  try dsimp only
  first
  | (simp +contextual (maxDischargeDepth := 60) [hz]; done)
  | (repeat' split) <;> simp +contextual (maxDischargeDepth := 60) [hz]

@[simp] theorem sendSwap_keeps (phase t s) (hz : Keeps z s) : Keeps z (sendSwap phase t s) := by simp [sendSwap, hz]

theorem execSwapPrepPacket_keeps (p lo hi s t) (e : execSwapPrepPacket p lo hi s = .next t) : Keeps s t := by
  have hz := Keeps.refl s
  rw [← Host.Outcome.next.inj e]
  try dsimp only
  first
  | (simp +contextual (maxDischargeDepth := 60) [hz]; done)
  | (repeat' split) <;> simp +contextual (maxDischargeDepth := 60) [hz]

theorem execSwapAckPacket_keeps (p : LinkFrame) (lo hi : Word) (s : State) (t : State) (e : execSwapAckPacket p lo hi s = .next t) : Keeps s t := by
  unfold execSwapAckPacket at e
  rw [← Host.Outcome.next.inj e]
  refine packetIn_keeps _ _ _ _ _ (Keeps.refl s) ?_
  intro s hz
  (repeat' split) <;> first | exact hz | simp +contextual (maxDischargeDepth := 60) [hz]

@[simp] theorem swapAbandoned_keeps (w st s) (hz : Keeps z s) : Keeps z (swapAbandoned w st s) := by
  unfold swapAbandoned; (repeat' split) <;> simp [hz]

theorem execSwapRefusePacket_keeps (p : LinkFrame) (lo hi : Word) (s : State) (t : State) (e : execSwapRefusePacket p lo hi s = .next t) : Keeps s t := by
  unfold execSwapRefusePacket at e
  rw [← Host.Outcome.next.inj e]
  refine packetIn_keeps _ _ _ _ _ (Keeps.refl s) ?_
  intro s hz
  (repeat' split) <;> first | exact hz | simp +contextual (maxDischargeDepth := 60) [hz]

theorem execSwapAckTimeout_keeps (s t) (e : execSwapAckTimeout s = .next t) : Keeps s t := by
  have hz := Keeps.refl s
  rw [← Host.Outcome.next.inj e]
  (repeat' split) <;> simp [hz]

@[simp] theorem swapNow_keeps (w s) (hz : Keeps z s) : Keeps z (swapNow w s) := by
  unfold swapNow; dsimp only; (repeat' split) <;> simp (maxDischargeDepth := 60) [hz]

theorem execSwapInstant_keeps (waited s t) (e : execSwapInstant waited s = .next t) : Keeps s t := by
  have hz := Keeps.refl s
  rw [← Host.Outcome.next.inj e]
  try dsimp only
  first
  | (simp +contextual (maxDischargeDepth := 60) [hz]; done)
  | (repeat' split) <;> simp +contextual (maxDischargeDepth := 60) [hz]

theorem execSwapClaimTimeout_keeps (s t) (e : execSwapClaimTimeout s = .next t) : Keeps s t := by
  have hz := Keeps.refl s
  rw [← Host.Outcome.next.inj e]
  (repeat' split) <;> simp [hz]

@[simp] theorem startPairing_keeps (s) (hz : Keeps z s) : Keeps z (startPairing s) := by
  unfold startPairing; simp +contextual (maxDischargeDepth := 60) [hz]

@[simp] theorem unpair_keeps (s) (hz : Keeps z s) : Keeps z (unpair s) := by simp [unpair, hz]

@[simp] theorem setDx_keeps (w2 w3 w4 lo hi serial s) (hz : Keeps z s) : Keeps z (setDx w2 w3 w4 lo hi serial s) := by simp (maxDischargeDepth := 9) [setDx, hz]

@[simp] theorem dxConfigBody_keeps (r re ws s) (hz : Keeps z s) : Keeps z (dxConfigBody r re ws s) := by simp (maxDischargeDepth := 9) [dxConfigBody, hz]

theorem execDxConfig_keeps (r s t) (e : execDxConfig r s = .next t) : Keeps s t := by
  have hz := Keeps.refl s
  rw [← Host.Outcome.next.inj e]
  simp +contextual (maxDischargeDepth := 60) [hz]

theorem execDxReinit_keeps (r s t) (e : execDxReinit r s = .next t) : Keeps s t := by
  have hz := Keeps.refl s
  rw [← Host.Outcome.next.inj e]
  simp +contextual (maxDischargeDepth := 60) [hz]

@[simp] theorem dxSwapBody_keeps (r s) (hz : Keeps z s) : Keeps z (dxSwapBody r s) := by simp (maxDischargeDepth := 9) [dxSwapBody, hz]

theorem execDxSwap_keeps (r s t) (e : execDxSwap r s = .next t) : Keeps s t := by
  have hz := Keeps.refl s
  rw [← Host.Outcome.next.inj e]
  simp +contextual (maxDischargeDepth := 60) [hz]

theorem execDxStatus_keeps (r s t) (e : execDxStatus r s = .next t) : Keeps s t := by
  have hz := Keeps.refl s
  rw [← Host.Outcome.next.inj e]
  simp +contextual (maxDischargeDepth := 60) [hz]

@[simp] theorem dxResyncBody_keeps (r s) (hz : Keeps z s) : Keeps z (dxResyncBody r s) := by simp (maxDischargeDepth := 9) [dxResyncBody, hz]

theorem execDxResync_keeps (r s t) (e : execDxResync r s = .next t) : Keeps s t := by
  have hz := Keeps.refl s
  rw [← Host.Outcome.next.inj e]
  simp +contextual (maxDischargeDepth := 60) [hz]


/-! Margin -/

@[simp] theorem noteOffsets_keeps (n s) (hz : Keeps z s) : Keeps z (noteOffsets n s) := by simp [noteOffsets, hz]

@[simp] theorem planItem_keeps (n item s) (hz : Keeps z s) : Keeps z (planItem n item s) := by
  unfold planItem; (repeat' split) <;> simp [hz]

@[simp] theorem applyStep_keeps (t s) (hz : Keeps z s) : Keeps z (applyStep t s) := by simp (maxDischargeDepth := 9) [applyStep, hz]

@[simp] theorem restorePlan_keeps (n s) (hz : Keeps z s) : Keeps z (restorePlan n s) := by
  unfold restorePlan; simp +contextual (maxDischargeDepth := 60) [hz]

@[simp] theorem applySteps_keeps (n s) (hz : Keeps z s) : Keeps z (applySteps n s) := by
  unfold applySteps; simp +contextual (maxDischargeDepth := 60) [hz]

theorem execMpStepApply_keeps (ch s t) (e : execMpStepApply ch s = .next t) : Keeps s t := by
  have hz := Keeps.refl s
  rw [← Host.Outcome.next.inj e]
  simp [hz]

@[simp] theorem takeSample_keeps (x s) (hz : Keeps z s) : Keeps z (takeSample x s) := by simp [takeSample, hz]

@[simp] theorem closeDelay_keeps (n s) (hz : Keeps z s) : Keeps z (closeDelay n s) := by simp [closeDelay, hz]

@[simp] theorem closeMargin_keeps (n s) (hz : Keeps z s) : Keeps z (closeMargin n s) := by simp [closeMargin, hz]

@[simp] theorem planGuard_keeps (s) (hz : Keeps z s) : Keeps z (planGuard s) := by simp (maxDischargeDepth := 9) [planGuard, hz]

@[simp] theorem recommend_keeps (n s) (hz : Keeps z s) : Keeps z (recommend n s) := by simp (maxDischargeDepth := 9) [recommend, hz]

@[simp] theorem mpAlarm_keeps (a s) (hz : Keeps z s) : Keeps z (mpAlarm a s) := by simp [mpAlarm, hz]

@[simp] theorem probe_keeps (n s) (hz : Keeps z s) : Keeps z (probe n s) := by
  unfold probe; dsimp only; (repeat' split) <;> simp (maxDischargeDepth := 60) [hz]

@[simp] theorem forChans_keeps (f : Nat → State → State) (s : State) (hz : Keeps z s)
    (hf : ∀ n s, Keeps z s → Keeps z (f n s)) : Keeps z (forChans f s) := by
  unfold forChans
  exact keeps_foldl _ _ _ hz fun s n hs => hf n s hs

@[simp] theorem cycleEnd_keeps (x s) (hz : Keeps z s) : Keeps z (cycleEnd x s) := by
  unfold cycleEnd; simp +contextual (maxDischargeDepth := 60) [hz]

@[simp] theorem plannerTurn_keeps (s) (hz : Keeps z s) : Keeps z (plannerTurn s) := by simp [plannerTurn, hz]

theorem execPlanningCycleEnd_keeps (x s t) (e : execPlanningCycleEnd x s = .next t) : Keeps s t := by
  have hz := Keeps.refl s
  rw [← Host.Outcome.next.inj e]
  simp [hz]

@[simp] theorem mpReportBody_keeps (r ws s) (hz : Keeps z s) : Keeps z (mpReportBody r ws s) := by simp (maxDischargeDepth := 9) [mpReportBody, hz]

theorem execMpReport_keeps (r s t) (e : execMpReport r s = .next t) : Keeps s t := by
  have hz := Keeps.refl s
  rw [← Host.Outcome.next.inj e]
  simp +contextual (maxDischargeDepth := 60) [hz]

@[simp] theorem mpFoldBody_keeps (r ws s) (hz : Keeps z s) : Keeps z (mpFoldBody r ws s) := by simp (maxDischargeDepth := 9) [mpFoldBody, hz]

theorem execMpFold_keeps (r s t) (e : execMpFold r s = .next t) : Keeps s t := by
  have hz := Keeps.refl s
  rw [← Host.Outcome.next.inj e]
  simp +contextual (maxDischargeDepth := 60) [hz]

@[simp] theorem mpRevertBody_keeps (r ws s) (hz : Keeps z s) : Keeps z (mpRevertBody r ws s) := by simp (maxDischargeDepth := 9) [mpRevertBody, hz]

theorem execMpRevert_keeps (r s t) (e : execMpRevert r s = .next t) : Keeps s t := by
  have hz := Keeps.refl s
  rw [← Host.Outcome.next.inj e]
  simp +contextual (maxDischargeDepth := 60) [hz]

@[simp] theorem mpNomSpBody_keeps (r ws s) (hz : Keeps z s) : Keeps z (mpNomSpBody r ws s) := by simp (maxDischargeDepth := 9) [mpNomSpBody, hz]

theorem execMpNomSp_keeps (r s t) (e : execMpNomSp r s = .next t) : Keeps s t := by
  have hz := Keeps.refl s
  rw [← Host.Outcome.next.inj e]
  simp +contextual (maxDischargeDepth := 60) [hz]


/-! Vertex -/

theorem execPllLockLoss_keeps (s t) (e : execPllLockLoss s = .next t) : Keeps s t := by
  have hz := Keeps.refl s
  rw [← Host.Outcome.next.inj e]
  simp [hz]

theorem execClockMonitorFault_keeps (clocks s t) (e : execClockMonitorFault clocks s = .next t) : Keeps s t := by
  have hz := Keeps.refl s
  rw [← Host.Outcome.next.inj e]
  simp [hz]

theorem execClockMonitorRecovered_keeps (s t) (e : execClockMonitorRecovered s = .next t) : Keeps s t := by
  have hz := Keeps.refl s
  rw [← Host.Outcome.next.inj e]
  simp [hz]

theorem execSupplyExcursion_keeps (supply high s t) (e : execSupplyExcursion supply high s = .next t) : Keeps s t := by
  have hz := Keeps.refl s
  rw [← Host.Outcome.next.inj e]
  simp [hz]

theorem execTemperatureAlarm_keeps (s t) (e : execTemperatureAlarm s = .next t) : Keeps s t := by
  have hz := Keeps.refl s
  rw [← Host.Outcome.next.inj e]
  simp [hz]

theorem execMonitorDeassert_keeps (k s t) (e : execMonitorDeassert k s = .next t) : Keeps s t := by
  have hz := Keeps.refl s
  rw [← Host.Outcome.next.inj e]
  simp [hz]

theorem execComplementMismatch_keeps (off s t) (e : execComplementMismatch off s = .next t) : Keeps s t := by
  have hz := Keeps.refl s
  rw [← Host.Outcome.next.inj e]
  simp (maxDischargeDepth := 9) [hz]

theorem execSafeStateComplete_keeps (s t) (e : execSafeStateComplete s = .next t) : Keeps s t := by
  have hz := Keeps.refl s
  rw [← Host.Outcome.next.inj e]
  simp [hz]

theorem execTagWindowEnd_keeps (s t) (e : execTagWindowEnd s = .next t) : Keeps s t := by
  have hz := Keeps.refl s
  rw [← Host.Outcome.next.inj e]
  simp [hz]

theorem execAliveToggle_keeps (s t) (e : execAliveToggle s = .next t) : Keeps s t := by
  have hz := Keeps.refl s
  rw [← Host.Outcome.next.inj e]
  simp [hz]

theorem execAliveTimeout_keeps (s t) (e : execAliveTimeout s = .next t) : Keeps s t := by
  have hz := Keeps.refl s
  rw [← Host.Outcome.next.inj e]
  simp [hz]

@[simp] theorem liftTarget_keeps (t s) (hz : Keeps z s) : Keeps z (liftTarget t s) := by
  unfold liftTarget; (repeat' split) <;> simp [hz]

@[simp] theorem clearBit_keeps (i s) (hz : Keeps z s) : Keeps z (clearBit i s) := by simp [clearBit, hz]

@[simp] theorem liftGone_keeps (was s) (hz : Keeps z s) : Keeps z (liftGone was s) := by
  unfold liftGone; simp +contextual (maxDischargeDepth := 60) [hz]

@[simp] theorem clearRecords_keeps (first conseq last3 s) (hz : Keeps z s) : Keeps z (clearRecords first conseq last3 s) := by
  have h1 := State.modVx_keeps (s := s) (fun v => if first && !bitOf64 v.stat v.fSource then
    { v with fValid := false, fSource := 0, fClass := 0, fInjected := false, fOverflow := false, fInfo := 0, fTime := 0 }
    else v) hz (by intro h; split <;> exact h)
  unfold clearRecords
  dsimp only
  generalize s.modVx _ = u at h1 ⊢
  simp (maxDischargeDepth := 9) [h1]

@[simp] theorem vxClearBody_keeps (r ws s) (hz : Keeps z s) : Keeps z (vxClearBody r ws s) := by
  unfold vxClearBody; simp +contextual (maxDischargeDepth := 60) [hz]

theorem execVxClear_keeps (r s t) (e : execVxClear r s = .next t) : Keeps s t := by
  have hz := Keeps.refl s
  rw [← Host.Outcome.next.inj e]
  simp +contextual (maxDischargeDepth := 60) [hz]

theorem execVxStatus_keeps (r s t) (e : execVxStatus r s = .next t) : Keeps s t := by
  have hz := Keeps.refl s
  rw [← Host.Outcome.next.inj e]
  simp +contextual (maxDischargeDepth := 60) [hz]

@[simp] theorem proofBody_keeps (r latency ws s) (hz : Keeps z s) : Keeps z (proofBody r latency ws s) := by
  unfold proofBody; dsimp only; (repeat' split) <;> simp (maxDischargeDepth := 60) [hz]

theorem execVxProofTest_keeps (r latency s t) (e : execVxProofTest r latency s = .next t) : Keeps s t := by
  have hz := Keeps.refl s
  rw [← Host.Outcome.next.inj e]
  simp +contextual (maxDischargeDepth := 60) [hz]

theorem execProofTestTimeout_keeps (s t) (e : execProofTestTimeout s = .next t) : Keeps s t := by
  have hz := Keeps.refl s
  rw [← Host.Outcome.next.inj e]
  try dsimp only
  first
  | (simp +contextual (maxDischargeDepth := 60) [hz]; done)
  | (repeat' split) <;> simp +contextual (maxDischargeDepth := 60) [hz]

@[simp] theorem factoryPath_keeps (path s) (hz : Keeps z s) : Keeps z (factoryPath path s) := by simp (maxDischargeDepth := 9) [factoryPath, hz]

@[simp] theorem factoryBody_keeps (r latency ws s) (hz : Keeps z s) : Keeps z (factoryBody r latency ws s) := by simp (maxDischargeDepth := 9) [factoryBody, hz]

theorem execVxFactoryTest_keeps (r latency s t) (e : execVxFactoryTest r latency s = .next t) : Keeps s t := by
  have hz := Keeps.refl s
  rw [← Host.Outcome.next.inj e]
  simp +contextual (maxDischargeDepth := 60) [hz]

@[simp] theorem vxClassesBody_keeps (r ws s) (hz : Keeps z s) : Keeps z (vxClassesBody r ws s) := by simp (maxDischargeDepth := 9) [vxClassesBody, hz]

theorem execVxClasses_keeps (r s t) (e : execVxClasses r s = .next t) : Keeps s t := by
  have hz := Keeps.refl s
  rw [← Host.Outcome.next.inj e]
  simp +contextual (maxDischargeDepth := 60) [hz]


/-! Registers -/

@[simp] theorem keyCfgWrite_keeps (v s) (hz : Keeps z s) : Keeps z (keyCfgWrite v s) := by simp [keyCfgWrite, hz]

@[simp] theorem bdpCfgWrite_keeps (v s) (hz : Keeps z s) : Keeps z (bdpCfgWrite v s) := by simp [bdpCfgWrite, hz]

@[simp] theorem glWrite_keeps (i o v s) (hz : Keeps z s) : Keeps z (glWrite i o v s) := by
  unfold glWrite; (repeat' split) <;> simp [hz]

@[simp] theorem msixWrite_keeps (k v s) (hz : Keeps z s) : Keeps z (msixWrite k v s) := by simp (maxDischargeDepth := 9) [msixWrite, hz]

@[simp] theorem crWrite_keeps (r o v s) (hz : Keeps z s) : Keeps z (crWrite r o v s) := by
  unfold crWrite; (repeat' split) <;> simp [hz]

@[simp] theorem cqRegWrite_keeps (k o v s) (hz : Keeps z s) : Keeps z (cqRegWrite k o v s) := by
  unfold cqRegWrite; (repeat' split) <;> simp [hz]

@[simp] theorem sqWrite_keeps (o v s) (hz : Keeps z s) : Keeps z (sqWrite o v s) := by
  unfold sqWrite; (repeat' split) <;> simp [hz]

@[simp] theorem pwWrite_keeps (o v s) (hz : Keeps z s) : Keeps z (pwWrite o v s) := by simp (maxDischargeDepth := 9) [pwWrite, hz]

@[simp] theorem ppsCfgWrite_keeps (v s) (hz : Keeps z s) : Keeps z (ppsCfgWrite v s) := by simp [ppsCfgWrite, hz]

@[simp] theorem tmWrite_keeps (o v s) (hz : Keeps z s) : Keeps z (tmWrite o v s) := by
  unfold tmWrite; (repeat' split) <;> simp [hz]

@[simp] theorem mpWrite_keeps (o v s) (hz : Keeps z s) : Keeps z (mpWrite o v s) := by
  unfold mpWrite; (repeat' split) <;> simp [hz]

@[simp] theorem ckWrite_keeps (u o v s) (hz : Keeps z s) : Keeps z (ckWrite u o v s) := by
  unfold ckWrite; (repeat' split) <;> simp [hz]

@[simp] theorem primeWrite_keeps (n b o v s) (hz : Keeps z s) : Keeps z (primeWrite n b o v s) := by simp (maxDischargeDepth := 9) [primeWrite, hz]

@[simp] theorem tdcSatWrite_keeps (n o v s) (hz : Keeps z s) : Keeps z (tdcSatWrite n o v s) := by simp [tdcSatWrite, hz]

@[simp] theorem chanWrite_keeps (n o v s) (hz : Keeps z s) : Keeps z (chanWrite n o v s) := by simp (maxDischargeDepth := 9) [chanWrite, hz]

@[simp] theorem latRead_keeps (off s) (hz : Keeps z s) : Keeps z (latRead off s) := by simp (maxDischargeDepth := 9) [latRead, hz]

@[simp] theorem ltWrite_keeps (o v s) (hz : Keeps z s) : Keeps z (ltWrite o v s) := by
  unfold ltWrite; (repeat' split) <;> simp [hz]

@[simp] theorem queueWrite_keeps (q o v s) (hz : Keeps z s) : Keeps z (queueWrite q o v s) := by
  unfold queueWrite; (repeat' split) <;> simp [hz]

@[simp] theorem windowWrite_keeps (q o v s) (hz : Keeps z s) : Keeps z (windowWrite q o v s) := by
  unfold windowWrite; (repeat' split) <;> simp [hz]

@[simp] theorem qmWrite_keeps (o v s) (hz : Keeps z s) : Keeps z (qmWrite o v s) := by
  unfold qmWrite; (repeat' split) <;> simp [hz]

@[simp] theorem cdWrite_keeps (o v s) (hz : Keeps z s) : Keeps z (cdWrite o v s) := by
  unfold cdWrite; (repeat' split) <;> simp [hz]

@[simp] theorem tgWrite_keeps (o v s) (hz : Keeps z s) : Keeps z (tgWrite o v s) := by
  unfold tgWrite; (repeat' split) <;> simp [hz]

@[simp] theorem readAt_keeps (i off s) (hz : Keeps z s) : Keeps z (readAt i off s).1 := by
  unfold readAt; (repeat' split) <;> simp [hz]

@[simp] theorem regRead_keeps (i off s) (hz : Keeps z s) : Keeps z (regRead i off s).1 := by
  unfold regRead; (repeat' split) <;> simp [hz]

@[simp] theorem writeAt_keeps (i off v s) (hz : Keeps z s) : Keeps z (writeAt i off v s) := by
  unfold writeAt
  exact keeps_ite hz (keeps_ite (glWrite_keeps _ _ _ _ hz) (keeps_ite (sqWrite_keeps _ _ _ hz) (keeps_ite
    (keeps_ite (State.modVx_keeps _ hz id) hz) (keeps_ite (pwWrite_keeps _ _ _ hz) (keeps_ite (tmWrite_keeps _ _ _ hz) (keeps_ite
    (mpWrite_keeps _ _ _ hz) (keeps_ite (ckWrite_keeps _ _ _ _ hz) (keeps_ite (chanWrite_keeps _ _ _ _ hz) (keeps_ite
    (ltWrite_keeps _ _ _ hz) (keeps_ite (qmWrite_keeps _ _ _ hz) (keeps_ite (cdWrite_keeps _ _ _ hz) (keeps_ite
    (tgWrite_keeps _ _ _ hz) hz))))))))))))

/-! Pins -/


/-! ImageLoad -/

@[simp] theorem afterChecks_keeps (bad : ImgFail → State) (good : State) (x : Option ImgFail) (hb : ∀ f, Keeps z (bad f))
    (hg : Keeps z good) : Keeps z (afterChecks bad good x) := by
  cases x with
  | none => exact hg
  | some f => exact hb f

theorem afterChecks_keeps2 (bad : ImgFail → Option ImgFail × State) (good : Option ImgFail × State)
    (x : Option ImgFail) (hb : ∀ f, Keeps z (bad f).2) (hg : Keeps z good.2) : Keeps z (afterChecks bad good x).2 := by
  cases x with
  | none => exact hg
  | some f => exact hb f

@[simp] theorem recordFail_keeps (f s) (hz : Keeps z s) : Keeps z (recordFail f s) := by simp [recordFail, hz]

@[simp] theorem putGlobal_keeps (img s) (hz : Keeps z s) : Keeps z (putGlobal img s) := by simp (maxDischargeDepth := 9) [putGlobal, hz]

@[simp] theorem putVertex_keeps (img s) (hz : Keeps z s) : Keeps z (putVertex img s) := by
  unfold putVertex; simp +contextual (maxDischargeDepth := 60) [hz]

@[simp] theorem putGates_keeps (img s) (hz : Keeps z s) : Keeps z (putGates img s) := by
  unfold putGates; simp +contextual (maxDischargeDepth := 60) [hz]

@[simp] theorem putQueue_keeps (q : Nat) (x : Option (Word × Word)) (s : State) (hz : Keeps z s) : Keeps z (putQueue q x s) := by
  cases x <;> simp [putQueue, hz]

@[simp] theorem putQueues_keeps (img : List Byte) (s : State) (hz : Keeps z s) : Keeps z (putQueues img s) := by
  unfold putQueues
  exact keeps_foldl _ _ _ (keeps_of hz rfl rfl id) fun s q hs => putQueue_keeps q _ s hs

@[simp] theorem putRoute_keeps (r : Nat) (x : Option (Word × Word × Word × Word)) (s : State) (hz : Keeps z s) :
    Keeps z (putRoute r x s) := by
  cases x <;> simp [putRoute, hz]

@[simp] theorem putRoutes_keeps (img s) (hz : Keeps z s) : Keeps z (putRoutes img s) := by
  unfold putRoutes; simp +contextual (maxDischargeDepth := 60) [hz]

@[simp] theorem putLanes_keeps (img s) (hz : Keeps z s) : Keeps z (putLanes img s) := by
  unfold putLanes; simp +contextual (maxDischargeDepth := 60) [hz]

@[simp] theorem putList_keeps (img n half s) (hz : Keeps z s) : Keeps z (putList img n half s) := by
  unfold putList; simp +contextual (maxDischargeDepth := 60) [hz]

@[simp] theorem putContexts_keeps (img s) (hz : Keeps z s) : Keeps z (putContexts img s) := by
  unfold putContexts; simp +contextual (maxDischargeDepth := 60) [hz]

@[simp] theorem putUnits_keeps (img s) (hz : Keeps z s) : Keeps z (putUnits img s) := by
  unfold putUnits; simp +contextual (maxDischargeDepth := 60) [hz]

@[simp] theorem putTime_keeps (img s) (hz : Keeps z s) : Keeps z (putTime img s) := by simp (maxDischargeDepth := 9) [putTime, hz]

@[simp] theorem putPower_keeps (img s) (hz : Keeps z s) : Keeps z (putPower img s) := by
  unfold putPower; simp +contextual (maxDischargeDepth := 60) [hz]

@[simp] theorem putMargin_keeps (img s) (hz : Keeps z s) : Keeps z (putMargin img s) := by
  unfold putMargin; simp +contextual (maxDischargeDepth := 60) [hz]

@[simp] theorem loadSections_keeps (img halves s) (hz : Keeps z s) : Keeps z (loadSections img halves s) := by
  unfold loadSections; simp +contextual (maxDischargeDepth := 60) [hz]

@[simp] theorem trialState_keeps (img s) (hz : Keeps z s) : Keeps z (trialState img s) := by
  unfold trialState; simp +contextual (maxDischargeDepth := 60) [hz]

@[simp] theorem endDisplaced_keeps (s) (hz : Keeps z s) : Keeps z (endDisplaced s) := by
  unfold endDisplaced; simp +contextual (maxDischargeDepth := 60) [hz]

@[simp] theorem judgeXl_keeps (t s) (hz : Keeps z s) : Keeps z (judgeXl t s) := by simp [judgeXl, hz]

@[simp] theorem enterService_keeps (s) (hz : Keeps z s) : Keeps z (enterService s) := by simp [enterService, hz]

@[simp] theorem enableContexts_keeps (img s) (hz : Keeps z s) : Keeps z (enableContexts img s) := by
  unfold enableContexts; simp +contextual (maxDischargeDepth := 60) [hz]

@[simp] theorem startBlocks_keeps (img serial s) (hz : Keeps z s) : Keeps z (startBlocks img serial s) := by simp (maxDischargeDepth := 9) [startBlocks, hz]

@[simp] theorem forceAgain_keeps (t s) (hz : Keeps z s) : Keeps z (forceAgain t s) := by
  unfold forceAgain; (repeat' split) <;> simp [hz]

@[simp] theorem forceHeld_keeps (s) (hz : Keeps z s) : Keeps z (forceHeld s) := by
  unfold forceHeld; simp +contextual (maxDischargeDepth := 60) [hz]

@[simp] theorem applyBlocks_keeps (serial img s) (hz : Keeps z s) : Keeps z (applyBlocks serial img s) := by simp (maxDischargeDepth := 9) [applyBlocks, hz]

@[simp] theorem startCommit_keeps (j s) (hz : Keeps z s) : Keeps z (startCommit j s) := by
  unfold startCommit; simp +contextual (maxDischargeDepth := 60) [hz]

@[simp] theorem applyImage_keeps (ring serial img s) (hz : Keeps z s) : Keeps z (applyImage ring serial img s) := by
  unfold applyImage; try dsimp only
  first
  | (simp +contextual (maxDischargeDepth := 60) [hz]; done)
  | (repeat' split) <;> simp +contextual (maxDischargeDepth := 60) [hz]

@[simp] theorem commitImage_keeps (ring : Option Nat) (serial : Bool) (img : List Byte) (s : State)
    (hz : Keeps z s) : Keeps z (commitImage ring serial img s).2 := by
  unfold commitImage
  exact afterChecks_keeps2 _ _ _ (fun f => recordFail_keeps f s hz) (applyImage_keeps ring serial img s hz)

@[simp] theorem applyEmpty_keeps (ring s) (hz : Keeps z s) : Keeps z (applyEmpty ring s) := by
  unfold applyEmpty; simp +contextual (maxDischargeDepth := 60) [hz]

@[simp] theorem imageCommand_keeps (r img s) (hz : Keeps z s) : Keeps z (imageCommand r img s) := by simp (maxDischargeDepth := 9) [imageCommand, hz]

@[simp] theorem loadImageData_keeps (r data s) (hz : Keeps z s) : Keeps z (loadImageData r data s) := by simp (maxDischargeDepth := 9) [loadImageData, hz]

@[simp] theorem loadImageCut_keeps (r st info before s) (hz : Keeps z s) : Keeps z (loadImageCut r st info before s) := by simp (maxDischargeDepth := 9) [loadImageCut, hz]

@[simp] theorem loadImageBody_keeps (r ws s) (hz : Keeps z s) : Keeps z (loadImageBody r ws s) := by
  unfold loadImageBody; simp +contextual (maxDischargeDepth := 60) [hz]

theorem execLoadImage_keeps (r s t) (e : execLoadImage r s = .next t) : Keeps s t := by
  have hz := Keeps.refl s
  rw [← Host.Outcome.next.inj e]
  simp +contextual (maxDischargeDepth := 60) [hz]

theorem execLoadImageCommit_keeps (r s t) (e : execLoadImageCommit r s = .next t) : Keeps s t := by
  have hz := Keeps.refl s
  rw [← Host.Outcome.next.inj e]
  simp +contextual (maxDischargeDepth := 60) [hz]

@[simp] theorem commitConfigBody_keeps (r s) (hz : Keeps z s) : Keeps z (commitConfigBody r s) := by
  unfold commitConfigBody; (repeat' split) <;> simp [hz]

theorem execCommitConfig_keeps (r s t) (e : execCommitConfig r s = .next t) : Keeps s t := by
  have hz := Keeps.refl s
  rw [← Host.Outcome.next.inj e]
  simp +contextual (maxDischargeDepth := 60) [hz]

@[simp] theorem commitEmptyBody_keeps (r s) (hz : Keeps z s) : Keeps z (commitEmptyBody r s) := by
  unfold commitEmptyBody; dsimp only; (repeat' split) <;> simp (maxDischargeDepth := 60) [hz]

theorem execCommitConfigEmpty_keeps (r s t) (e : execCommitConfigEmpty r s = .next t) : Keeps s t := by
  have hz := Keeps.refl s
  rw [← Host.Outcome.next.inj e]
  simp +contextual (maxDischargeDepth := 60) [hz]

@[simp] theorem setProfileBody_keeps (r ws s) (hz : Keeps z s) : Keeps z (setProfileBody r ws s) := by simp (maxDischargeDepth := 9) [setProfileBody, hz]

theorem execSetProfile_keeps (r s t) (e : execSetProfile r s = .next t) : Keeps s t := by
  have hz := Keeps.refl s
  rw [← Host.Outcome.next.inj e]
  simp +contextual (maxDischargeDepth := 60) [hz]


/-! Boot -/

theorem KeepsQM.trans {r s t : State} (h : KeepsQM r s) (k : KeepsQM s t) : KeepsQM r t :=
  ⟨k.1.trans h.1, fun x => k.2 (h.2 x)⟩

/-- A reset keeps the queue and the invariant; it does not keep the safe state. -/
theorem resetBase_keepsQM (straps : Straps) (cause : Nat) (s : State) : KeepsQM s (resetBase straps cause s) :=
  ⟨rfl, fun _ => rfl⟩

@[simp] theorem takeRetention_keeps (bad s) (hz : Keeps z s) : Keeps z (takeRetention bad s) := by simp [takeRetention, hz]

theorem keepWarm_keepsQM (old s : State) : KeepsQM s (keepWarm old s) := ⟨rfl, id⟩

@[simp] theorem warmReset_keeps (straps bad cause s) (hz : Keeps z s) : Keeps z (warmReset straps bad cause s) := by
  unfold warmReset
  split
  · exact hz
  · rename_i h
    have e : s.vx.safe ≠ true := fun x => h (Or.inl x)
    exact ⟨KeepsQM.trans hz.1 (KeepsQM.trans (resetBase_keepsQM _ _ (atStraps straps s))
      (KeepsQM.trans (keepWarm_keepsQM s _) (takeRetention_keeps _ _ (Keeps.refl _)).1)), fun x => absurd (hz.2 x) e⟩

theorem coldReset_keepsQM (straps bad s) : KeepsQM s (coldReset straps bad s) := by
  unfold coldReset
  dsimp only
  have h : KeepsQM s (resetBase straps (if (s.pw.mode == PwMode.hibernate) = true then 3 else 0) (atStraps straps s)) :=
    resetBase_keepsQM straps _ (atStraps straps s)
  generalize resetBase straps (if (s.pw.mode == PwMode.hibernate) = true then 3 else 0) (atStraps straps s) = b at h ⊢
  have hz := Keeps.refl b
  exact h.trans (takeRetention_keeps _ _ (by simp (maxDischargeDepth := 9) [hz])).1

@[simp] theorem holdPor_keeps (io ser s) (hz : Keeps z s) : Keeps z (holdPor io ser s) := by simp [holdPor, hz]

@[simp] theorem holdRst_keeps (low s) (hz : Keeps z s) : Keeps z (holdRst low s) := by simp [holdRst, hz]

theorem execCorePor_keepsQM (straps bad s t) (e : execCorePor straps bad s = .next t) : KeepsQM s t := by
  rw [← Host.Outcome.next.inj e]
  exact coldReset_keepsQM straps bad s

theorem execResetN_keeps (straps bad s t) (e : execResetN straps bad s = .next t) : Keeps s t := by
  have hz := Keeps.refl s
  rw [← Host.Outcome.next.inj e]
  simp [hz]

theorem execSoftReset_keeps (i straps bad s t) (e : execSoftReset i straps bad s = .next t) : Keeps s t := by
  have hz := Keeps.refl s
  rw [← Host.Outcome.next.inj e]
  simp +contextual (maxDischargeDepth := 60) [hz]

theorem execResetNAsserted_keeps (s t) (e : execResetNAsserted s = .next t) : Keeps s t := by
  have hz := Keeps.refl s
  rw [← Host.Outcome.next.inj e]
  simp (maxDischargeDepth := 9) [hz]

theorem execCorePorAsserted_keepsQM (rail s t) (e : execCorePorAsserted s rail = .next t) : KeepsQM s t := by
  rw [← Host.Outcome.next.inj e]
  dsimp only
  split <;> exact ⟨rfl, fun _ => rfl⟩

theorem execVaoPor_keeps (s t) (e : execVaoPor s = .next t) : Keeps s t := by
  have hz := Keeps.refl s
  rw [← Host.Outcome.next.inj e]
  simp (maxDischargeDepth := 9) [hz]

theorem execVaoLost_keeps (s t) (e : execVaoLost s = .next t) : Keeps s t := by
  have hz := Keeps.refl s
  rw [← Host.Outcome.next.inj e]
  simp [hz]

theorem execRomCheckDone_keeps (ok s t) (e : execRomCheckDone ok s = .next t) : Keeps s t := by
  have hz := Keeps.refl s
  rw [← Host.Outcome.next.inj e]
  simp (maxDischargeDepth := 9) [hz]

@[simp] theorem joinReduced_keeps (n s) (hz : Keeps z s) : Keeps z (joinReduced n s) := by simp [joinReduced, hz]

theorem execReferenceStable_keeps (s t) (e : execReferenceStable s = .next t) : Keeps s t := by
  have hz := Keeps.refl s
  rw [← Host.Outcome.next.inj e]
  simp +contextual (maxDischargeDepth := 60) [hz]

theorem execReferenceTimeout_keeps (s t) (e : execReferenceTimeout s = .next t) : Keeps s t := by
  have hz := Keeps.refl s
  rw [← Host.Outcome.next.inj e]
  simp (maxDischargeDepth := 9) [hz]

theorem execPllLocked_keeps (s t) (e : execPllLocked s = .next t) : Keeps s t := by
  have hz := Keeps.refl s
  rw [← Host.Outcome.next.inj e]
  simp [hz]

theorem execPllLockTimeout_keeps (s t) (e : execPllLockTimeout s = .next t) : Keeps s t := by
  have hz := Keeps.refl s
  rw [← Host.Outcome.next.inj e]
  simp (maxDischargeDepth := 9) [hz]

theorem execBistDone_keeps (ok : Bool) (us : Nat) (s : State) (t : State) (e : execBistDone ok us s = .next t) : Keeps s t := by
  have hz := Keeps.refl s
  unfold execBistDone at e
  rw [← Host.Outcome.next.inj e]
  dsimp only
  split
  · split
    · exact ⟨⟨rfl, fun _ => rfl⟩, id⟩
    · simp +contextual (maxDischargeDepth := 60) [hz]
  · exact hz

theorem execSequencerWatchdog_keeps (s t) (e : execSequencerWatchdog s = .next t) : Keeps s t := by
  have hz := Keeps.refl s
  rw [← Host.Outcome.next.inj e]
  simp [hz]

@[simp] theorem copyFailed_keeps (f s) (hz : Keeps z s) : Keeps z (copyFailed f s) := by simp (maxDischargeDepth := 9) [copyFailed, hz]

@[simp] theorem copyCommit_keeps (img s) (hz : Keeps z s) : Keeps z (copyCommit img s).2 := by simp [copyCommit, hz]

@[simp] theorem stageCopy_keeps (img s) (hz : Keeps z s) : Keeps z (stageCopy img s) :=
  State.modPool_keeps _ (State.freshTick_keeps hz) fun x => memWrite_wf _ _ _ x

@[simp] theorem copyRead_keeps (img s) (hz : Keeps z s) : Keeps z (copyRead img s) := by simp (maxDischargeDepth := 9) [copyRead, hz]

theorem execFlashCopyDone_keeps (image s t) (e : execFlashCopyDone image s = .next t) : Keeps s t := by
  have hz := Keeps.refl s
  rw [← Host.Outcome.next.inj e]
  simp (maxDischargeDepth := 9) [hz]

theorem execFlashHeaderTimeout_keeps (s t) (e : execFlashHeaderTimeout s = .next t) : Keeps s t := by
  have hz := Keeps.refl s
  rw [← Host.Outcome.next.inj e]
  simp [hz]


/-! Access -/

@[simp] theorem putReg_keeps (i off v s) (hz : Keeps z s) : Keeps z (putReg i off v s) := by simp (maxDischargeDepth := 9) [putReg, hz]

@[simp] theorem serialDiscard_keeps (k s) (hz : Keeps z s) : Keeps z (serialDiscard k s) := by simp [serialDiscard, hz]

theorem execRegisterWrite_keeps (i off v be s t) (e : execRegisterWrite i off v be s = .next t) : Keeps s t := by
  have hz := Keeps.refl s
  unfold execRegisterWrite at e
  (repeat' split at e) <;> first
    | cases e; done
    | (rw [← Host.Outcome.next.inj e]; first | exact hz | exact regAccess_keeps _ _ _ _ hz fun _ h => putReg_keeps _ _ _ _ h | simp [hz])

@[simp] theorem wordGet_keeps (i addr s) (hz : Keeps z s) : Keeps z (wordGet i addr s).1 := by
  unfold wordGet; (repeat' split) <;> simp [hz]

theorem execLowWordRead_keeps (i addr s t) (e : execLowWordRead i addr s = .next t) : Keeps s t := by
  have hz := Keeps.refl s
  unfold execLowWordRead at e
  dsimp only at e
  (repeat' split at e) <;> first | cases e; done | (rw [← Host.Outcome.next.inj e]; simp [hz])

@[simp] theorem serialPut_keeps (addr v s) (hz : Keeps z s) : Keeps z (serialPut addr v s) := by
  unfold serialPut; simp +contextual (maxDischargeDepth := 60) [hz]

@[simp] theorem serialPuts_keeps : ∀ (l : List Word) (addr : Nat) (s : State), Keeps z s →
    Keeps z (serialPuts addr l s) := by
  intro l
  induction l with
  | nil => intro a s h; exact h
  | cons v t ih => intro a s h; exact ih _ _ (by simp [h])

@[simp] theorem serialGet_keeps (addr s) (hz : Keeps z s) : Keeps z (serialGet addr s).1 := by
  unfold serialGet; try dsimp only
  first
  | (simp +contextual (maxDischargeDepth := 60) [hz]; done)
  | (repeat' split) <;> simp +contextual (maxDischargeDepth := 60) [hz]

@[simp] theorem serialGets_keeps : ∀ (n addr : Nat) (s : State), Keeps z s →
    Keeps z (serialGets addr n s).1 := by
  intro n
  induction n with
  | zero => intro a s h; exact h
  | succ k ih => intro a s h; exact ih _ _ (by simp [h])

theorem execSerialWrite_keeps (addr words a b s t) (e : execSerialWrite addr words a b s = .next t) : Keeps s t := by
  have hz := Keeps.refl s
  unfold execSerialWrite at e
  dsimp only at e
  (repeat' split at e) <;> first | cases e; done | (rw [← Host.Outcome.next.inj e]; simp [hz])

@[simp] theorem serialAnswer_keeps (addr words s) (hz : Keeps z s) : Keeps z (serialAnswer addr words s) := by simp [serialAnswer, hz]

@[simp] theorem serialEnd_keeps (addr words clocks s) (hz : Keeps z s) : Keeps z (serialEnd addr words clocks s) := by simp (maxDischargeDepth := 9) [serialEnd, hz]

theorem execSerialRead_keeps (addr n clocks s t) (e : execSerialRead addr n s clocks = .next t) : Keeps s t := by
  have hz := Keeps.refl s
  unfold execSerialRead at e
  dsimp only at e
  (repeat' split at e) <;> first | cases e; done | (rw [← Host.Outcome.next.inj e]; simp (maxDischargeDepth := 60) [hz])

theorem execNop_keeps (r s t) (e : execNop r s = .next t) : Keeps s t := by
  have hz := Keeps.refl s
  rw [← Host.Outcome.next.inj e]
  simp +contextual (maxDischargeDepth := 60) [hz]

theorem execIdentify_keeps (r s t) (e : execIdentify r s = .next t) : Keeps s t := by
  have hz := Keeps.refl s
  rw [← Host.Outcome.next.inj e]
  simp +contextual (maxDischargeDepth := 60) [hz]

theorem execReadStatus_keeps (r s t) (e : execReadStatus r s = .next t) : Keeps s t := by
  have hz := Keeps.refl s
  rw [← Host.Outcome.next.inj e]
  simp +contextual (maxDischargeDepth := 60) [hz]

theorem execUndefinedOpcode_keeps (r s t) (e : execUndefinedOpcode r s = .next t) : Keeps s t := by
  have hz := Keeps.refl s
  rw [← Host.Outcome.next.inj e]
  (repeat' split) <;> simp [hz]

@[simp] theorem dmaGood_keeps (r data s) (hz : Keeps z s) : Keeps z (dmaGood r data s) := by simp (maxDischargeDepth := 9) [dmaGood, hz]

@[simp] theorem dmaFail_keeps (r st k before s) (hz : Keeps z s) : Keeps z (dmaFail r st k before s) := by simp (maxDischargeDepth := 9) [dmaFail, hz]

theorem execDmaCompletionTimeout_keeps (r before s t) (e : execDmaCompletionTimeout r s before = .next t) : Keeps s t := by
  have hz := Keeps.refl s
  rw [← Host.Outcome.next.inj e]
  simp [hz]

theorem execDmaReadDone_keeps (r result s t) (e : execDmaReadDone r result s = .next t) : Keeps s t := by
  have hz := Keeps.refl s
  rw [← Host.Outcome.next.inj e]
  try dsimp only
  first
  | (simp +contextual (maxDischargeDepth := 60) [hz]; done)
  | (repeat' split) <;> simp +contextual (maxDischargeDepth := 60) [hz]

@[simp] theorem housekeeping_keeps (s) (hz : Keeps z s) : Keeps z (housekeeping s) := by
  unfold housekeeping; simp +contextual (maxDischargeDepth := 60) [hz]

theorem execHousekeepingTurn_keeps (ups s t) (e : execHousekeepingTurn ups s = .next t) : Keeps s t := by
  have hz := Keeps.refl s
  rw [← Host.Outcome.next.inj e]
  simp +contextual (maxDischargeDepth := 60) [hz]

theorem execLtDrainDone_keeps (s t) (e : execLtDrainDone s = .next t) : Keeps s t := by
  have hz := Keeps.refl s
  rw [← Host.Outcome.next.inj e]
  simp +contextual (maxDischargeDepth := 60) [hz]

@[simp] theorem answered_keeps (n s) (hz : Keeps z s) : Keeps z (answered n s) := by simp [answered, hz]

theorem execIdentifyAnsCommit_keeps (ch pick s t) (e : execIdentifyAnsCommit ch pick s = .next t) : Keeps s t := by
  have hz := Keeps.refl s
  rw [← Host.Outcome.next.inj e]
  simp (maxDischargeDepth := 9) [hz]

theorem execConsoleAnswer_keeps (s t) (e : execConsoleAnswer s = .next t) : Keeps s t := by
  have hz := Keeps.refl s
  rw [← Host.Outcome.next.inj e]
  (repeat' split) <;> simp [hz]


end Sys2Proof.Machine
end

