-- ==== Sys2Proof/Laws/TxSide.lean ====
section
/-!
SUPPORT. What the picker's decision, counters and events change of the channels (chapter 7): `TxSide`, one lemma per operation.
-/
namespace Sys2Proof.Machine

set_option linter.unusedSimpArgs false
set_option linter.unusedVariables false

theorem TxSide_refl (s : State) : TxSide s s := ⟨rfl, fun _ => rfl⟩
theorem txside_of {z s t : State} (h : TxSide z s) (k : TxSide s t) : TxSide z t := by
  obtain ⟨h1, h2⟩ := h
  obtain ⟨k1, k2⟩ := k
  refine ⟨by rw [k1, h1], fun n => ?_⟩
  have a := h2 n
  have b := k2 n
  rw [a] at b
  exact b
@[simp] theorem txside_ite {r a b : State} {c : Prop} [Decidable c] (h1 : TxSide r a) (h2 : TxSide r b) : TxSide r (if c then a else b) := by
  split <;> assumption
@[simp] theorem txside_foldl {α : Type} {r : State} (f : State → α → State) (l : List α) (s : State) (h : TxSide r s)
    (hf : ∀ s a, TxSide r s → TxSide r (f s a)) : TxSide r (l.foldl f s) := by
  induction l generalizing s with
  | nil => exact h
  | cons a t ih => exact ih _ (hf _ _ h)
theorem txside_foldl_fst {α β : Type} {r : State} (f : State × β → α → State × β) (l : List α) (x : State × β) (h : TxSide r x.1)
    (hf : ∀ x a, TxSide r x.1 → TxSide r (f x a).1) : TxSide r (l.foldl f x).1 := by
  induction l generalizing x with
  | nil => exact h
  | cons a t ih => exact ih _ (hf _ _ h)
@[simp] theorem txside_mk {r s : State} (h : TxSide r s) {sq pool bdp outs} :
    TxSide r { s with sq := sq, pool := pool, bdp := bdp, outs := outs } := txside_of h ⟨rfl, fun _ => rfl⟩
@[simp] theorem State.modChan_txside {z s : State} (n : Nat) (f : Chan → Chan) (h : TxSide z s) (hf : ∀ c, f c = { c with
    cnt := (f c).cnt, loaded := (f c).loaded, loadedCell := (f c).loadedCell, taken := (f c).taken
    rets := (f c).rets, primes := (f c).primes }) : TxSide z (s.modChan n f) := by
  refine txside_of h ⟨rfl, fun m => ?_⟩
  by_cases hm : m = n
  · subst hm; rw [State.modChan_chan_same]; exact hf _
  · rw [State.modChan_chan_other _ _ _ _ hm]
@[simp] theorem State.modQueue_txside {z s : State} (q : Nat) (f : Queue → Queue) (h : TxSide z s) : TxSide z (s.modQueue q f) := txside_of h ⟨rfl, fun _ => rfl⟩
@[simp] theorem State.modSq_txside {z s : State} (f : Sq → Sq) (h : TxSide z s) : TxSide z (s.modSq f) := txside_of h ⟨rfl, fun _ => rfl⟩
@[simp] theorem State.modCr_txside {z s : State} (r : Nat) (f : CmdRing → CmdRing) (h : TxSide z s) : TxSide z (s.modCr r f) := txside_of h ⟨rfl, fun _ => rfl⟩
@[simp] theorem State.modCq_txside {z s : State} (k : Nat) (f : CqRing → CqRing) (h : TxSide z s) : TxSide z (s.modCq k f) := txside_of h ⟨rfl, fun _ => rfl⟩
@[simp] theorem State.modCmd_txside {z s : State} (r : Nat) (f : Cmd → Cmd) (h : TxSide z s) : TxSide z (s.modCmd r f) := txside_of h ⟨rfl, fun _ => rfl⟩
@[simp] theorem State.emit_txside {z s : State} (o : Output) (h : TxSide z s) : TxSide z (s.emit o) := txside_of h ⟨rfl, fun _ => rfl⟩
@[simp] theorem State.modPool_txside {z s : State} (f : Pool → Pool) (h : TxSide z s) : TxSide z (s.modPool f) := txside_of h ⟨rfl, fun _ => rfl⟩
variable {z : State}

/-! Ops -/

@[simp] theorem stgPut_txside (s b v) (hz : TxSide z s) : TxSide z (stgPut s b v) := by simp [stgPut, hz]

@[simp] theorem stgWrite_txside (s : State) (b : Nat) (l : List Byte) (h : TxSide z s) : TxSide z (stgWrite s b l) := by
  induction l generalizing s b with
  | nil => exact h
  | cons v t ih => exact ih _ _ (stgPut_txside _ _ _ h)

@[simp] theorem hostPut_txside (serial addr bytes s) (hz : TxSide z s) : TxSide z (hostPut serial addr bytes s) := by simp [hostPut, hz]

@[simp] theorem msixSend_txside (v s) (hz : TxSide z s) : TxSide z (msixSend v s) := by simp [msixSend, hz]

@[simp] theorem signal_txside (serial v s) (hz : TxSide z s) : TxSide z (signal serial v s) := by simp [signal, hz]

@[simp] theorem cqSignal_txside (k s) (hz : TxSide z s) : TxSide z (cqSignal k s) := by simp [cqSignal, hz]

@[simp] theorem cqWrite_txside (k ph ws s) (hz : TxSide z s) : TxSide z (cqWrite k ph ws s) := by simp (maxDischargeDepth := 9) [cqWrite, hz]

@[simp] theorem evWrite_txside (code key items s) (hz : TxSide z s) : TxSide z (evWrite code key items s) := by simp [evWrite, hz]

@[simp] theorem evLose_txside (s) (hz : TxSide z s) : TxSide z (evLose s) := by simp [evLose, hz]

@[simp] theorem evHalt_txside (s) (hz : TxSide z s) : TxSide z (evHalt s) := by simp (maxDischargeDepth := 9) [evHalt, hz]

@[simp] theorem evRaise_txside (code key items s) (hz : TxSide z s) : TxSide z (evRaise code key items s) := by simp (maxDischargeDepth := 9) [evRaise, hz]

@[simp] theorem raise_txside (code inst items s) (hz : TxSide z s) : TxSide z (raise code inst items s) := by simp [raise, hz]

@[simp] theorem evLostFlush_txside (s) (hz : TxSide z s) : TxSide z (evLostFlush s) := by simp (maxDischargeDepth := 9) [evLostFlush, hz]

@[simp] theorem complete_txside (r st r0 r1 s) (hz : TxSide z s) : TxSide z (complete r st r0 r1 s) := by simp (maxDischargeDepth := 9) [complete, hz]

@[simp] theorem completeAll_txside (rs st r0 r1 s) (hz : TxSide z s) : TxSide z (completeAll rs st r0 r1 s) := by
  unfold completeAll; simp +contextual (maxDischargeDepth := 60) [hz]

@[simp] theorem bumpBy_txside (n off k s) (hz : TxSide z s) : TxSide z (bumpBy n off k s) := by simp [bumpBy, hz]

@[simp] theorem bump_txside (n off s) (hz : TxSide z s) : TxSide z (bump n off s) := by simp [bump, hz]

@[simp] theorem chEvent_txside (code n items s) (hz : TxSide z s) : TxSide z (chEvent code n items s) := by simp [chEvent, hz]


/-! Cells -/
@[simp] theorem fullRearm_txside (q s) (hz : TxSide z s) : TxSide z (fullRearm q s) := by simp [fullRearm, hz]

@[simp] theorem poolLow_txside (s) (hz : TxSide z s) : TxSide z (poolLow s) := by simp (maxDischargeDepth := 9) [poolLow, hz]

@[simp] theorem refuse_txside (q byMax s) (hz : TxSide z s) : TxSide z (refuse q byMax s) := by simp (maxDischargeDepth := 9) [refuse, hz]

@[simp] theorem relink_txside (c s) (hz : TxSide z s) : TxSide z (relink c s) := by simp [relink, hz]

@[simp] theorem relinkLast_txside (cs s) (hz : TxSide z s) : TxSide z (relinkLast cs s) := by
  unfold relinkLast; (repeat' split) <;> simp [hz]

@[simp] theorem chargeOne_txside (c q s) (hz : TxSide z s) : TxSide z (chargeOne c q s) := by simp (maxDischargeDepth := 9) [chargeOne, hz]

@[simp] theorem charge_txside (c q s) (hz : TxSide z s) : TxSide z (charge c q s) := by simp (maxDischargeDepth := 9) [charge, hz]

@[simp] theorem ownEnded_txside (cs s) (hz : TxSide z s) : TxSide z (ownEnded cs s) := by simp [ownEnded, hz]

@[simp] theorem freeCells_txside (cs s) (hz : TxSide z s) : TxSide z (freeCells cs s) := by
  unfold freeCells; simp +contextual (maxDischargeDepth := 60) [hz]

@[simp] theorem writeCell_txside (c bytes s) (hz : TxSide z s) : TxSide z (writeCell c bytes s) := by simp [writeCell, hz]

@[simp] theorem unlink_txside (q c s) (hz : TxSide z s) : TxSide z (unlink q c s) := by simp [unlink, hz]

@[simp] theorem popItem_txside (q i s) (hz : TxSide z s) : TxSide z (popItem q i s) := by simp [popItem, hz]

@[simp] theorem linkItem_txside (q i s) (hz : TxSide z s) : TxSide z (linkItem q i s) := by simp (maxDischargeDepth := 9) [linkItem, hz]

@[simp] theorem flushCheck_txside (q s) (hz : TxSide z s) : TxSide z (flushCheck q s) := by
  unfold flushCheck; (repeat' split) <;> simp [hz]

@[simp] theorem flushCount_txside (q n s) (hz : TxSide z s) : TxSide z (flushCount q n s) := by simp [flushCount, hz]

@[simp] theorem discardMarked_txside (q cells s) (hz : TxSide z s) : TxSide z (discardMarked q cells s) := by simp (maxDischargeDepth := 9) [discardMarked, hz]


/-! TxCore -/
@[simp] theorem ckFinished_txside (key : Nat) (s : State) (hz : TxSide z s) : TxSide z (ckFinished key s) := by
  unfold ckFinished
  refine txside_foldl _ _ _ hz ?_
  intro s e hz
  dsimp only
  (repeat' split) <;> simp +contextual (maxDischargeDepth := 60) [hz]

@[simp] theorem modPrime_txside (n b f s) (hz : TxSide z s) : TxSide z (modPrime n b f s) := by simp [modPrime, hz]

@[simp] theorem endEvents_txside (n src o i s) (hz : TxSide z s) : TxSide z (endEvents n src o i s) := by simp (maxDischargeDepth := 9) [endEvents, hz]

@[simp] theorem returnCells_txside (n cells s) (hz : TxSide z s) : TxSide z (returnCells n cells s) := by
  unfold returnCells; try dsimp only
  first
  | (simp +contextual (maxDischargeDepth := 60) [hz]; done)
  | (repeat' split) <;> simp +contextual (maxDischargeDepth := 60) [hz]

@[simp] theorem dropSource_txside (n src o i s) (hz : TxSide z s) : TxSide z (dropSource n src o i s) := by
  unfold dropSource; dsimp only; (repeat' split) <;> simp (maxDischargeDepth := 60) [hz]

@[simp] theorem endItem_txside (n src o i s) (hz : TxSide z s) : TxSide z (endItem n src o i s) := by simp (maxDischargeDepth := 9) [endItem, hz]

theorem purgeSource_txside (n src : Nat) : ∀ (fuel : Nat) (x : State × Nat), TxSide z x.1 → TxSide z (purgeSource n src fuel x).1 := by
  intro fuel
  induction fuel with
  | zero => intro x h; exact h
  | succ k ih =>
    intro x h
    unfold purgeSource
    (repeat' split) <;> first | exact h | exact ih _ (endItem_txside _ _ _ _ _ h)

@[simp] theorem purgeAll_txside (n : Nat) (s : State) (h : TxSide z s) : TxSide z (purgeAll n s).1 := by
  apply txside_foldl_fst _ _ _ h
  intro x a hx; exact purgeSource_txside _ _ _ _ hx

@[simp] theorem purge_txside (n s) (h : TxSide z s) : TxSide z (purge n s) := purgeAll_txside _ _ h

@[simp] theorem purgeDemoted_txside (n s) (hz : TxSide z s) : TxSide z (purgeDemoted n s) := by simp (maxDischargeDepth := 9) [purgeDemoted, hz]

@[simp] theorem unloadGone_txside (n s) (hz : TxSide z s) : TxSide z (unloadGone n s) := by
  unfold unloadGone; (repeat' split) <;> simp [hz]

@[simp] theorem loadWinner_txside (n w s) (hz : TxSide z s) : TxSide z (loadWinner n w s) := by
  unfold loadWinner; try dsimp only
  first
  | (simp +contextual (maxDischargeDepth := 60) [hz]; done)
  | (repeat' split) <;> simp +contextual (maxDischargeDepth := 60) [hz]

@[simp] theorem recheck_txside (n s) (hz : TxSide z s) : TxSide z (recheck n s) := by
  unfold recheck; dsimp only; (repeat' split) <;> simp (maxDischargeDepth := 60) [hz]

@[simp] theorem nextSeq_txside (s) (hz : TxSide z s) : TxSide z (nextSeq s) := by simp [nextSeq, hz]

@[simp] theorem commitAt_txside (q i s) (hz : TxSide z s) : TxSide z (commitAt q i s) := by simp (maxDischargeDepth := 9) [commitAt, hz]

@[simp] theorem commitItem_txside (q cls cells s) (hz : TxSide z s) : TxSide z (commitItem q cls cells s) := by simp [commitItem, hz]

@[simp] theorem finishStop_txside (n k s) (hz : TxSide z s) : TxSide z (finishStop n k s) := by simp [finishStop, hz]

@[simp] theorem dropChains_txside : ∀ (n : Nat) (l : List Chain) (s : State), TxSide z s → TxSide z (dropChains n l s) := by
  intro n l
  induction l with
  | nil => intro s h; exact h
  | cons c t ih =>
    intro s h
    unfold dropChains
    exact ih _ (by split <;> simp [h])

@[simp] theorem dropRecord_txside (n x s) (hz : TxSide z s) : TxSide z (dropRecord n x s) := by simp [dropRecord, hz]

@[simp] theorem finishCancel_txside (l o s) (hz : TxSide z s) : TxSide z (finishCancel l o s) := by simp [finishCancel, hz]


/-! Flags -/

end Sys2Proof.Machine
end

