-- ==== Sys2Proof/Laws/Vertex.lean ====
section
/-!
SUPPORT. What an assertion does to the Vertex registers (R386 to R397): the status word, the latch, the reaction.
-/
namespace Sys2Proof.Machine

/-- Events leave Vertex alone. -/
theorem Told.vx {s t : State} (h : Told s t) : t.vx = s.vx := by rw [h.1]
/-- Events leave the time base alone. -/
theorem Told.tm {s t : State} (h : Told s t) : t.tm = s.tm := by rw [h.1]
/-- Channels and transmit path leave Vertex alone. -/
theorem ChanSide.vx {s t : State} (h : ChanSide s t) : t.vx = s.vx := by
  unfold ChanSide at h
  rw [h]

/-- The events of an assertion. -/
@[simp] theorem raise_vx (code inst : Nat) (items : List (Nat × Nat)) (s : State) : (raise code inst items s).vx = s.vx :=
  (raise_told _ _ _ _).vx
/-- An interrupt. -/
@[simp] theorem signal_vx (b : Bool) (v : Nat) (s : State) : (signal b v s).vx = s.vx := (signal_told _ _ _).vx
/-- The end of a command. -/
@[simp] theorem complete_vx (r st : Nat) (r0 r1 : Word) (s : State) : (complete r st r0 r1 s).vx = s.vx :=
  (complete_side r st r0 r1 s (ChanSide_refl s)).vx

/-- The link transmitter. -/
@[simp] theorem linkKick_vx (s : State) : (linkKick s).vx = s.vx := by
  unfold linkKick
  split
  · rfl
  · split <;> rfl
/-- A packet for the partner. -/
@[simp] theorem linkSend_vx (p : Packet) (s : State) : (linkSend p s).vx = s.vx := by
  unfold linkSend
  split
  · simp
  · rfl
/-- NOTICE. -/
@[simp] theorem sendNotice_vx (src cls : Nat) (s : State) : (sendNotice src cls s).vx = s.vx := by
  unfold sendNotice
  split <;> simp

/-- A channel forced safe. -/
@[simp] theorem chanSafe_vx (n st : Nat) (s : State) : (chanSafe n st s).vx = s.vx :=
  (chanSafe_side n st s (ChanSide_refl s)).vx
/-- Every command ends. -/
@[simp] theorem endCommands_vx (st : Nat) (s : State) : (endCommands st s).vx = s.vx :=
  (endCommands_side st s (ChanSide_refl s)).vx
/-- Every channel forced safe. -/
@[simp] theorem chansSafe_vx (st : Nat) (l : List Nat) (s : State) : (l.foldl (fun s n => chanSafe n st s) s).vx = s.vx := by
  induction l generalizing s with
  | nil => rfl
  | cons a t ih => rw [List.foldl_cons, ih]; simp

/-- The transmitter in the safe state. -/
@[simp] theorem safeLink_vx (s : State) : (safeLink s).vx = s.vx := by
  unfold safeLink
  split
  · simp
  · rfl

/-- A proof test that waits is given up. -/
@[simp] theorem proofAbandon_vx (s : State) : (proofAbandon s).vx = { s.vx with proof := none } := by
  unfold proofAbandon
  split
  · simp
  · rename_i h
    cases hv : s.vx
    simp_all

/-- The device safe state on the Vertex registers (R393, R396). -/
theorem enterSafe_vx (s : State) : (enterSafe s).vx =
    if s.vx.safe then s.vx else
      { s.vx with safe := true, safeDone := false, aliveRun := false, alivePin := false, proof := none
                  windows := s.vx.windows ++ [(.device, [])] } := by
  unfold enterSafe
  split
  · rfl
  · simp [safeLatch]

/-- The first-fault latch on the Vertex registers (R387, R388, R406). -/
theorem recordFirst_vx (src cls : Nat) (injected : Bool) (detail : Word) (s : State) :
    (recordFirst src cls injected detail s).vx =
      if !s.vx.fValid || (s.vx.fInjected && !injected) then
        { s.vx with fSource := src, fClass := cls, fValid := true, fInjected := injected, fInfo := detail, fTime := s.tm.now }
      else if injected || s.vx.fInjected then s.vx
      else if outranks s src cls then
        { s.vx with fSource := src, fClass := cls, fValid := true, fInjected := injected, fInfo := detail, fTime := s.tm.now
                    fOverflow := true }
      else { s.vx with fOverflow := true } := by
  unfold recordFirst latchFirst
  split
  · rfl
  · split
    · rfl
    · dsimp only
      split <;> split <;> simp_all

/-- The event 0x70. -/
@[simp] theorem vxFaultEvent_vx (src cls : Nat) (i : Bool) (d : Word) (s : State) : (vxFaultEvent src cls i d s).vx = s.vx := by
  simp [vxFaultEvent]

/-- The interrupt of a fault. -/
@[simp] theorem faultInterrupt_vx (cls : Nat) (s : State) : (faultInterrupt cls s).vx = s.vx := by
  unfold faultInterrupt
  split <;> simp

/-- What an assertion leaves of the Vertex registers once it is recorded: the status word and the lines are not touched. -/
theorem recordGenuine_vx (src cls : Nat) (w : Bool) (detail : Word) (s : State) :
    (recordGenuine src cls w detail s).vx.stat = s.vx.stat ∧ (recordGenuine src cls w detail s).vx.inj = s.vx.inj
    ∧ (recordGenuine src cls w detail s).vx.level = s.vx.level ∧ (recordGenuine src cls w detail s).vx.safe = s.vx.safe
    ∧ (recordGenuine src cls w detail s).vx.classes = s.vx.classes
    ∧ (recordGenuine src cls w detail s).vx.held = s.vx.held := by
  unfold recordGenuine recordLast3
  dsimp only
  rw [faultInterrupt_vx]
  have h : ∀ u : State, (if w = true then u else sendNotice src cls u).vx = u.vx := by
    intro u; split <;> simp
  rw [h]
  split <;> simp only [vxFaultEvent_vx, recordFirst_vx] <;> (repeat' split) <;> simp

/-- A class-2 reaction. -/
theorem holdTarget_vx (src : Nat) (t : Target) (s : State) :
    (holdTarget src t s).vx.stat = s.vx.stat ∧ (holdTarget src t s).vx.inj = s.vx.inj
    ∧ (holdTarget src t s).vx.level = s.vx.level ∧ (holdTarget src t s).vx.safe = s.vx.safe
    ∧ (holdTarget src t s).vx.classes = s.vx.classes
    ∧ (holdTarget src t s).vx.held = if s.vx.held.contains (src, t) then s.vx.held else s.vx.held ++ [(src, t)] := by
  unfold holdTarget forceTarget
  dsimp only
  cases t <;> (split <;> simp)

/-- A proof test that waits for the source. -/
theorem proofSeen_vx (src : Nat) (s : State) :
    (proofSeen src s).vx = { s.vx with proof := (proofSeen src s).vx.proof } := by
  unfold proofSeen proofDone
  split
  · split <;> simp
  · rfl

/-- The status word, the lines and the safe state after an assertion (R386, R393, R406). -/
theorem vxAssert_vx (src : Nat) (detail : Word) (s : State) (h : ¬ (44 ≤ src ∧ src ≤ 61)) :
    (vxAssert src detail s).vx.stat = putBit64 s.vx.stat src true
    ∧ (vxAssert src detail s).vx.inj = putBit64 s.vx.inj src false
    ∧ (vxAssert src detail s).vx.level = s.vx.level
    ∧ (vxAssert src detail s).vx.classes = s.vx.classes
    ∧ (vxAssert src detail s).vx.safe = (s.vx.safe || classOf s src detail == 3) := by
  unfold vxAssert
  rw [if_neg h]
  dsimp only
  generalize hu : (if tagged s src (classOf s src detail) detail = true then recordConseq src _ else _) = u
  have hv : u.vx.stat = putBit64 s.vx.stat src true ∧ u.vx.inj = putBit64 s.vx.inj src false ∧ u.vx.level = s.vx.level
      ∧ u.vx.safe = s.vx.safe ∧ u.vx.classes = s.vx.classes := by
    rw [← hu]
    split
    · simp [recordConseq]
    · obtain ⟨a, b, c, d, e, _⟩ := recordGenuine_vx src (classOf s src detail)
        (bitOf64 s.vx.stat src && !bitOf64 s.vx.inj src) detail
        (s.modVx fun v => { v with stat := putBit64 v.stat src true, inj := putBit64 v.inj src false,
                                   genuine3 := if classOf s src detail = 3 then putBit64 v.genuine3 src true else v.genuine3 })
      rw [a, b, c, d, e]; simp
  obtain ⟨h1, h2, h3, h4, h5⟩ := hv
  unfold reaction
  have hp := proofSeen_vx src u
  by_cases hc : classOf s src detail = 3
  · rw [if_pos hc, enterSafe_vx, ← h1, ← h2, ← h3, ← h4, ← h5]
    split
    · rename_i h; simp [h]
    · simp [hc]
  · rw [if_neg hc]
    split
    · split
      · obtain ⟨a, b, c, d, e, _⟩ := holdTarget_vx src (by assumption) (proofSeen src u)
        rw [a, b, c, d, e, hp, ← h1, ← h2, ← h3, ← h4, ← h5]; simp [hc]
      · rw [hp, ← h1, ← h2, ← h3, ← h4, ← h5]; simp [hc]
    · rw [hp, ← h1, ← h2, ← h3, ← h4, ← h5]; simp [hc]

end Sys2Proof.Machine
end

