-- ==== Sys2Proof/Machine/Pins.lean ====
section
/-!
DEFINITION. The pins (R545): the level that the device drives on each of its outputs. Under EXTEST the boundary register drives
them (R546). The pins that are inputs alone have no level of the device's.
-/
namespace Sys2Proof.Machine

/-- An open-drain output: low, or released. -/
def openDrain (low : Bool) : PinLevel := if low then .low else .highZ

/-- A push-pull output. -/
def pushPull (high : Bool) : PinLevel := if high then .high else .low

/-- Output pin number k: under EXTEST the boundary register drives it, otherwise the device does. -/
def outPin (s : State) (k : Nat) (level : PinLevel) : PinLevel :=
  if tapOwnsPins s then (if Config.extestDrives s.tap.bsr k then pushPull (Config.extestLevel s.tap.bsr k) else .highZ)
  else level

/-- An output pin of VDD_IO: high-impedance while that supply is missing (R545). -/
def ioPin (s : State) (k : Nat) (level : PinLevel) : PinLevel := if ioPowered s then outPin s k level else .highZ

/-- ALIVE (R400). -/
def aliveOut (s : State) : PinLevel := ioPin s 0 (pushPull (aliveLevel s))

/-- SAFE_N (R399). -/
def safeNOut (s : State) : PinLevel := ioPin s 1 (safeNPin s)

/-- FAULT_N (R398). -/
def faultNOut (s : State) : PinLevel := ioPin s 2 (openDrain (faultNLow s))

/-- HS_IRQ_N (R512): released in reset and in B0. -/
def irqNOut (s : State) : PinLevel := ioPin s 3 (openDrain (irqLow s && !s.boot.inReset))

/-- TIME_PPS_OUT (R258). -/
def ppsOutPin (s : State) : PinLevel := ioPin s 4 (pushPull s.tm.ppsOut)

/-- FL_CLK while no flash command runs (R545): high-impedance in reset, low from B0 on. -/
def flClkIdle (s : State) : PinLevel := ioPin s 5 (if s.boot.inReset then .highZ else .low)

/-- FL_CS_N while no flash command runs (R545): high-impedance in reset, high from B0 on. -/
def flCsNIdle (s : State) : PinLevel := ioPin s 6 (if s.boot.inReset then .highZ else .high)

/-- FL_IO0 to FL_IO3 while no flash command runs, and HS_IO0 to HS_IO3 outside a transaction: inputs (R490, R545). -/
def ioIdle (s : State) (k : Fin 8) : PinLevel := ioPin s (8 + k.val) .highZ

/-- GPIOk (R534). -/
def gpioPin (s : State) (k : Nat) : PinLevel :=
  ioPin s (16 + k) (if gpioDrives s k then pushPull (s.gl.gpioOut.testBit k) else .highZ)

/-- Mode pin p of channel n: 0 STB_N, 1 EN, 2 WAKE_N (R105, R107, R112). -/
def modeOut (s : State) (n p : Nat) : PinLevel := ioPin s (32 + 4 * n + p) (modePin s n p)

/-- CHn_TXD (R112) where no frame is on the wire. -/
def txdIdle (s : State) (n : Nat) : PinLevel :=
  ioPin s (35 + 4 * n) (match txdLevel s n with | .highZ => .highZ | .recessive => .high | .protocol => .high)

/-- PWR_HOLD, which the always-on domain drives (R413). -/
def pwrHoldOut (s : State) : PinLevel := if s.pw.vao then pushPull s.pw.pwrHold else .highZ

/-- TDO (R546): driven while a register shifts, with the register's next bit. -/
def tdoOut (s : State) : PinLevel :=
  if !ioPowered s || tapHeld s then .highZ
  else match s.tap.ctl with
    | .shiftDr => pushPull (s.tap.dr.headD false)
    | .shiftIr => pushPull (s.tap.ir.headD false)
    | _ => .highZ

/-! ## SerDes pins (R545) -/

/-- A transmitter of the SerDes: high-impedance, in electrical idle, or sending. -/
inductive TxLane where
  | highZ | idle | sends
deriving DecidableEq, Repr

/-- A transmit pair on VDD_SER that runs or not: in electrical idle in reset and in B0. -/
def serTx (s : State) (runs : Bool) : TxLane :=
  if !s.pw.vao || s.pw.mode == .hibernate || s.boot.serLow then .highZ
  else if s.boot.inReset || s.boot.phase == .b0 || !runs then .idle
  else .sends

/-- PE_TX: in electrical idle while the device sleeps (R489). -/
def peTx (s : State) : TxLane := serTx s s.pw.clocked

/-- WL_TX: in electrical idle while the device is unpaired or sleeps (R348). -/
def wlTx (s : State) : TxLane := serTx s (s.dx.pairEn && s.pw.awake)

end Sys2Proof.Machine
end

