-- ==== Sys2Proof/WellFormed.lean ====
section
/-!
DEFINITION. Which commands are well formed: what the outside world can give the device at all. A frame's payload fits its format
and its length code (R43, R44, R65), an entry or a packet has its length (R350, R497), a serial transaction has 1 to 64 words
(R490), a code other than those of GL_KEY is another one (R531), a BAR2 address lies in the pool (R197).
-/
namespace Sys2Proof

/-- Payload bytes of a CAN FD data length code (R44). -/
def dlcBytes (dlc : Nat) : Nat := [0, 1, 2, 3, 4, 5, 6, 7, 8, 12, 16, 20, 24, 32, 48, 64].getD dlc 64

/-- A frame as a bus can carry it: the identifier's width, the length of the payload, fields that the format has. -/
def Frame.wf (f : Frame) : Bool :=
  (f.ide || decide (f.ident.toNat < 2048))
  && (match f.fmt with
    | .cc => decide (f.dlc ≤ 15) && f.data.length == (if f.rtr then 0 else min 8 f.dlc)
    | .fd => decide (f.dlc ≤ 15) && f.data.length == dlcBytes f.dlc
    | .xl => !f.ide && decide (f.dlc ≤ 2047) && f.data.length == f.dlc + 1
    | .trunk => decide (f.dlc ≤ 2048) && (f.rtr || f.data.length == f.dlc))

/-- What a DMA read brings has at most `n` words. -/
def dmaWf (n : Nat) : Dma → Bool
  | .good ws => decide (ws.length ≤ n)
  | .bad _ before => decide (before.length ≤ n)

/-- A part of a received frame is well formed when its frame is. -/
def rxPartWf : RxPart → Bool
  | .sof => true
  | .header f _ => f.wf
  | .crc _ => true
  | .finish _ _ => true
  | .overload _ => true
  | .whole f _ _ _ _ => f.wf

/-- A packet that reaches the row of type `k` has that type in its header, unless a coding error falls inside it (R349). -/
def linkTypeOk (k : Nat) (p : LinkFrame) : Bool := p.coding || p.header.toNat % 256 == k

/-- A command is well formed. -/
def Instr.wf : Instr → Bool
  | .vaoPor => true
  | .corePor _ _ => true
  | .resetN _ _ => true
  | .softReset _ _ _ => true
  | .pePerstN => true
  | .romCheckDone _ => true
  | .referenceStable => true
  | .referenceTimeout => true
  | .pllLocked => true
  | .pllLockTimeout => true
  | .bistDone _ us => decide (us ≤ 4000)
  | .flashCopyDone image => decide (image.length ≤ 1048576)
  | .flashHeaderTimeout => true
  | .sequencerWatchdog => true
  | .pllLockLoss => true
  | .clockMonitorFault _ => true
  | .supplyExcursion _ _ => true
  | .temperatureAlarm => true
  | .monitorDeassert _ => true
  | .complementMismatch _ => true
  | .safeStateComplete => true
  | .tagWindowEnd => true
  | .aliveToggle => true
  | .aliveTimeout => true
  | .proofTestTimeout => true
  | .nop _ => true
  | .identify _ => true
  | .commitConfig _ => true
  | .commitConfigEmpty _ => true
  | .loadImage _ => true
  | .loadImageCommit _ => true
  | .readStatus _ => true
  | .setProfile _ => true
  | .undefinedOpcode _ => true
  | .cmdDoorbell _ _ _ => true
  | .cqDoorbell _ _ _ => true
  | .ringEnable _ _ _ => true
  | .ringDisable _ _ _ => true
  | .commandFetch entry => dmaWf 8 entry
  | .completionWrite _ => true
  | .coalesceTimeout _ => true
  | .dmaReadDone _ result => dmaWf 262144 result
  | .dmaCompletionTimeout _ before => decide (before.length ≤ 262144)
  | .serialWrite _ words _ _ => decide (1 ≤ words.length) && decide (words.length ≤ 64)
  | .serialRead _ _ _ => true
  | .serialStatus _ => true
  | .serialUnknownInstruction => true
  | .pcieLinkDown => true
  | .pcieBadTlp _ => true
  | .stagingSet _ v => v.toNat % 2 ^ 15 != 0
  | .stagingRelease _ _ => true
  | .glKeyArm _ => true
  | .glKeyUnlock _ => true
  | .glKeyLock _ => true
  | .glKeyOtherCode _ v => !([0x5A5A, 0xA5A5, 0].contains (v.toNat % 2 ^ 16))
  | .keyArmTimeout => true
  | .keyRelockTimeout => true
  | .registerWrite _ _ _ _ => true
  | .lowWordRead _ _ => true
  | .chConfigure _ => true
  | .chStart _ => true
  | .chStop _ => true
  | .chSetState _ => true
  | .chRecover _ => true
  | .chCounters _ => true
  | .integrationDone _ => true
  | .rxFrame _ _ p => rxPartWf p
  | .rxCommit _ _ => true
  | .stagedCellWrite _ _ _ => true
  | .txHeadFetch _ _ => true
  | .txAttempt _ _ _ => true
  | .backoffElapsed _ => true
  | .recoveryDone _ => true
  | .boffWindowClose _ => true
  | .dupHoldRelease _ _ _ => true
  | .trxChangeApplied _ => true
  | .trxSettled _ => true
  | .primeArm _ _ _ _ => true
  | .txSubmit _ => true
  | .hostItemCommit _ _ => true
  | .bpTimeout _ => true
  | .txCancel _ => true
  | .txPrime _ => true
  | .ltWrite _ => true
  | .ltWriteDone => true
  | .ltCommit _ => true
  | .ltDrainDone => true
  | .ltCopyDone _ => true
  | .ltRead _ => true
  | .ltOwned _ => true
  | .housekeepingTurn _ => true
  | .elementWindowLowWrite _ _ _ _ => true
  | .elementWindowHighWrite _ _ _ _ => true
  | .gateEnable _ _ _ => true
  | .gateDisable _ _ _ => true
  | .gateHighestWrite _ _ _ => true
  | .qCreate _ => true
  | .qRemove _ => true
  | .qFlush _ => true
  | .qFlushRepair _ => true
  | .qBudget _ => true
  | .qStatus _ => true
  | .windowLockRead _ _ => true
  | .windowDataRead _ _ _ => true
  | .windowPop _ _ _ => true
  | .windowRelease _ _ _ => true
  | .lockTimeout _ => true
  | .auditPassEnd _ _ _ => true
  | .poolWindowWrite addr _ _ => decide (addr < 4194304) && addr % 4 == 0
  | .cdRouteAdd _ => true
  | .cdRouteReenable _ => true
  | .cdRouteRemove _ => true
  | .cdStats _ => true
  | .chordSelect _ => true
  | .chordJudge _ => true
  | .cdStall _ => true
  | .tokenAdd _ => true
  | .cutThroughCommit _ => true
  | .tmSet _ => true
  | .tmStep _ => true
  | .tmRate _ => true
  | .tmRole _ => true
  | .ppsInEdge _ => true
  | .ppsOutRise _ => true
  | .ppsOutFall => true
  | .syncInterval => true
  | .servoHoldTimeout => true
  | .holdoverLimit => true
  | .identifyAnsCommit _ _ => true
  | .marginEchoCommit _ _ => true
  | .consoleAnswer => true
  | .heartbeatInterval => true
  | .claimInterval => true
  | .tgConfig _ => true
  | .tgEnable _ => true
  | .tgDisable _ => true
  | .tgMode _ => true
  | .tgSetpoint _ => true
  | .tgRead _ => true
  | .tgInstant _ _ => true
  | .tgEvaluation => true
  | .tgEmitCommit _ => true
  | .setpointItemRead => true
  | .tgReplay => true
  | .ckConfig _ => true
  | .ckSave _ => true
  | .ckRestore _ => true
  | .ckFeedHost _ _ => true
  | .ckFeedQueue _ => true
  | .ckFeedItem _ _ => true
  | .dxConfig _ => true
  | .dxReinit _ => true
  | .dxSwap _ => true
  | .dxStatus _ => true
  | .dxResync _ => true
  | .linkHbSend => true
  | .hbPacket p _ _ => linkTypeOk 1 p
  | .laneAlignLoss _ => true
  | .linkHbTimeout => true
  | .noticePacket p _ => linkTypeOk 2 p
  | .verdictPacket p _ => linkTypeOk 3 p
  | .refReqPacket p words => linkTypeOk 4 p && words.length == 16
  | .refAnsPacket p _ _ => linkTypeOk 5 p
  | .swapPrepPacket p _ _ => linkTypeOk 6 p
  | .swapAckPacket p _ _ => linkTypeOk 6 p
  | .swapRefusePacket p _ _ => linkTypeOk 6 p
  | .ctlPacket p words => linkTypeOk 7 p && words.length == 4
  | .resyncPacket p _ => linkTypeOk 8 p
  | .recPacket p words after => linkTypeOk 9 p && words.length == 8 && after.length == 4
  | .chunkPacket p words => linkTypeOk 11 p && words.length == 1026
  | .commitPacket p _ _ _ => linkTypeOk 10 p
  | .pairingTimeout => true
  | .busHbTimeout => true
  | .cmpMissingTimeout _ => true
  | .refereeTimeout => true
  | .epochBoundary _ app => dmaWf 18160 app
  | .swapInstant _ => true
  | .swapAckTimeout => true
  | .swapClaimTimeout => true
  | .resyncEpochLimit => true
  | .vxStatus _ => true
  | .vxClear _ => true
  | .vxProofTest _ _ => true
  | .vxFactoryTest _ _ => true
  | .vxClasses _ => true
  | .pwSleepPrepare _ => true
  | .pwSleepCommit _ => true
  | .pwWakeConfig _ => true
  | .dozeOn _ => true
  | .dozeOff _ => true
  | .pwModeSleep _ => true
  | .pwModeHibernate _ => true
  | .reasonSet _ => true
  | .reasonClear _ => true
  | .deviceSleepEntry => true
  | .entryComplete => true
  | .entryTimeout _ => true
  | .exitComplete _ _ => true
  | .busWake _ => true
  | .hostWakePin => true
  | .wakeTimer => true
  | .confirmTimeout _ => true
  | .fwWindowClose _ => true
  | .keepAwakeInterval => true
  | .ballotWindowEnd => true
  | .ballotSendTimeout => true
  | .ballotLapse => true
  | .ballotDelayEnd => true
  | .groupSleepDelayEnd => true
  | .awakeTimerExpiry => true
  | .mpReport _ => true
  | .mpFold _ => true
  | .mpRevert _ => true
  | .mpNomSp _ => true
  | .planningCycleEnd x => x.ros.length == 8
  | .mpStepApply _ => true
  | .hostDmaDrain _ => true
  | .bdpItemCommit _ _ _ => true
  | .laneAligned _ => true
  | .linkPacketEnd => true
  | .pcieLinkUp _ _ => true
  | .resetNAsserted => true
  | .corePorAsserted _ => true
  | .vaoLost => true
  | .clockMonitorRecovered => true
  | .recoveryOccurrence _ => true

end Sys2Proof
end

