-- ==== Sys2Proof/Tests/Slice0.lean ====
section
/-!
SUPPORT. The model's own tests: an ill-formed command for each check of well-formedness, single steps with the result that the
spec's rules give, and, for each obligation, states that meet the hypotheses of its clauses.
-/
namespace Sys2Proof.Tests
set_option Elab.async false
set_option maxRecDepth 100000
open Sys2Proof Sys2Proof.Machine
/-- The device in SERVICE, with the event ring, completion ring 0 and its command ring running over PCI Express. -/
def sv : State :=
  { State.reset with
    boot := { Boot.reset with phase := .service }
    sq := { Sq.reset with
      cqs := [(0, { CqRing.reset with en := true, state := .running, log2 := 4 }), (4, { CqRing.reset with en := true, state := .running, log2 := 8 })] } }
/-- That, in a round that serves channels 14 and 15. -/
def sv7 : State := { sv with round := 7 }
/-- A packet: eight words, the missing ones 0. -/
def pk (l : List Word) : List Word := (List.range 8).map (wd l)
/-- Ring r holds a fetched command. -/
def hold (r : Nat) (serial begun : Bool) (l : List Word) (s : State) : State :=
  s.modCr r fun c => { c with en := true, serial := serial, state := .running, log2 := 4
                              cmd := some { words := pk l, seq := 0, begun := begun, dma := false, discard := false, sub := none, aux := []
                                            comp := none } }
/-- Ring r, over PCI Express, holds a command that has not begun. -/
def cmd (r : Nat) (l : List Word) (s : State) : State := hold r false false l s
/-- Ring r, over the serial port with 64 cells of staging, holds a command that has not begun. -/
def cmdS (r : Nat) (l : List Word) (s : State) : State := hold r true false l (s.modSq fun q => { q with stgCells := 64 })
/-- Ring r holds a command in progress. -/
def startedCmd (r : Nat) (l : List Word) (s : State) : State := hold r false true l s
/-- The packet of ring r's command. -/
def P (s : State) (r : Nat) : List Word := ((s.cr r).cmd.map (·.words)).getD []
/-- GL_KEY is unlocked. -/
def unl (s : State) : State := s.modGl fun g => { g with unlocked := true }
/-- Queue q is OPEN with a consumer. -/
def withQ (q c : Nat) (s : State) : State :=
  { s with pool := { s.pool with queues := mset s.pool.queues q { Queue.reset with state := .opened, consumer := c, max := 8 } } }
/-- An item of queue q in the given cells. -/
def withItem (q cls : Nat) (cells : List Nat) (s : State) : State :=
  { (s.modQueue q fun u => { u with items := u.items ++ [{ cls := cls, cells := cells, seq := s.pool.nextSeq }] }) with
    pool := { (s.modQueue q fun u => { u with items := u.items ++ [{ cls := cls, cells := cells, seq := s.pool.nextSeq }] }).pool with
      owner := cells.foldl (fun m c => mset m c q) s.pool.owner, nextSeq := s.pool.nextSeq + 1 } }
/-- Queue 200 is promised nearly the whole pool. -/
def hog (s : State) : State :=
  { s with sq := { s.sq with stgCells := 18432 }, pool := { s.pool with queues := [(200, { Queue.reset with state := .opened, min := 47100, max := 47100 }), (201, { Queue.reset with state := .opened, max := 8 })], owner := [(100, 201)] } }
/-- A frame being received before its header. -/
def rx0 : RxFrame :=
  { stamp := 0, half := false, chDef := 0, base := 0x10, frame := none, verdict := .pending, chains := [], binds := [], gates := []
    owned := false, check := none, ckCfg := 0, ckCfg2 := 0, engBad := false, result := 0, dataId := 0, seqNo := 0, crcDone := false
    valid := false, own := false, ctSeq := none, ctHead := [] }
/-- An LT_WRITE with nine elements left. -/
def wr9 : LtWrite := { ring := 0, chan := 0, pos := 500, elems := [1, 2, 3, 4, 5, 6, 7, 8, 9], total := 9 }
/-- Route n with the given words and tokens. -/
def rt (n : Nat) (cfg rate : Word) (tok : Nat) (s : State) : State :=
  s.modRoute n fun _ => { Route.reset with cfg := cfg, rate := rate, tokens := tok }
/-- A hold with a copy of route 7 of one cell. -/
def hd : Hold := { lane := 0, cells := [100], route := 7, words := [], fail := none, disabled := false, kept := false, bad := false }
/-- Channel n's hold holds h, whose cell is charged to queue 8. -/
def held (n : Nat) (h : Hold) (s : State) : State :=
  { s with cd := { s.cd with holds := mset s.cd.holds n h }, pool := { s.pool with owner := mset s.pool.owner 100 8 } }
/-- Channel 0's transceiver is in normal mode. -/
def trxOn (s : State) : State := s.modChan 0 fun c => { c with trx := 0, trxTgt := 0 }
/-- The words of a configuration image with one section, LANES, all zeros (R448 to R450). -/
def okWords : List Word :=
  [0x4B46494D, 0x12340001, 0x00100020, 0x000000D0, 1, 0, 0, 0, 0, 0, 0, 0, 0, 0, 0x91371E4D, 0xD449EF0A, 7, 0x50, 0x80, 0x082764DB]
  ++ List.replicate 32 0
/-- That image. -/
def okImage : List Byte := bytesOfWords okWords
/-- An image whose one section, DUPLEX, is all zeros: its content is refused. -/
def badImage : List Byte := bytesOfWords (
  [0x4B46494D, 0x12340001, 0x00100020, 0x00000070, 1, 0, 0, 0, 0, 0, 0, 0, 0, 0, 0x7490D1CA, 0x1B7D674C, 0xB, 0x50, 0x20, 0x8A9136AA] ++ List.replicate 8 0)
/-- A link packet of this type and payload, received whole (R349, R350). -/
def gd (kind : Nat) (ws : List Word) : LinkFrame :=
  { header := packW [(0, 8, kind), (8, 12, packetLen kind)]
    crc := w32 (crc32c (bytesOfWords (packW [(0, 8, kind), (8, 12, packetLen kind)] :: ws))), coding := false }
/-- A link packet with a wrong length. -/
def ng : LinkFrame := { header := 0xFFF00, crc := 0, coding := false }

/-- The next state that an outcome holds. -/
def nx (o : Host.Outcome State Fault Refusal) : Option State := match o with | .next t => some t | _ => none
/-- The outcome is a next state with property p. -/
def ex (o : Host.Outcome State Fault Refusal) (p : State → Bool) : Bool := match o with | .next t => p t | _ => false
/-- The outcome is the next state t. -/
def eqn (o : Host.Outcome State Fault Refusal) (t : State) : Bool := nx o == some t
/-- The command of ring r has reached its completion point with this status and these result words. -/
def endedIn (t : State) (r st : Nat) (a b : Word) : Bool := (t.cr r).cmd.bind (·.comp) == some { status := st, r0 := a, r1 := b }

/-! ## Well-formedness: an ill-formed command for each check, refused -/

/-- A Classical CAN data frame of two bytes. -/
def frameA : Frame :=
  { fmt := .cc, tfmt := 0, ide := false, ident := 0x123, rtr := false, res := false, brs := false, esi := false, sec := false
    sdt := 0, vcid := 0, af := 0, dlc := 2, data := [1, 2] }

/-- The same frame is well formed; one more byte, a 12-bit base identifier, a code length above 15, or data in a remote frame are not. -/
theorem test_wf_cc_frame :
    frameA.wf = true ∧ { frameA with data := [1, 2, 3] }.wf = false ∧ { frameA with ident := 0x800 }.wf = false
    ∧ { frameA with dlc := 16, data := [1, 2, 3, 4, 5, 6, 7, 8] }.wf = false ∧ { frameA with rtr := true }.wf = false := by decide

/-- R44: CAN FD data length code 9 is 12 bytes; CAN XL has no extended identifier and carries at least one byte; R65: a trunk
frame's TLEN is its length. -/
theorem test_wf_other_frames :
    { frameA with fmt := .fd, dlc := 9, data := List.replicate 12 0 }.wf = true
    ∧ { frameA with fmt := .fd, dlc := 9, data := List.replicate 9 0 }.wf = false
    ∧ { frameA with fmt := .fd, dlc := 16, data := List.replicate 64 0 }.wf = false
    ∧ { frameA with fmt := .xl, dlc := 1 }.wf = true ∧ { frameA with fmt := .xl, ide := true, dlc := 1 }.wf = false
    ∧ { frameA with fmt := .xl, dlc := 2 }.wf = false ∧ { frameA with fmt := .xl, dlc := 2048, data := List.replicate 2049 0 }.wf = false
    ∧ { frameA with fmt := .trunk }.wf = true ∧ { frameA with fmt := .trunk, dlc := 3 }.wf = false
    ∧ { frameA with fmt := .trunk, dlc := 2049, rtr := true }.wf = false := by decide +kernel

/-- A received frame, in whole or its header, is judged by its frame. -/
theorem test_wf_rx_parts :
    (Instr.rxFrame 0 0 (.header { frameA with dlc := 3 } [])).wf = false
    ∧ (Instr.rxFrame 0 0 (.whole { frameA with dlc := 3 } [] false .valid [])).wf = false
    ∧ (Instr.rxFrame 0 0 (.whole frameA [] false .valid [])).wf = true := by decide

/-- Reads that bring too much: a command entry of 9 words, an image of more than 1 MiB, an app buffer of more than 1 135 cells
of 64 bytes. -/
theorem test_wf_reads :
    (Instr.commandFetch (.good (List.replicate 9 0))).wf = false ∧ (Instr.commandFetch (.bad .ecrc [])).wf = true
    ∧ (Instr.commandFetch (.bad .ecrc (List.replicate 9 0))).wf = false
    ∧ dmaWf 3 (.good [0, 0, 0, 0]) = false ∧ (Instr.dmaReadDone 0 (.good [0])).wf = true
    ∧ (Instr.epochBoundary 0 (.good [0])).wf = true := by decide

/-- The lengths of serial writes and of link packets. -/
theorem test_wf_lengths :
    (Instr.serialWrite 0 [] 0 16).wf = false ∧ (Instr.serialWrite 0 (List.replicate 65 0) 0 16).wf = false
    ∧ (Instr.refReqPacket ng []).wf = false ∧ (Instr.ctlPacket ng [0]).wf = false ∧ (Instr.recPacket ng [0] []).wf = false
    ∧ (Instr.chunkPacket ng [0]).wf = false
    ∧ (Instr.planningCycleEnd { ros := [], tj := 25, vmin := 800 }).wf = false := by decide

/-- A staging size of 0 is a release, GL_KEY's codes are not other codes, a BAR2 address is a word of the pool, BIST ends within
its 4 ms. -/
theorem test_wf_values :
    (Instr.stagingSet .pcie 0x8000).wf = false ∧ (Instr.glKeyOtherCode .pcie 0x5A5A).wf = false
    ∧ (Instr.poolWindowWrite 4194304 15 0).wf = false ∧ (Instr.poolWindowWrite 2 15 0).wf = false
    ∧ (Instr.bistDone true 4001).wf = false := by decide

/-! ## The host's words -/

/-- The opcode table gives no row any bits, so no word spells a command, and the queue stays as it is. -/
theorem test_no_word_spells_a_command (nbits w : Nat) (s : State) :
    decodeTableWord nbits w = none ∧ s.withFetchWord nbits w = s := ⟨rfl, rfl⟩

/-- R324's check values over the ASCII bytes 123456789. -/
theorem test_check_unit_crcs :
    ([0, 1, 2, 3].map fun p => ckFinal p (ckFold p (ckInit p) [0x31, 0x32, 0x33, 0x34, 0x35, 0x36, 0x37, 0x38, 0x39]))
      = [0xDF, 0x29B1, 0xCBF43926, 0xE3069283] := by decide +kernel

/-- R528, R535 to R541: four registers read their Reset values. -/
theorem test_reset_words :
    ([0x0, 0x1148, 0x10004, 0x12008].map (regWord State.reset)) = [0x4B461664#32, 8#32, 0x1F0#32, 0x5EBEF801#32] := by decide +kernel

/-- A step takes the front of the queue, and on an empty queue a core cycle passes (log entry 1). -/
theorem test_step :
    eqn (step { sv with pending := [.keyArmTimeout, .ppsOutFall] }) { sv with pending := [.ppsOutFall] } = true
    ∧ eqn (step sv) (passCycles 1 sv) = true := by decide +kernel

/-! ## Single steps -/

/-- By hand from the rules that `Obligations.BringUp` names. -/
theorem test_reduced_service_starts :
    (fun s : State => ex (exec .referenceStable s) fun t => t ==
        { s with boot := { s.boot with phase := .b2 }, chans := t.chans, bdp := { s.bdp with cfg := 0x0FFF0010 } }
        && t.chan 3 == { s.chan 3 with state := .integrating, trx := 0, trxTgt := 0, settling := false, pinsDrv := true }
        && t.chan 4 == s.chan 4)
      ({ State.reset with boot := { Boot.reset with rom := true } }) = true := by decide +kernel

/-- By hand from the rules that `Obligations.BringUp` names. -/
theorem test_pll_timeout_is_source_25 :
    (fun s : State => ex (exec .pllLockTimeout s) fun t => bitOf64 t.vx.stat 25 && t.vx.safe)
      ({ State.reset with boot := { Boot.reset with phase := .b2 } }) = true := by decide +kernel

/-- By hand from the rules that `Obligations.BringUp` names. -/
theorem test_flash_timeout_fails_b3 :
    (fun s : State => ex (exec .flashHeaderTimeout s) fun t => t.boot == { s.boot with phase := .failed } && bitOf64 t.vx.stat 36)
      ({ State.reset with boot := { Boot.reset with phase := .b3, reading := 1, reason := 11 } }) = true := by decide +kernel

/-- By hand from the rules that `Obligations.FlashCopyDecides` names. -/
theorem test_good_copy_reaches_service :
    (fun s : State => ex (exec (.flashCopyDone okImage) s) fun t => t.boot.phase == .service && t.vx.aliveRun)
      ({ State.reset with boot := { Boot.reset with phase := .b3, reading := 1 } }) = true := by decide +kernel

/-- By hand from the rules that `Obligations.CorePowerOnReset` names. -/
theorem test_hibernate_exit_cause :
    (fun s : State => ex (exec (.corePor { ({ bootSel := 3, unitId := 1, b1Rate := 2, testMode := false } : Straps) with testMode := true }
        []) s) fun t => t.boot.cause == 3 && t.pw.pwrHold && t.vx.testMode && bitOf64 t.vx.stat 63)
      ({ sv with pw := { sv.pw with mode := .hibernate, pwrHold := false } }) = true := by decide +kernel

/-- By hand from the rules that `Obligations.WarmResets` names. -/
theorem test_soft_reset_cause :
    (fun s : State => ex (exec (.softReset .pcie ({ bootSel := 3, unitId := 1, b1Rate := 2, testMode := false } : Straps) []) s) fun t =>
        t.boot.cause == 2 && t.boot.phase == .b0)
      (unl sv) = true := by decide +kernel

/-- By hand from the rules that `Obligations.Doorbells` names. -/
theorem test_tail_out_of_range :
    (fun s : State => ex (exec (.cmdDoorbell .serial 3 16) s) fun t => (t.cr 3).dbErr && (t.cr 3).tail == (s.cr 3).tail)
      (cmd 3 [0] sv) = true := by decide +kernel

/-- By hand from the rules that `Obligations.Doorbells` names. -/
theorem test_head_wraps :
    (fun s : State => eqn (exec (.cqDoorbell .pcie 0 2) s) (s.modCq 0 fun c => { c with head := 2 }))
      (sv.modCq 0 fun c => { c with tail := 3, head := 14 }) = true := by decide +kernel

/-- By hand from the rules that `Obligations.RingEnableDisable` names. -/
theorem test_ring_enable :
    (fun s : State => ex (exec (.ringEnable .pcie 0 9) s) fun t => (t.cr 0).state == .running && (t.cr 0).log2 == 2)
      ((sv.modCr 0 fun c => { c with state := .disabled, baseLo := 0x1000 })) = true := by decide +kernel

/-- By hand from the rules that `Obligations.RingEnableDisable` names. -/
theorem test_ring_enable_without_completion_ring :
    (fun s : State => eqn (exec (.ringEnable .pcie 0 0x31) s) (s.modCr 0 fun c =>
        { c with en := false, serial := false, log2 := 12, haltKind := 1 }))
      ((sv.modCr 0 fun c => { c with baseLo := 0 }).modCq 0 fun c => { c with state := .disabled }) = true := by decide +kernel

/-- By hand from the rules that `Obligations.CommandFetch` names. -/
theorem test_fetch_wraps :
    (fun s : State => ex (exec (.commandFetch (.good [0, 7])) s) fun t => (t.cr 2).head == 0
        && ((t.cr 2).cmd.map (·.words)) == some [0, 7, 0, 0, 0, 0, 0, 0] && t.sq.fetched == 1 && t.sq.lastRing == 2)
      ((sv.modCr 2 fun c => { c with en := true, state := .running, log2 := 4, head := 15, tail := 3 })) = true := by decide +kernel

/-- By hand from the rules that `Obligations.CommandFetch` names. -/
theorem test_fetch_timeout_halts :
    (fun s : State => ex (exec (.commandFetch (.bad .cplTimeout [])) s) fun t => bitOf64 t.vx.stat 37 && (t.cr 2).state == .halted
        && (t.cr 2).haltKind == hlCode .cplTimeout + 1)
      ((sv.modCr 2 fun c => { c with en := true, state := .running, log2 := 4, head := 15, tail := 3 })) = true := by decide +kernel

/-- By hand from the rules that `Obligations.CompletionWrite` names. -/
theorem test_completion_entry :
    (fun s : State => ex (exec (.completionWrite 0) s) fun t => (t.cr 0).cmd.isNone && (t.cq 0).tail == 1
        && t.outs.contains (.hostWrite 0 (bytesOfWords [5, putFld 1 31 1 (b1 (s.cq 0).phase), 5, 6])))
      (((cmd 0 [0x00050000] sv).modCr 0 fun c =>
          { c with cmd := c.cmd.map fun d => { d with begun := true, discard := false, comp := some { status := 1, r0 := 5, r1 := 6 } } }))
          = true := by decide +kernel

/-- By hand from the rules that `Obligations.SerialAndLink` names. -/
theorem test_serial_faults_and_gl_id :
    (fun s : State => (ex (exec (.serialWrite 0x2000039 [1] 0 30) s) fun t => bitOf64 t.vx.stat 37)
        && (ex (exec (.serialWrite 0 [1] 0 30) s) fun t => bitOf64 t.vx.stat 37)
        && (ex (exec (.serialRead 0#32 0 40) s) fun t => t.outs == [.serialWords [0x4B461664#32] (crc16 (readCovered 0#32
        [0x4B461664#32]))]) && (ex (exec .serialUnknownInstruction s) fun t => bitOf64 t.vx.stat 37)
        && (eqn (exec (.pcieLinkUp true false) s) { s with sq := { s.sq with linkUp := true, linkWidth := 2, linkSpeed := false } })
        && (ex (exec (.pcieBadTlp true) s) fun t => bitOf64 t.vx.stat 37))
      (sv) = true := by decide +kernel

/-- By hand from the rules that `Obligations.Staging` names. -/
theorem test_staging_largest :
    (fun s : State => ex (exec (.stagingSet .pcie 18432) s) fun t => t.sq.stgCells == 18432)
      ({ sv with pool := { sv.pool with owner := [(47103, 9)] } }) = true := by decide +kernel

/-- By hand from the rules that `Obligations.Staging` names. -/
theorem test_staging_refused :
    (fun s : State => eqn (exec (.stagingSet .pcie 18432) s) { s with sq := { s.sq with stgErr := true } }
        && ex (exec (.stagingRelease .pcie 0) s) fun t => t.sq.stgCells == 0)
      ({ sv with pool := { sv.pool with owner := [(47104, 9)] } }) = true := by decide +kernel

/-- By hand from the rules that `Obligations.RegisterAccess` names. -/
theorem test_registers :
    (fun s : State => eqn (exec (.registerWrite .pcie 0x14 7 14) s) s
        && eqn (exec (.registerWrite .pcie 0x14 0x70007 15) s) { s with gl := { s.gl with relockUs := 7 } }
        && eqn (exec (.registerWrite .serial 0x50 0xFFFFFFFF 15) s) { s with bdp := { s.bdp with cfg := 0x0FFF01FF } }
        && eqn (exec (.registerWrite .pcie 0x4010 7 15) s) { s with tm := { s.tm with servo := 7 } }
        && eqn (exec (.registerWrite .pcie 0x84 0x70007 15) s) { s with gl := { s.gl with gpioOut := 7 } }
        && eqn (exec (.lowWordRead .pcie 0) s) { s with outs := [.regRead .pcie 0 0x4B461664] }
        && eqn (exec (.lowWordRead .pcie 0x4000) s)
        { s with gl := { s.gl with hiLatch := [(latchKey .pcie 0x4000, 0)] }, outs := [.regRead .pcie 0x4000 0] }
        && eqn (exec (.lowWordRead .pcie 0x4004) s) { s with outs := [.regRead .pcie 0x4004 0] })
      (unl sv) = true := by decide +kernel

/-- By hand from the rules that `Obligations.PoolWindow` names. -/
theorem test_byte_enables :
    (fun s : State => ex (exec (.poolWindowWrite 4194296 6 0x04030201) s) fun t => t ==
        { s with pool := { s.pool with mem := [(4194297, 2), (4194298, 3)] } })
      (unl sv) = true := by decide +kernel

/-- By hand from the rules that `Obligations.GlobalCommands` names. -/
theorem test_undefined_opcode :
    (fun s : State => eqn (exec (.undefinedOpcode 0) s) (ended 0 eUnsupported 0 0 s))
      (cmd 0 [0x7E] sv) = true := by decide +kernel

/-- By hand from the rules that `Obligations.GlobalCommands` names. -/
theorem test_nop :
    (fun s : State => eqn (exec (.nop 0) s) (ended 0 stOk 5 6 s))
      (cmd 0 [0, 0, 5, 6] sv) = true := by decide +kernel

/-- By hand from the rules that `Obligations.GlobalCommands` names. -/
theorem test_legacy_limit :
    (fun s : State => eqn (exec (.setProfile 0) s) (ended 0 eProfile (glProfile s.boot) 5 s))
      (cmd 0 [5, 1] (withQ 64 0 sv)) = true := by decide +kernel

/-- By hand from the rules that `Obligations.ImageCommands` names. -/
theorem test_load_waits_for_data :
    (fun s : State => eqn (exec (.loadImageCommit 0) s) ((started 0 s).modCmd 0 fun d => { d with dma := true }))
      (cmd 0 [0x103, 0, 64, 0, 128] ({ sv with boot := { sv.boot with phase := .b3, straps := { sv.boot.straps with bootSel := 3 } } } :
          State)) = true := by decide +kernel

/-- By hand from the rules that `Obligations.ImageCommands` names. -/
theorem test_commit_reaches_service :
    (fun s : State => ex (exec (.commitConfig 0) s) fun t => t.boot.phase == .service && t.vx.aliveRun)
      (cmd 0 [2] ({ sv with boot := { sv.boot with image := some okImage, phase := .b3, straps := { sv.boot.straps with bootSel := 3 } } }
          : State)) = true := by decide +kernel

/-- By hand from the rules that `Obligations.ImageCommands` names. -/
theorem test_empty_commit :
    (fun s : State => ex (exec (.commitConfigEmpty 0) s) fun t => t.boot.phase == .service && t.vx.aliveRun)
      (cmd 0 [0x102] ({ sv with boot := { sv.boot with phase := .b3, straps := { sv.boot.straps with bootSel := 3 } } } : State)) = true :=
          by decide +kernel

/-- By hand from the rules that `Obligations.LevelSourcesAssert` names. -/
theorem test_complement_mismatch :
    (fun s : State => ex (exec (.complementMismatch 5) s) fun t => t.vx.cplErr && t.vx.safe && bitOf64 t.vx.level 62
        && bitOf64 t.vx.stat 62)
      (sv) = true := by decide +kernel

/-- By hand from the rules that `Obligations.FirstFault` names. -/
theorem test_first_fault :
    (fun s : State => ex (exec .temperatureAlarm s) fun t => t.vx.fValid && t.vx.fSource == 30 && !t.vx.fInjected && t.vx.fTime == s.tm.now
        && t.vx.conseq == 0)
      (sv) = true := by decide +kernel

/-- By hand from the rules that `Obligations.FirstFault` names. -/
theorem test_overflow :
    (fun s : State => ex (exec .temperatureAlarm s) fun t => t.vx.fSource == 3 && t.vx.fOverflow)
      ({ sv with vx := { (sv).vx with fValid := true, fSource := 3, fTime := 5 } }) = true := by decide +kernel

/-- By hand from the rules that `Obligations.FirstFault` names. -/
theorem test_tagged :
    (fun s : State => ex (exec .temperatureAlarm s) fun t => t.vx.conseq == 1 && t.vx.conseqLast == 30 && !t.vx.fValid)
      ({ sv with vx := { (sv).vx with windows := [(.device, [])] } }) = true := by decide +kernel

/-- By hand from the rules that `Obligations.VertexCommands` names. -/
theorem test_vx_clear :
    (fun s : State => ex (exec (.vxClear 0) s) fun t => t.vx.stat == 0x100000006#64 && t.vx.level == s.vx.level)
      (cmd 0 [0x71, 0, 0xF, 0x10] { sv with vx := { (sv).vx with stat := 0x100000007#64, level := 2#64, genuine3 := 4#64 } }) = true :=
          by decide +kernel

/-- By hand from the rules that `Obligations.VertexCommands` names. -/
theorem test_fixed_class :
    (fun s : State => eqn (exec (.vxClasses 0) s) (ended 0 eParam 0x57FD7552 0x005855F5 s))
      (cmd 0 [0x73, 0] (unl sv)) = true := by decide +kernel

/-- By hand from the rules that `Obligations.ProofTests` names. -/
theorem test_proof_test :
    (fun s : State => ex (exec (.vxProofTest 0 (some 5)) s) fun t => bitOf64 t.vx.stat 43 && bitOf64 t.vx.inj 43 && !t.vx.safe
        && t.vx.held == [] && t.vx.proof.isNone)
      (cmd 0 [0x72, 43] sv) = true := by decide +kernel

/-- By hand from the rules that `Obligations.ProofTests` names. -/
theorem test_factory_test :
    (fun s : State => ex (exec (.vxFactoryTest 0 0) s) fun t => t.vx.safe)
      (cmd 0 [0x172, 0, 2] { sv with vx := { (sv).vx with testMode := true, aliveRun := true } }) = true := by decide +kernel

/-- By hand from the rules that `Obligations.ChannelConfigureAndStart` names. -/
theorem test_configure :
    (fun s : State => ex (exec (.chConfigure 0) s) fun t => (t.chan 15).mode == 0x70 && (t.chan 15).nom == (s.chan 15).nom &&& 0x200
        && (t.chan 15).state == .stopped && !inProgress t 0 && t.chan 3 == s.chan 3)
      (stgWrite (cmdS 0 [0x10, 15] sv) 0 (bytesOfWords [0, 0x70])) = true := by decide +kernel

/-- By hand from the rules that `Obligations.ChannelConfigureAndStart` names. -/
theorem test_start_limit :
    (fun s : State => eqn (exec (.chStart 0) s) (ended 0 eParam 0 0 s))
      (cmd 0 [0x11, 15] (sv.modChan 15 fun c => { c with nom := 0 })) = true := by decide +kernel

/-- By hand from the rules that `Obligations.ChannelRecover` names. -/
theorem test_recover :
    (fun s : State => eqn (exec (.chRecover 0) s) (ended 0 stOk (boffStatWord { s.chan 15 with boff := .recovering, seqCnt := 0 }) 0
        (s.modChan 15 fun c => { c with boff := .recovering, seqCnt := 0 })))
      (cmd 0 [0x14, 15] (sv.modChan 15 fun c => { c with boff := .backoff, seqCnt := 7 })) = true := by decide +kernel

/-- By hand from the rules that `Obligations.ChannelTimers` names. -/
theorem test_bus_off_ends :
    (fun s : State => ex (exec (.recoveryDone 15) s) fun t => (t.chan 15).state == .active && (t.chan 15).boff == .none
        && (t.chan 15).tecCnt == 0)
      ((sv.modChan 15 fun c => { c with boff := .recovering, state := .busOff, seqCnt := 127, tecCnt := 256, trx := 0, trxTgt := 0 })) =
          true := by decide +kernel

/-- By hand from the rules that `Obligations.ChannelTimers` names. -/
theorem test_hold_release :
    (fun s : State => ex (exec (.dupHoldRelease .pcie 15 0x40001) s) fun t => (t.chan 15).dupStat == 4 && (t.chan 15).dupCnt == 0)
      ((sv.modChan 15 fun c => { c with dupStat := 0x40005, dupSrc := 18, dupCnt := 3 })) = true := by decide +kernel

/-- By hand from the rules that `Obligations.ChannelStopAndCounters` names. -/
theorem test_stop_waits :
    (fun s : State => ex (exec (.chStop 0) s) fun t => (t.chan 15).state == .stopping && inProgress t 0)
      (cmd 0 [0x12, 15] (sv.modChan 15 fun c => { c with state := .active, rx := some rx0 })) = true := by decide +kernel

/-- By hand from the rules that `Obligations.ChannelStopAndCounters` names. -/
theorem test_counters :
    (fun s : State => ex (exec (.chCounters 0) s) fun t => t.outs == [.hostWrite 0x1000 (bytesOfWords ([5] ++ List.replicate 42 0 ++ [6] ++
        List.replicate 20 0))] && endedIn t 0 stOk (errcWord (s.chan 15)) (chStateWord s 15))
      (cmd 0 [0x15, 15, 0x1000] (sv.modChan 15 fun c => { c with cnt := [(0, 5), (172, 6)] })) = true := by decide +kernel

/-- By hand from the rules that `Obligations.Transceivers` names. -/
theorem test_trx_waits :
    (fun s : State => eqn (exec (.chSetState 0) s) ((started 0 s).modChan 15 fun c =>
        { c with trxTgt := 1, settling := true, pinsDrv := true, trxRing := some 0 }))
      (cmd 0 [0x13, 15, 1] (sv.modChan 15 fun c => { c with trx := 0, trxTgt := 0, rx := some rx0 })) = true := by decide +kernel

/-- By hand from the rules that `Obligations.Transceivers` names. -/
theorem test_trx_settles :
    (fun s : State => ex (exec (.chSetState 0) s) fun t => t.chan 15 ==
        { s.chan 15 with trx := 3, trxTgt := 3, settling := true, pinsDrv := true, trxRing := some 0, dataPh := false, state := .integrating, cnt := (t.chan 15).cnt }
        && inProgress t 0)
      (cmd 0 [0x13, 15, 3] (sv.modChan 15 fun c => { c with trx := 0, trxTgt := 0, state := .active })) = true := by decide +kernel

/-- By hand from the rules that `Obligations.PrimeBuffers` names. -/
theorem test_tx_prime :
    (fun s : State => ex (exec (.txPrime 0) s) fun t => (primeOf t 15 2).armed && (primeItem (primeOf t 15 2)).data == [5, 0]
        && (t.chan 15).loaded == some 2 && !inProgress t 0)
      (stgWrite (cmdS 0 [0x42, 0x2F, 0, 0, 5] (sv.modChan 15 fun c => { c with state := .active, trx := 0, trxTgt := 0 })) 0 (bytesOfWords
          [2, 0, 0, 0, 0, 0, 0, 0, 5])) = true := by decide +kernel

/-- By hand from the rules that `Obligations.HostSubmissions` names. -/
theorem test_submit :
    (fun s : State => eqn (exec (.txSubmit 0) s) ((started 0 s).modCmd 0 fun d =>
        { d with dma := false, sub := some { queue := 9, cls := 1, words := [0x80100004, 0, 0, 0, 0, 0, 0, 0], data := [1, 2, 3, 4], cells := [], waited := false, marked := false, arr := s.pool.nextSeq } }))
      (stgWrite (cmdS 0 [0x40, 9] (withQ 9 5 sv)) 0 (bytesOfWords [0x00100004, 0, 0, 0, 0, 0, 0, 0, 0x04030201])) = true :=
          by decide +kernel

/-- By hand from the rules that `Obligations.HostSubmissions` names. -/
theorem test_item_committed :
    (fun s : State => ex (exec (.hostItemCommit 0 7) s) fun t => (t.queue 9).items.map (·.cells) == [[5]] && endedIn t 0 stOk 1 0)
      (((startedCmd 0 [0x40, 9] { (withQ 9 5 sv) with pool := { (withQ 9 5 sv).pool with owner := [(5, 9)] } }).modCr 0 fun c =>
          { c with cmd := c.cmd.map fun d => { d with sub := some { queue := 9, cls := 1, words := [0x80100004, 0, 0, 0, 0, 0, 0, 0], data := [1, 2, 3, 4], cells := [5], waited := false, marked := false } } }))
          = true := by decide +kernel

/-- By hand from the rules that `Obligations.HostSubmissions` names. -/
theorem test_back_pressure :
    (fun s : State => ex (exec (.hostItemCommit 0 7) s) fun t => ((t.cr 0).cmd.bind (·.sub)).map (·.waited) == some true
        && (t.queue 9).full && inProgress t 0)
      ((((startedCmd 0 [0x40, 9] (withQ 9 5 sv)).modCr 0 fun c =>
          { c with cmd := c.cmd.map fun d => { d with sub := some { queue := 9, cls := 1, words := [0x80100004, 0, 0, 0, 0, 0, 0, 0], data := [1, 2, 3, 4], cells := [], waited := false, marked := false } } })).modQueue
          9 fun u => { u with max := 0 }) = true := by decide +kernel

/-- By hand from the rules that `Obligations.CancelAndPicker` names. -/
theorem test_cancel_latched :
    (fun s : State => ex (exec (.txCancel 0) s) fun t => (t.chan 15).latch.map (fun l => (l.cancel, l.rings)) == some (.early, [0])
        && inProgress t 0)
      (cmd 0 [0x41, 0x2F, 7] (sv.modChan 15 fun c =>
          { c with state := .active, trx := 0, trxTgt := 0, primes := [(2, { Prime.reset with desc := [(0, 8)], armed := true, ctl := 0x70000 })], latch := some { source := 2, item := { words := [], data := [] }, af := 0, deadline := false, aborting := false, cancel := .none, rings := [], retry := true, stamp := 0, ctFrom := none, check := none, engBad := false, sent := [] } }))
          = true := by decide +kernel

/-- By hand from the rules that `Obligations.CancelAndPicker` names. -/
theorem test_attempt_latches :
    (fun s : State => ex (exec (.txAttempt 15 0 (.latch false)) s) fun t => (t.chan 15).latch.map (fun l => (l.source, l.deadline, l.item
        == primeItem (primeOf s 15 2))) == some (2, false, true))
      ((sv.modChan 15 fun c =>
          { c with state := .active, trx := 0, trxTgt := 0, primes := [(2, { Prime.reset with desc := [(0, 8)], armed := true, ctl := 0x70000 })], loaded := some 2 }))
          = true := by decide +kernel

/-- By hand from the rules that `Obligations.ReceivedFrames` names. -/
theorem test_sof :
    (fun s : State => ex (exec (.rxFrame 15 4 .sof) s) fun t => (t.chan 15).rx.map (fun x => (x.half, x.base, x.frame.isNone, x.stamp)) ==
        some (activeHalf s 15, bdpBase s, true, sofStamp (passCycles 4 s) 15))
      ((sv.modChan 15 fun c => { c with state := .active, trx := 0, trxTgt := 0 })) = true := by decide +kernel

/-- By hand from the rules that `Obligations.ReceivedFrames` names. -/
theorem test_commit_record :
    (fun s : State => ex (exec (.rxCommit 15 .none) s) fun t => (t.queue 9).items == [{ cls := 2, cells := [100], seq := s.pool.nextSeq }]
        && (t.chan 15).commits == [])
      (((withQ 9 0 sv).modChan 15 fun c =>
          { c with commits := [{ rx0 with chains := [{ dest := .queue 9 2, element := 3, queue := 9, cls := 2, cells := [100], final := true, marked := false }] }] }))
          = true := by decide +kernel

/-- By hand from the rules that `Obligations.LatticeTable` names. -/
theorem test_lt_write_ends :
    (fun s : State => ex (exec .ltWriteDone s) fun t => endedIn t 0 stOk 2 0 && t.round == 1 && !inProgress t 0 && t.lat.writes == []
        && elemAt t (elemIdx true 0 510) == 5#64 && elemAt t (elemIdx true 0 511) == 7#64 && t.lat.elems.length == 2)
      ((startedCmd 0 [0x20, 510, 2] sv).modLat fun l =>
          { l with writes := [{ ring := 0, chan := 0, pos := 510, total := 2, elems := [5#64, 7#64] }] }) = true := by decide +kernel

/-- By hand from the rules that `Obligations.LatticeTable` names. -/
theorem test_element_window :
    (fun s : State => eqn (exec (.elementWindowLowWrite .pcie 7 511 5) s) (s.modLat fun l => { l with held := some (512 * 7 + 511, 5) })
        && ex (exec (.elementWindowHighWrite .pcie 7 511 5) s) fun t => elemAt t (elemIdx true 7 511) == join64 9 5 && t.lat.held.isNone)
      (sv.modLat fun l => { l with held := some (512 * 7 + 511, 9) }) = true := by decide +kernel

/-- By hand from the rules that `Obligations.LatticeCommit` names. -/
theorem test_lt_commit :
    (fun s : State => ex (exec (.ltCommit 0) s) fun t => activeHalf t 0 && !activeHalf t 1 && activeHalf t 15 && copying t 15
        && copying t 0 && !inProgress t 0)
      (cmd 0 [0x21, 0x8001, 1] sv) = true := by decide +kernel

/-- By hand from the rules that `Obligations.LatticeCommit` names. -/
theorem test_lt_commit_drains :
    (fun s : State => ex (exec (.ltCommit 0) s) fun t => activeHalf t 0 && draining t 0 && !copying t 0 && inProgress t 0)
      (cmd 0 [0x21, 1, 1] (sv.modChan 0 fun c => { c with rx := some rx0 })) = true := by decide +kernel

/-- By hand from the rules that `Obligations.HousekeepingAndGates` names. -/
theorem test_write_back :
    (fun s : State => ex (exec (.housekeepingTurn []) s) fun t => mget 0 t.lat.elemErr 5 == 0 && t.lat.backs == [7])
      (sv.modLat fun l => { l with backs := [5, 7], elemErr := [(5, 1)] }) = true := by decide +kernel

/-- By hand from the rules that `Obligations.HousekeepingAndGates` names. -/
theorem test_scrub_pass :
    (fun s : State => eqn (exec (.housekeepingTurn []) s) { s with round := 1, lat := { s.lat with scrubPos := 0, passes := 0 } })
      (sv.modLat fun l => { l with scrubEn := true, scrubPos := 1055, passes := 65535 }) = true := by decide +kernel

/-- By hand from the rules that `Obligations.HousekeepingAndGates` names. -/
theorem test_gate_registers :
    (fun s : State => eqn (exec (.gateEnable .serial 255 0x2FFF) s) (s.modGate 255 fun e =>
        { e with pairAddr := 0xFFF, en := true, armMode := true })
        && eqn (exec (.gateDisable .serial 255 0x3000) s) (s.modGate 255 fun e => { e with pairAddr := 0, en := false, armMode := true })
        && ex (exec (.gateHighestWrite .serial 255 0xFFFF) s) fun t => t.gate 255 ==
        { s.gate 255 with armed := true, highest := 0xFFFF, sat := true, hostTime := some s.tm.now })
      (unl sv) = true := by decide +kernel

/-- By hand from the rules that `Obligations.QueueLifecycle` names. -/
theorem test_q_create_busy :
    (fun s : State => eqn (exec (.qCreate 0) s) (ended 0 eBusy 0 0 s))
      (cmd 0 [0x30, 9, 0x00080004, 0] (hog sv)) = true := by decide +kernel

/-- By hand from the rules that `Obligations.QueueLifecycle` names. -/
theorem test_q_create :
    (fun s : State => ex (exec (.qCreate 0) s) fun t => t.pool.queues == mset s.pool.queues 255
        { Queue.reset with state := .opened, consumer := 5, txCh := 3, txPos := 2, min := 35, max := 64, xlFed := xlChannel s 3, notify := true }
        && endedIn t 0 stOk (qCfgWord t 255) 0)
      (cmd 0 [0x30, 255, 0x00400023, 0x1235] sv) = true := by decide +kernel

/-- By hand from the rules that `Obligations.QueueFlush` names. -/
theorem test_q_flush :
    (fun s : State => ex (exec (.qFlush 0) s) fun t => (t.queue 9).items.length == 1 && (t.queue 9).state == .opened
        && endedIn t 0 stOk 1 2 && t.pool.owner == [(200, 9)])
      (cmd 0 [0x31, 9, 1] ((withItem 9 0 [100, 101] (withItem 9 1 [200] (withQ 9 0 sv))).modQueue 9 fun u => { u with state := .opened }))
          = true := by decide +kernel

/-- By hand from the rules that `Obligations.QueueFlush` names. -/
theorem test_audit_pass :
    (fun s : State => eqn (exec (.auditPassEnd [] false false) s) { s with round := 2, pool := { s.pool with passes := 0, auditPos := 0 } }
        && ex (exec (.auditPassEnd [] true false) s) fun t => t.pool.failSeen && bitOf64 t.vx.stat 23)
      ({ sv with round := 1 }.modPool fun p => { p with auditEn := true, passes := 4095, auditPos := 2047 }) = true := by decide +kernel

/-- By hand from the rules that `Obligations.HostWindow` names. -/
theorem test_lock :
    (fun s : State => ex (exec (.windowLockRead .serial 9) s) fun t => (t.queue 9).underrun
        && t.outs.head? == some (.regRead .serial (0x38000 + 9 * 0x80 + 0x40) 2))
      (withQ 9 0 sv) = true := by decide +kernel

/-- By hand from the rules that `Obligations.HostWindow` names. -/
theorem test_pop :
    (fun s : State => eqn (exec (.windowPop .serial 9 0) s) (s.modQueue 9 fun u => { u with popErr := true })
        && eqn (exec (.windowRelease .serial 9 0) s) (s.modQueue 9 fun u => { u with popErr := true }))
      (withQ 9 0 sv) = true := by decide +kernel

/-- By hand from the rules that `Obligations.RouteCommands` names. -/
theorem test_route_add :
    (fun s : State => ex (exec (.cdRouteAdd 0) s) fun t => t.route 1023 == { Route.reset with cfg := 0x903, rate := 0x020010, tokens := 2 }
        && endedIn t 0 stOk 0x903 0)
      (cmd 0 [0x48, 1023, 0x900, 0, 0, 0x020010] (rt 1023 0 0 0 (withQ 9 5 sv))) = true := by decide +kernel

/-- By hand from the rules that `Obligations.RouteCommands` names. -/
theorem test_route_remove_waits :
    (fun s : State => ex (exec (.cdRouteRemove 0) s) fun t => (t.route 7).cfg == 2 && endedIn t 0 stOk 0 0)
      (cmd 0 [0x149, 7] (rt 7 3 0 0 sv)) = true := by decide +kernel

/-- By hand from the rules that `Obligations.ChordSlots` names. -/
theorem test_chord_select :
    (fun s : State => ex (exec (.chordSelect 15) s) fun t => (t.queue 9).items == []
        && (holdOf t 15).map (fun h => (h.lane, h.cells, h.route, h.disabled, h.fail)) == some (3, [100], 0, true, none))
      (withItem 9 1 [100] (withQ 9 3 { sv7 with cd := { sv.cd with laneEn := [(15, 8)], chIn := [(15, 0x09000000)] } })) = true :=
          by decide +kernel

/-- By hand from the rules that `Obligations.ChordSlots` names. -/
theorem test_chord_forward :
    (fun s : State => ex (exec (.chordJudge 15) s) fun t => (holdOf t 15).isNone && mget 0 (t.route 7).cnt 0 == 1
        && (t.route 7).tokens == 1 && t.pool.owner == [(100, 9)] && (t.queue 9).items.length == 1)
      (held 15 hd (rt 7 0x903 0x020010 2 (withQ 9 5 (trxOn sv7)))) = true := by decide +kernel

/-- By hand from the rules that `Obligations.TimeCommands` names. -/
theorem test_rate_limit :
    (fun s : State => eqn (exec (.tmRate 0) s) (ended 0 stOk 0 0 { s with tm := { s.tm with adj := -500000, integ := -500000 } }))
      (cmd 0 [0x50, 2, 0xFFF85EE0] sv) = true := by decide +kernel

/-- By hand from the rules that `Obligations.TimeCommands` names. -/
theorem test_step_wraps :
    (fun s : State => ex (exec (.tmStep 0) s) fun t => endedIn t 0 stOk 4 0 && t.tm.now == 4)
      (cmd 0 [0x50, 1, 0xFFFFFFFF, 0xFFFFFFFF] { sv with tm := { sv.tm with now := 5 } }) = true := by decide +kernel

/-- By hand from the rules that `Obligations.TimeEvents` names. -/
theorem test_pps_step :
    (fun s : State => ex (exec (.ppsInEdge 0) s) fun t => t.tm.state == 1 && t.tm.ppsIn == 1999999990
        && t.tm.now == BitVec.ofInt 64 (((passCycles 0 s).tm.now.toNat : Int) - (1999999990 - (1999999990 + 500000000) / 1000000000 *
        1000000000)))
      ({ sv with boot := { sv.boot with phase := .service }, pw := { sv.pw with mode := .run }, tm := { sv.tm with ppsCfg := 0x00640003#32, now := 2000000000#64, role := 9, state := 0, ppsAdj := 10 } })
          = true := by decide +kernel

/-- By hand from the rules that `Obligations.OwnFrames` names. -/
theorem test_bdp_commit :
    (fun s : State => ex (exec (.bdpItemCommit 0 1 5) s) fun t => (dueOf t 0 1).isNone && (t.queue 9).items.length == 1
        && t.bdp.own.length == 1)
      ((((withQ 9 5 sv).modChan 0 fun c => { c with bdpCfg := 0x901 }).modBdp fun b =>
          { b with due := [{ ch := 0, kind := 1, aux := 0, words := [] }] })) = true := by decide +kernel

/-- By hand from the rules that `Obligations.DuplexCommands` names. -/
theorem test_dx_config :
    (fun s : State => ex (exec (.dxConfig 0) s) fun t => t.dx.state == 1 && t.dx.pairEn && t.dx.supMask == 1 && t.dx.claim == s.dx.claim
        && !inProgress t 0 && t.dx.cmpUs == 1000 && t.dx.refTmo == 40)
      (cmd 0 [0x68, 0, 0x10431, 100, 0x2803E8, 0, 0, 0] ((sv.modDx fun d => { d with unit := 1 }).modChan 0 fun c =>
          { c with bdpCfg := 1 })) = true := by decide +kernel

/-- By hand from the rules that `Obligations.DuplexCommands` names. -/
theorem test_dx_reinit :
    (fun s : State => ex (exec (.dxReinit 0) s) fun t => t.dx.state == 2 && t.dx.claim == 65535 && t.dx.highest == 65535
        && t.ret.claim == 65535 && !inProgress t 0)
      (cmd 0 [0x168, 0, 0x10431, 100, 0x2803E8, 0, 0, 0x7FFF]
          { ((sv.modDx fun d => { d with unit := 1 }).modChan 0 fun c => { c with bdpCfg := 1 }) with dx := { (((sv.modDx fun d => { d with unit := 1 }).modChan 0 fun c => { c with bdpCfg := 1 })).dx with pairEn := true, state := 2, supMask := 1, highest := 65535, claim := 9 } })
          = true := by decide +kernel

/-- By hand from the rules that `Obligations.LinkPackets` names. -/
theorem test_hb_packet :
    (fun s : State => eqn (exec .linkHbSend s)
        { s with dx := { s.dx with hbCount := 0, txNow := some ({ kind := 1, words := [packW [(0, 3, s.dx.state), (3, 1, s.dx.unit), (4, 2, worst s), (16, 16, s.dx.claim)], packW [(0, 16, if s.dx.state = 2 then s.dx.epochNo else s.dx.committed), (16, 16, s.dx.hbCount)]] } : Packet), txSeq := 0 }, outs := .linkPacket (packetWords 4095 ({ kind := 1, words := [packW [(0, 3, s.dx.state), (3, 1, s.dx.unit), (4, 2, worst s), (16, 16, s.dx.claim)], packW [(0, 16, if s.dx.state = 2 then s.dx.epochNo else s.dx.committed), (16, 16, s.dx.hbCount)]] } : Packet)) :: s.outs })
      ({ sv with dx := { (sv).dx with linkUp := true, lane0 := true, lane1 := true, pairEn := true, state := 4, committed := 70000, txSeq := 4095, hbCount := 65535, claim := 3 } })
          = true := by decide +kernel

/-- By hand from the rules that `Obligations.LinkPackets` names. -/
theorem test_hb_received :
    (fun s : State => (ex (exec (.hbPacket (gd 1 [0xFFFF0012, 0]) 0xFFFF0012 0) s) fun t => t.dx.linkUp
        && t.dx.partner == some { state := 2, unit := 0, worst := 1, claim := 65535 } && t.dx.highest == 65535 && t.dx.state == 3))
      ({ sv with dx := { (sv).dx with pairEn := true, lane0 := true, lane1 := true, state := 1 } }) = true := by decide +kernel

/-- By hand from the rules that `Obligations.Epochs` names. -/
theorem test_commit_packet :
    (fun s : State => ex (exec (.commitPacket (gd 10 [7, 4, 0x29308CF4]) 7 4 0x29308CF4) s) fun t => t.dx.rxEpoch.isNone
        && t.dx.committed == 7 && t.dx.commitBuf == [1, 2, 3, 4] && t.dx.discards == s.dx.discards)
      ({ sv with dx := { (sv).dx with linkUp := true, lane0 := true, lane1 := true, pairEn := true, state := 4, rxEpoch := some { number := 7, next := 1, bytes := [1, 2, 3, 4, 5], bad := false } } })
          = true := by decide +kernel

/-- By hand from the rules that `Obligations.DuplexTimersAndSwap` names. -/
theorem test_swap_instant :
    (fun s : State => ex (exec (.swapInstant 0) s) fun t => t.dx.state == 4 && t.dx.swap.map (·.passed) == some true)
      ({ sv with dx := { (sv).dx with linkUp := true, lane0 := true, lane1 := true, pairEn := true, state := 2, swap := some { mine := true, instant := 0, acked := true, passed := false, ring := some 0 } } })
          = true := by decide +kernel

/-- By hand from the rules that `Obligations.TangentCommands` names. -/
theorem test_tg_config :
    (fun s : State => ex (exec (.tgConfig 0) s) fun t => (t.ctx 5).state == .disabled && (t.ctx 5).word 1 == 100
        && (t.ctx 5).word 22 == tgfNorm 0 && (t.ctx 5).word 24 == tgfNorm 0 && (t.ctx 5).latch == 3
        && endedIn t 0 stOk (ctxStat (t.ctx 5)) 0)
      (stgWrite (cmdS 0 [0x58, 5] ((withQ 9 5 sv).modCtx 5 fun x =>
          { x with words := [(1, 100), (2, 0x12001), (5, 8)], state := .failed, valid := true, latch := 3 })) 0 (bytesOfWords [0, 100,
          0x12001, 0, 0, 8])) = true := by decide +kernel

/-- By hand from the rules that `Obligations.TangentCommands` names. -/
theorem test_tg_enable :
    (fun s : State => ex (exec (.tgEnable 0) s) fun t => (t.ctx 5).state == .enabled && (t.ctx 5).word 25 == tgfZero
        && (t.ctx 5).word 24 == (s.ctx 5).word 22 && !inProgress t 0)
      (cmd 0 [0x59, 5, 2] ((withQ 9 5 sv).modCtx 5 fun x => { x with words := [(1, 100), (2, 0x12001), (5, 8)], state := .disabled })) =
          true := by decide +kernel

/-- By hand from the rules that `Obligations.TangentWork` names. -/
theorem test_instant_skipped :
    (fun s : State => ex (exec (.tgInstant 5 0) s) fun t => (t.ctx 5).pendK == some (5, (passCycles 0 s).tm.now) && (t.ctx 5).lastK == 4
        && fld ((t.ctx 5).word 29) 0 16 == 1)
      ((({ ((withQ 9 5 sv).modCtx 5 fun x => { x with words := [(1, 100), (2, 0x12001), (5, 8)], state := .enabled, pendK := some (4, 4000000) }) with tm := { sv.tm with now := 5000000#64 } }
          : State))) = true := by decide +kernel

/-- By hand from the rules that `Obligations.TangentWork` names. -/
theorem test_tg_frame_committed :
    (fun s : State => ex (exec (.tgEmitCommit 7) s) fun t => (t.ctx 5).frame.isNone && t.tg.emitQ == [6] && (t.ctx 5).state == .disabled
        && (t.queue 9).items.length == 1)
      ({ (({ ((withQ 9 5 sv).modCtx 5 fun x => { x with words := [(1, 100), (2, 0x12001), (5, 8)], state := .disabling, frame := some (tgFrame (fun _ => 0) 5 0 0) }) with tm := { sv.tm with now := 5000000#64 } } : State)) with tg := { ((withQ 9 5 sv).modCtx 5 fun x => { x with words := [(1, 100), (2, 0x12001), (5, 8)], state := .disabling, frame := some (tgFrame (fun _ => 0) 5 0 0) }).tg with emitQ := [5, 6] } })
          = true := by decide +kernel

/-- By hand from the rules that `Obligations.CheckUnits` names. -/
theorem test_crc32c_check_value :
    (fun s : State => ex (exec (.ckFeedHost 0 false) s) fun t => endedIn t 0 stOk 0x1CF96D7C 0 && (t.unit 31).run == 0x1CF96D7C)
      (stgWrite (cmdS 0 [0x561, 0x5F, 0, 0, 9] (sv.modUnit 31 fun x => { x with cfg := 0xF })) 0 ([0x31, 0x32, 0x33, 0x34, 0x35, 0x36,
          0x37, 0x38, 0x39])) = true := by decide +kernel

/-- By hand from the rules that `Obligations.CheckUnits` names. -/
theorem test_crc32c_final_value :
    (fun s : State => ex (exec (.ckFeedHost 0 false) s) fun t => endedIn t 0 stOk 0xE3069283 0 && (t.unit 31).last == ckPass)
      (stgWrite (cmdS 0 [0x761, 0x5F, 0, 0, 9, 0xE3069283] (sv.modUnit 31 fun x => { x with cfg := 0xF })) 0 ([0x31, 0x32, 0x33, 0x34,
          0x35, 0x36, 0x37, 0x38, 0x39])) = true := by decide +kernel

/-- By hand from the rules that `Obligations.CheckUnits` names. -/
theorem test_feed_mismatch :
    (fun s : State => ex (exec (.ckFeedHost 0 false) s) fun t => endedIn t 0 eCheck 0xE3069283 0x10 && (t.unit 31).last == ckFail)
      (stgWrite (cmdS 0 [0x761, 0x5F, 0, 0, 9, 0xE3069282] (sv.modUnit 31 fun x => { x with cfg := 0xF })) 0 ([0x31, 0x32, 0x33, 0x34,
          0x35, 0x36, 0x37, 0x38, 0x39])) = true := by decide +kernel

/-- By hand from the rules that `Obligations.NetworkSleep` names. -/
theorem test_ballot_opens :
    (fun s : State => ex (exec (.pwSleepPrepare 0) s) fun t => t.ret.ballotNo == 1 && t.pw.ballotNo == 1 && t.pw.ballot == 1
        && t.pw.bal == some { chans := [15], extra := [], window := 5, delay := 10, cause := 0, auto := false, sent := [], ring := some 0, ring2 := none })
      (cmd 0 [0x78, 0x8000, 5]
          { (sv.modChan 15 fun c => { c with state := .active, bdpCfg := 0x901, trx := 0, trxTgt := 0 }) with ret := { sv.ret with ballotNo := 65535 } })
          = true := by decide +kernel

/-- By hand from the rules that `Obligations.NetworkSleep` names. -/
theorem test_wake_config :
    (fun s : State => eqn (exec (.pwWakeConfig 0) s) (ended 0 stOk 0x02580101 0
        { s with pw := { s.pw with cfg := 0x02580001, ballotReg := 0x00148001, ballot2 := 0x01F4000A, timer := 7 } }))
      (cmd 0 [0x7A, 0x10, 0x0258FF01, 0x00148001, 0x01F4000A, 7] { sv with pw := { (sv).pw with appCodes := [0x80] } }) = true :=
          by decide +kernel

/-- By hand from the rules that `Obligations.PowerModes` names. -/
theorem test_exit :
    (fun s : State => ex (exec (.exitComplete 64 []) s) fun t => t.pw.mode == .run && !t.gl.unlocked && t.pw.wake == 0x60001
        && t.tm.now == 1953130)
      ({ { sv with pw := { (sv).pw with mode := .waking, latch := 0x60001 } } with ret := { sv.ret with time := 5 } }) = true :=
          by decide +kernel

/-- By hand from the rules that `Obligations.PowerModes` names. -/
theorem test_bus_wake :
    (fun s : State => ex (exec (.busWake 15) s) fun t => t.pw.mode == .waking && t.pw.latch.testBit 15)
      ({ sv with pw := { (sv).pw with mode := .sleep, chWake := [(15, 0x00080511)] } }) = true := by decide +kernel

/-- By hand from the rules that `Obligations.MarginPlanner` names. -/
theorem test_nom_sp :
    (fun s : State => eqn (exec (.mpNomSp 0) s) (ended 0 stOk (mpPlan s 15) 0 (s.modChan 15 fun c =>
        { c with nom := putFld (putFld c.nom 10 8 254) 18 7 (fld c.nom 10 8 + fld c.nom 18 7 - 254) })))
      (cmd 0 [0x7D, 15, 2] { sv with mp := { sv.mp with chRec := [(15, 0x01000000)] } }) = true := by decide +kernel

/-- By hand from the rules that `Obligations.MarginPlanner` names. -/
theorem test_report_clears :
    (fun s : State => ex (exec (.mpReport 0) s) fun t => (recordsOf t.mp.last 15).all (fun e => e.1 == 254)
        && endedIn t 0 stOk (mpStat s 15) 2)
      (cmd 0 [0x17C, 15, 0x1000, 0, 0x1FF]
          { sv with mp := { sv.mp with last := [((257 * 15 + 254) * 3, { count := 3, eMin := 1, eMax := 2, bins := [0, 0, 0, 0, 0, 0, 0, 3] }), ((257 * 15 + 255) * 3, { count := 3, eMin := 1, eMax := 2, bins := [0, 0, 0, 0, 0, 0, 0, 3] }), ((257 * 15 + 256) * 3 + 2, { count := 3, eMin := 1, eMax := 2, bins := [0, 0, 0, 0, 0, 0, 0, 3] })] } })
          = true := by decide +kernel

/-! ## The hypotheses of the obligations are met -/

/-- States that meet the hypotheses of `StepRunsFront`. -/
theorem meets_StepRunsFront :
    (∃ s : State, s.pending = []) :=
  ⟨sv, by decide +kernel⟩

/-- States that meet the hypotheses of `StepKeepsInv`. -/
theorem meets_StepKeepsInv :
    (∃ s : State, Memory.wf s.pool.mem = true ∧ (match step s with | .next t => t.pool.mem | _ => []) = [(3, 5)]) :=
  ⟨{ sv with pending := [.keyArmTimeout], pool := { sv.pool with mem := [(3, 5)] } }, by decide +kernel⟩

/-- States that meet the hypotheses of `ExecKeepsQueue`. -/
theorem meets_ExecKeepsQueue :
    (∃ s : State, (match exec .keyArmTimeout s with | .next t => t.pending | _ => []) = [.keyArmTimeout]) :=
  ⟨{ sv with pending := [.keyArmTimeout] }, by decide +kernel⟩

/-- States that meet the hypotheses of `CorePowerOnReset`. -/
theorem meets_CorePowerOnReset :
    (∃ s : State, s.pw.mode ≠ .hibernate ∧ ({ bootSel := 3, unitId := 1, b1Rate := 2, testMode := false } : Straps).testMode = false)
    ∧ (∃ s : State, s.pw.mode = .hibernate) :=
  ⟨⟨{ sv with ret := { sv.ret with claim := 77 } }, by decide +kernel⟩,
   ⟨{ sv with pw := { sv.pw with mode := .hibernate, pwrHold := false } }, by decide +kernel⟩⟩

/-- States that meet the hypotheses of `WarmResets`. -/
theorem meets_WarmResets :
    (∃ s : State, s.vx.safe = false ∧ s.pw.mode ≠ .hibernate ∧ regReach .pcie 0x64 s = true ∧ s.gl.unlocked = true)
    ∧ (∃ s : State, s.gl.unlocked = false)
    ∧ (∃ s : State, s.boot.porHeld = true)
    ∧ (∃ s : State, s.pw.mode = .hibernate ∧ s.boot.rstHeld = false)
    ∧ (∃ s : State, s.vx.safe = false ∧ s.pw.mode ≠ .hibernate ∧ s.boot.porHeld = false) :=
  ⟨⟨unl sv, by decide +kernel⟩,
   ⟨sv, by decide +kernel⟩,
   ⟨{ sv with boot := { sv.boot with porHeld := true, rstHeld := true } }, by decide +kernel⟩,
   ⟨{ sv with pw := { sv.pw with mode := .hibernate } }, by decide +kernel⟩,
   ⟨sv, by decide +kernel⟩⟩

/-- States that meet the hypotheses of `ResetsInSafeState`. -/
theorem meets_ResetsInSafeState :
    (∃ s : State, s.vx.safe = true) :=
  ⟨{ unl sv with vx := { sv.vx with safe := true } }, by decide +kernel⟩

/-- States that meet the hypotheses of `ResetLines`. -/
theorem meets_ResetLines :
    (∃ s : State, s.vx.safe = false ∧ s.pw.mode ≠ .hibernate ∧ s.boot.porHeld = false)
    ∧ (∃ s : State, s.pw.mode = .hibernate)
    ∧ (∃ s : State, (s.cr 1).serial = true ∧ (s.cr 0).serial = false ∧ (s.cq 0).serial = false)
    ∧ (∃ s : State, (s.cq 4).serial = true)
    ∧ (∃ s : State, s.vx.safe = false ∧ s.pw.mode ≠ .hibernate ∧ s.boot.porHeld = true)
    ∧ (∃ s : State, s.sq.linkUp = true) :=
  ⟨⟨sv.modChan 3 fun c => { c with state := .active }, by decide +kernel⟩,
   ⟨{ sv with pw := { sv.pw with mode := .hibernate } }, by decide +kernel⟩,
   ⟨cmdS 1 [0] (cmd 0 [0] sv), by decide +kernel⟩,
   ⟨{ sv with sq := { sv.sq with cqs := [(4, { CqRing.reset with serial := true, state := .running })] } }, by decide +kernel⟩,
   ⟨{ sv with boot := { sv.boot with porHeld := true } }, by decide +kernel⟩,
   ⟨{ sv with sq := { sv.sq with linkUp := true, linkWidth := 2, msix := [(3, 1)], msixPend := 5, irqPend := 7, ep := { Endpoint.reset with msixMask := true } } },
       by decide +kernel⟩⟩

/-- States that meet the hypotheses of `BringUp`. -/
theorem meets_BringUp :
    (∃ s : State, bringUp .b0 s = true ∧ s.boot.rom = false)
    ∧ (∃ s : State, bringUp .b0 s = true ∧ s.boot.rom = true ∧ heldBy s (.chan 3) = false)
    ∧ (∃ s : State, bringUp .b2 s = true)
    ∧ (∃ s : State, bringUp .b2 s = true ∧ s.boot.locked = true)
    ∧ (∃ s : State, bitOf64 s.vx.level 35 = false ∧ bringUp .b0 s = true ∧ s.boot.rom = false)
    ∧ (∃ s : State, bitOf64 s.vx.level 26 = false ∧ bringUp .b0 s = true ∧ s.boot.rom = true)
    ∧ (∃ s : State, bitOf64 s.vx.level 25 = false ∧ bringUp .b2 s = true ∧ s.boot.locked = false)
    ∧ (∃ s : State, s.boot.porHeld = false ∧ s.boot.rstHeld = false ∧ classMapOf s.vx.classes 34 = 3)
    ∧ (∃ s : State, bringUp .b2 s = true ∧ s.boot.locked = true ∧ s.boot.reason = 0)
    ∧ (∃ s : State, flashReads s = true ∧ s.boot.reading = 0 ∧ s.boot.reason = 0)
    ∧ (∃ s : State, flashReads s = true ∧ s.boot.reading ≠ 0 ∧ s.boot.reason ≠ 0) :=
  ⟨⟨State.reset, by decide +kernel⟩,
   ⟨{ State.reset with boot := { Boot.reset with rom := true } }, by decide +kernel⟩,
   ⟨{ State.reset with boot := { Boot.reset with rom := true, phase := .b2 } }, by decide +kernel⟩,
   ⟨{ State.reset with boot := { Boot.reset with rom := true, phase := .b2, locked := true } }, by decide +kernel⟩,
   ⟨State.reset, by decide +kernel⟩,
   ⟨{ State.reset with boot := { Boot.reset with rom := true } }, by decide +kernel⟩,
   ⟨{ State.reset with boot := { Boot.reset with phase := .b2 } }, by decide +kernel⟩,
   ⟨sv, by decide +kernel⟩,
   ⟨{ State.reset with boot := { Boot.reset with phase := .b2, locked := true } }, by decide +kernel⟩,
   ⟨{ State.reset with boot := { Boot.reset with phase := .b3 } }, by decide +kernel⟩,
   ⟨{ State.reset with boot := { Boot.reset with phase := .b3, reading := 1, reason := 11 } }, by decide +kernel⟩⟩

/-- States that meet the hypotheses of `FlashCopyDecides`. -/
theorem meets_FlashCopyDecides :
    (∃ s : State, flashReads s = true ∧ s.boot.reading = 0 ∧ s.boot.reason = 0 ∧ (imageFail []).map (·.reason) = some 1)
    ∧ (∃ s : State, flashReads s = true ∧ imageFail okImage = none
        ∧ commitFail { stageCopy okImage s with boot := { s.boot with copy := s.boot.reading } } false okImage = none)
    ∧ (∃ s : State, flashReads s = true ∧ s.boot.reading ≠ 0 ∧ s.boot.reason ≠ 0 ∧ (imageFail []).map (·.reason) = some 1) :=
  ⟨⟨{ State.reset with boot := { Boot.reset with phase := .b3 } }, by decide +kernel⟩,
   ⟨{ State.reset with boot := { Boot.reset with phase := .b3, reading := 1 } }, by decide +kernel⟩,
   ⟨{ State.reset with boot := { Boot.reset with phase := .b3, reading := 1, reason := 11 } }, by decide +kernel⟩⟩

/-- States that meet the hypotheses of `GlobalCommands`. -/
theorem meets_GlobalCommands :
    (∃ s : State, ready s 0 = some (P s 0) ∧ (s.cr 0).cmd.bind (·.comp) = none ∧ definedOpcode (pOpcode (P s 0)) = false)
    ∧ (∃ s : State, ready s 0 = some (P s 0) ∧ (s.cr 0).cmd.bind (·.comp) = none ∧ sharedCheck s (P s 0) = none ∧ pOpcode (P s 0) = 0x0)
    ∧ (∃ s : State, ready s 0 = some (P s 0) ∧ (s.cr 0).cmd.bind (·.comp) = none ∧ sharedCheck s (P s 0) = none ∧ pOpcode (P s 0) = 0x1)
    ∧ (∃ s : State, ready s 0 = some (P s 0) ∧ (s.cr 0).cmd.bind (·.comp) = none ∧ sharedCheck s (P s 0) = none ∧ pOpcode (P s 0) = 0x4)
    ∧ (∃ s : State, ready s 0 = some (P s 0) ∧ (s.cr 0).cmd.bind (·.comp) = none ∧ sharedCheck s (P s 0) = none ∧ pOpcode (P s 0) = 0x5
        ∧ fld (wd (P s 0) 1) 1 31 ≠ 0)
    ∧ (∃ s : State, ready s 0 = some (P s 0) ∧ (s.cr 0).cmd.bind (·.comp) = none ∧ sharedCheck s (P s 0) = none ∧ pOpcode (P s 0) = 0x5
        ∧ s.boot.phase = .service ∧ quiescent s = false)
    ∧ (∃ s : State, ready s 0 = some (P s 0) ∧ (s.cr 0).cmd.bind (·.comp) = none ∧ sharedCheck s (P s 0) = none ∧ pOpcode (P s 0) = 0x5
        ∧ quiescent s = true ∧ s.boot.profile = false ∧ legacyBlocked s ≠ 0)
    ∧ (∃ s : State, ready s 0 = some (P s 0) ∧ (s.cr 0).cmd.bind (·.comp) = none ∧ sharedCheck s (P s 0) = none ∧ pOpcode (P s 0) = 0x5
        ∧ quiescent s = true ∧ legacyBlocked s = 0)
    ∧ (∃ s : State, ready s 0 = some (P s 0) ∧ (s.cr 0).cmd.bind (·.comp) = none ∧ sharedCheck s (P s 0) = none ∧ pOpcode (P s 0) = 0x5
        ∧ fld (wd (P s 0) 1) 1 31 = 0 ∧ s.boot.phase = .service ∧ quiescent s = false) :=
  ⟨⟨cmd 0 [0x7E] sv, by decide +kernel⟩,
   ⟨cmd 0 [0, 0, 5, 6] sv, by decide +kernel⟩,
   ⟨cmd 0 [1] sv, by decide +kernel⟩,
   ⟨cmd 0 [4] sv, by decide +kernel⟩,
   ⟨cmd 0 [5, 2] sv, by decide +kernel⟩,
   ⟨cmd 0 [5, 1] (sv.modChan 3 fun c => { c with state := .active }), by decide +kernel⟩,
   ⟨cmd 0 [5, 1] (withQ 64 0 sv), by decide +kernel⟩,
   ⟨cmd 0 [5, 1] sv, by decide +kernel⟩,
   ⟨cmd 0 [5, 0] (sv.modChan 3 fun c => { c with state := .active }), by decide +kernel⟩⟩

/-- States that meet the hypotheses of `SharedChecksRefuse`. -/
theorem meets_SharedChecksRefuse :
    (∃ s : State, ready s 0 = some (P s 0) ∧ (s.cr 0).cmd.bind (·.comp) = none ∧ sharedCheck s (P s 0) = some (eFault, 0))
    ∧ (∃ s : State, ready s 0 = some (P s 0) ∧ (s.cr 0).cmd.bind (·.comp) = none ∧ sharedCheck s (P s 0) = some (eFault, 0)
        ∧ ((∀ w ∈ s.lat.writes, w.ring ≠ 0)) ∧ pOpcode (P s 0) = 0x5)
    ∧ (∃ s : State, ready s 0 = some (P s 0) ∧ (s.cr 0).cmd.bind (·.comp) = none ∧ sharedCheck s (P s 0) = some (eFault, 0)
        ∧ ((∀ w ∈ s.lat.writes, w.ring ≠ 0)) ∧ pOpcode (P s 0) = 0x71)
    ∧ (∃ s : State, ready s 0 = some (P s 0) ∧ (s.cr 0).cmd.bind (·.comp) = none ∧ sharedCheck s (P s 0) = some (eParam, 0)
        ∧ ((∀ w ∈ s.lat.writes, w.ring ≠ 0)) ∧ pOpcode (P s 0) = 0x71)
    ∧ (∃ s : State, ready s 0 = some (P s 0) ∧ (s.cr 0).cmd.bind (·.comp) = none ∧ sharedCheck s (P s 0) = some (eFault, 0)
        ∧ ((∀ w ∈ s.lat.writes, w.ring ≠ 0)) ∧ pOpcode (P s 0) = 0x72)
    ∧ (∃ s : State, ready s 0 = some (P s 0) ∧ (s.cr 0).cmd.bind (·.comp) = none ∧ sharedCheck s (P s 0) = some (eFault, 0)
        ∧ ((∀ w ∈ s.lat.writes, w.ring ≠ 0)) ∧ pOpcode (P s 0) = 0x73)
    ∧ (∃ s : State, ready s 0 = some (P s 0) ∧ (s.cr 0).cmd.bind (·.comp) = none ∧ sharedCheck s (P s 0) = some (eFault, 0)
        ∧ ((∀ w ∈ s.lat.writes, w.ring ≠ 0)) ∧ pOpcode (P s 0) = 0x20) :=
  ⟨⟨cmd 0 [0x78, 1] { sv with vx := { sv.vx with safe := true } }, by decide +kernel⟩,
   ⟨cmd 0 [5, 1] { sv with vx := { sv.vx with safe := true } }, by decide +kernel⟩,
   ⟨cmd 0 [0x71, 0, 5, 6] { sv with vx := { sv.vx with safe := true, stat := 0x700000003 } }, by decide +kernel⟩,
   ⟨cmd 0 [0x00000871, 0, 5, 6] { sv with vx := { sv.vx with stat := 0x700000003 } }, by decide +kernel⟩,
   ⟨cmd 0 [0x72, 0] { sv with vx := { sv.vx with safe := true, fValid := true, fSource := 5, fClass := 3 } }, by decide +kernel⟩,
   ⟨cmd 0 [0x73, 0] { sv with vx := { sv.vx with safe := true, classes := [(1, 5), (2, 6)] } }, by decide +kernel⟩,
   ⟨cmd 0 [0x20, 0] { sv with vx := { sv.vx with safe := true } }, by decide +kernel⟩⟩

/-- States that meet the hypotheses of `SafeStateEnds`. -/
theorem meets_SafeStateEnds :
    (∃ s : State, ready s 0 = some (P s 0) ∧ (s.cr 0).cmd.bind (·.comp) = none ∧ s.vx.safe = true
        ∧ pOpcode (P s 0) ∉ [0x00, 0x01, 0x04, 0x15, 0x70])
    ∧ (∃ s : State, pOpcode (P s 0) ∈ [0x00, 0x01, 0x04, 0x15, 0x70])
    ∧ (∃ s : State, s.vx.safe = true) :=
  ⟨⟨cmd 0 [0x79] { sv with vx := { sv.vx with safe := true } }, by decide +kernel⟩,
   ⟨cmd 0 [0x15] { sv with vx := { sv.vx with safe := true } }, by decide +kernel⟩,
   ⟨{ sv with vx := { sv.vx with safe := true } }, by decide +kernel⟩⟩

/-- States that meet the hypotheses of `ImageCommands`. -/
theorem meets_ImageCommands :
    (∃ s : State, ready s 0 = some (P s 0) ∧ (s.cr 0).cmd.bind (·.comp) = none ∧ sharedCheck s (P s 0) = none ∧ isLoad false (P s 0) = true
        ∧ addrOk s 0 3713 0 128 = false)
    ∧ (∃ s : State, ready s 0 = some (P s 0) ∧ (s.cr 0).cmd.bind (·.comp) = none ∧ sharedCheck s (P s 0) = none
        ∧ isLoad false (P s 0) = true ∧ addrOk s 0 64 0 128 = true ∧ loadPossible s false = false)
    ∧ (∃ s : State, ready s 0 = some (P s 0) ∧ (s.cr 0).cmd.bind (·.comp) = none ∧ sharedCheck s (P s 0) = none
        ∧ isLoad true (P s 0) = true ∧ addrOk s 0 64 0 128 = true ∧ loadPossible s false = true ∧ (s.cr 0).serial = false
        ∧ (∀ k : Fin 4, k.val ≠ 0 → pOpcode ((s.cr k.val).cmd.elim [] (·.words)) ≠ 0x03))
    ∧ (∃ s : State, ready s 0 = some (P s 0) ∧ (s.cr 0).cmd.bind (·.comp) = none ∧ sharedCheck s (P s 0) = none
        ∧ isLoad false (P s 0) = true ∧ addrOk s 0 0 0 128 = true ∧ loadPossible s true = true ∧ (s.cr 0).serial = true
        ∧ (imageFail (stgRead s 0 128)).map (·.reason) = some 1)
    ∧ (∃ s : State, ready s 0 = some (P s 0) ∧ (s.cr 0).cmd.bind (·.comp) = none ∧ sharedCheck s (P s 0) = none
        ∧ isLoad false (P s 0) = true ∧ addrOk s 0 0 0 okImage.length = true ∧ loadPossible s true = true
        ∧ imageFail (stgRead s 0 okImage.length) = none)
    ∧ (∃ s : State, ready s 0 = some (P s 0) ∧ (s.cr 0).cmd.bind (·.comp) = none ∧ sharedCheck s (P s 0) = none
        ∧ isLoad true (P s 0) = true ∧ commitFail { s with boot := { s.boot with image := some okImage } } true okImage = none
        ∧ addrOk s 0 0 0 okImage.length = true ∧ loadPossible s true = true ∧ (s.cr 0).serial = true ∧ imageFail okImage = none
        ∧ stgRead s 0 okImage.length = okImage)
    ∧ (∃ s : State, ready s 0 = some (P s 0) ∧ (s.cr 0).cmd.bind (·.comp) = none ∧ sharedCheck s (P s 0) = none
        ∧ isCommit false (P s 0) = true ∧ s.boot.image = none)
    ∧ (∃ s : State, ready s 0 = some (P s 0) ∧ (s.cr 0).cmd.bind (·.comp) = none ∧ sharedCheck s (P s 0) = none
        ∧ isCommit false (P s 0) = true ∧ (commitFail s false badImage).map (·.reason) = some 10)
    ∧ (∃ s : State, ready s 0 = some (P s 0) ∧ (s.cr 0).cmd.bind (·.comp) = none ∧ sharedCheck s (P s 0) = none
        ∧ isCommit false (P s 0) = true ∧ commitFail s false okImage = none)
    ∧ (∃ s : State, ready s 0 = some (P s 0) ∧ (s.cr 0).cmd.bind (·.comp) = none ∧ sharedCheck s (P s 0) = none
        ∧ isCommit true (P s 0) = true ∧ s.boot.straps.bootSel ≠ 3)
    ∧ (∃ s : State, ready s 0 = some (P s 0) ∧ (s.cr 0).cmd.bind (·.comp) = none ∧ sharedCheck s (P s 0) = none
        ∧ isCommit true (P s 0) = true ∧ s.boot.phase = .b3 ∧ s.boot.straps.bootSel = 3 ∧ emptyFail s = none)
    ∧ (∃ s : State, ready s 0 = some (P s 0) ∧ (s.cr 0).cmd.bind (·.comp) = none ∧ sharedCheck s (P s 0) = none
        ∧ isLoad true (P s 0) = true ∧ addrOk s 0 0 0 badImage.length = true ∧ loadPossible s true = true ∧ (s.cr 0).serial = true
        ∧ (∀ k : Fin 4, k.val ≠ 0 → pOpcode ((s.cr k.val).cmd.elim [] (·.words)) ≠ 0x03) ∧ imageFail badImage = none
        ∧ stgRead s 0 badImage.length = badImage
        ∧ (commitFail { s with boot := { s.boot with image := some badImage } } true badImage).map (·.reason) = some 10)
    ∧ (∃ s : State, ready s 0 = some (P s 0) ∧ (s.cr 0).cmd.bind (·.comp) = none ∧ sharedCheck s (P s 0) = none
        ∧ isCommit true (P s 0) = true ∧ s.boot.phase = .b3 ∧ s.boot.straps.bootSel = 3 ∧ s.lat.elemErr = []
        ∧ (emptyFail s).map (·.status) = some eCap)
    ∧ (∃ s : State, ready s 0 = some (P s 0) ∧ (s.cr 0).cmd.bind (·.comp) = none ∧ sharedCheck s (P s 0) = none
        ∧ isCommit false (P s 0) = true ∧ s.boot.phase = .service ∧ quiescent s = false)
    ∧ (∃ s : State, ready s 0 = some (P s 0) ∧ (s.cr 0).cmd.bind (·.comp) = none ∧ sharedCheck s (P s 0) = none
        ∧ isCommit false (P s 0) = true ∧ s.boot.image = some okImage ∧ (s.cr 0).serial = true ∧ commitFail s true okImage = none) :=
  ⟨⟨cmdS 0 [3, 0, 3713, 0, 128] ({ sv with boot := { sv.boot with phase := .b3, straps := { sv.boot.straps with bootSel := 3 } } } :
      State), by decide +kernel⟩,
   ⟨cmd 0 [3, 0, 64, 0, 128] { sv with boot := { sv.boot with phase := .b3 } }, by decide +kernel⟩,
   ⟨cmd 0 [0x103, 0, 64, 0, 128] ({ sv with boot := { sv.boot with phase := .b3, straps := { sv.boot.straps with bootSel := 3 } } } :
       State), by decide +kernel⟩,
   ⟨cmdS 0 [3, 0, 0, 0, 128] ({ sv with boot := { sv.boot with phase := .b3, straps := { sv.boot.straps with bootSel := 3 } } } : State),
       by decide +kernel⟩,
   ⟨stgWrite (cmdS 0 [3, 0, 0, 0, w32 okImage.length]
       ({ sv with boot := { sv.boot with phase := .b3, straps := { sv.boot.straps with bootSel := 3 } } } : State)) 0 okImage,
       by decide +kernel⟩,
   ⟨stgWrite (cmdS 0 [0x103, 0, 0, 0, w32 okImage.length]
       ({ sv with boot := { sv.boot with phase := .b3, straps := { sv.boot.straps with bootSel := 3 } } } : State)) 0 okImage,
       by decide +kernel⟩,
   ⟨cmd 0 [2] ({ sv with boot := { sv.boot with phase := .b3, straps := { sv.boot.straps with bootSel := 3 } } } : State),
       by decide +kernel⟩,
   ⟨cmd 0 [2] ({ sv with boot := { sv.boot with image := some badImage, phase := .b3, straps := { sv.boot.straps with bootSel := 3 } } } :
       State), by decide +kernel⟩,
   ⟨cmd 0 [2] ({ sv with boot := { sv.boot with image := some okImage, phase := .b3, straps := { sv.boot.straps with bootSel := 3 } } } :
       State), by decide +kernel⟩,
   ⟨cmd 0 [0x102] { sv with boot := { sv.boot with phase := .b3 } }, by decide +kernel⟩,
   ⟨cmd 0 [0x102] ({ sv with boot := { sv.boot with phase := .b3, straps := { sv.boot.straps with bootSel := 3 } } } : State),
       by decide +kernel⟩,
   ⟨stgWrite (cmdS 0 [0x103, 0, 0, 0, w32 badImage.length]
       ({ sv with boot := { sv.boot with phase := .b3, straps := { sv.boot.straps with bootSel := 3 } } } : State)) 0 badImage,
       by decide +kernel⟩,
   ⟨cmd 0 [0x102] ((withQ 9 5 ({ sv with boot := { sv.boot with phase := .b3, straps := { sv.boot.straps with bootSel := 3 } } } :
       State)).modChan 0 fun c => { c with mode := 0x40 }), by decide +kernel⟩,
   ⟨(cmd 0 [2] (({ sv with boot := { sv.boot with image := some okImage, phase := .service, straps := { sv.boot.straps with bootSel := 3 } } }
       : State))).modChan 0 fun c => { c with state := .active }, by decide +kernel⟩,
   ⟨cmdS 0 [2] ({ sv with boot := { sv.boot with image := some okImage, phase := .b3, straps := { sv.boot.straps with bootSel := 1 } } } :
       State), by decide +kernel⟩⟩

/-- States that meet the hypotheses of `Doorbells`. -/
theorem meets_Doorbells :
    (∃ s : State, regReach .serial 0x110C s = true ∧ fld 15#32 0 12 < 2 ^ (s.cr 3).log2)
    ∧ (∃ s : State, 2 ^ (s.cr 3).log2 ≤ fld 16#32 0 12 ∧ regReach .serial 0x110C s = true)
    ∧ (∃ s : State, regReach .pcie 0x120C s = true
        ∧ (2 + 2 ^ (s.cq 0).log2 - (s.cq 0).head) % 2 ^ (s.cq 0).log2 ≤ ((s.cq 0).tail + 2 ^ (s.cq 0).log2 - (s.cq 0).head) % 2 ^ (s.cq
        0).log2 ∧ fld 2#32 0 12 < 2 ^ (s.cq 0).log2)
    ∧ (∃ s : State, 2 ^ (s.cq 4).log2 ≤ fld 256#32 0 12 ∧ regReach .pcie 0x120C s = true)
    ∧ (∃ s : State, regReach .pcie 0x120C s = true ∧ fld 5#32 0 12 < 2 ^ (s.cq 4).log2
        ∧ (5 + 2 ^ (s.cq 4).log2 - (s.cq 4).head) % 2 ^ (s.cq 4).log2 ≤ ((s.cq 4).tail + 2 ^ (s.cq 4).log2 - (s.cq 4).head) % 2 ^ (s.cq
        4).log2 ∧ s.sq.lostSince = 0)
    ∧ (∃ s : State, regReach .pcie 0x120C s = true
        ∧ ((s.cq 0).tail + 2 ^ (s.cq 0).log2 - (s.cq 0).head) % 2 ^ (s.cq 0).log2 < (fld 4#32 0 12 + 2 ^ (s.cq 0).log2 - (s.cq 0).head) % 2
        ^ (s.cq 0).log2)
    ∧ (∃ s : State, regReach .serial 0x110C s = true ∧ 2 ^ (s.cr 3).log2 ≤ fld 16#32 0 12) :=
  ⟨⟨cmd 3 [0] sv, by decide +kernel⟩,
   ⟨cmd 3 [0] sv, by decide +kernel⟩,
   ⟨sv.modCq 0 fun c => { c with tail := 3, head := 14 }, by decide +kernel⟩,
   ⟨sv.modCq 4 fun c => { c with tail := 3, head := 3 }, by decide +kernel⟩,
   ⟨sv.modCq 4 fun c => { c with tail := 7, head := 3 }, by decide +kernel⟩,
   ⟨sv.modCq 0 fun c => { c with tail := 3, head := 1 }, by decide +kernel⟩,
   ⟨cmd 3 [0] sv, by decide +kernel⟩⟩

/-- States that meet the hypotheses of `RingEnableDisable`. -/
theorem meets_RingEnableDisable :
    (∃ s : State, regReach .pcie 0x1108 s = true ∧ (s.cr 0).state = .disabled
        ∧ ringConfigOk s (s.cr 0).baseLo (s.cr 0).baseHi false 2 32 = true ∧ (s.cq 0).state = .running)
    ∧ (∃ s : State, ringConfigOk s (s.cr 0).baseLo (s.cr 0).baseHi false 2 32 = false ∧ regReach .pcie 0x1108 s = true
        ∧ (s.cr 0).state = .disabled ∧ bitOf 9#32 0 = true)
    ∧ (∃ s : State, ringConfigOk s (s.cr 0).baseLo (s.cr 0).baseHi false 12 32 = true ∧ (s.cq 0).state ≠ .running
        ∧ regReach .pcie 0x1108 s = true ∧ (s.cr 0).state = .disabled ∧ bitOf 0x31#32 0 = true)
    ∧ (∃ s : State, (s.cr 0).state ≠ .disabled ∧ regReach .pcie 0x1108 s = true ∧ (s.cr 0).state = .halted ∧ bitOf 0x831#32 0 = true
        ∧ bitOf 0#32 0 = false)
    ∧ (∃ s : State, (s.cq 3).state = .disabled ∧ ringConfigOk s (s.cq 3).baseLo (s.cq 3).baseHi false 4 16 = true
        ∧ regReach .pcie 0x1108 s = true ∧ bitOf 0x11#32 0 = true)
    ∧ (∃ s : State, (s.cq 3).state = .disabled ∧ ringConfigOk s (s.cq 3).baseLo (s.cq 3).baseHi false 1 16 = false
        ∧ regReach .pcie 0x1108 s = true ∧ bitOf 5#32 0 = true)
    ∧ (∃ s : State, (s.cr 0).state = .running ∧ (s.cr 0).cmd.isSome = true ∧ regReach .pcie 0x1108 s = true ∧ bitOf 0#32 0 = false)
    ∧ (∃ s : State, (s.cr 0).state = .disabling)
    ∧ (∃ s : State, (s.cq 0).state ≠ .disabled ∧ (s.cr 0).state ≠ .disabled)
    ∧ (∃ s : State, (s.cq 4).state ≠ .disabled ∧ regReach .pcie 0x1108 s = true ∧ bitOf 0x700#32 0 = false)
    ∧ (∃ s : State, regReach .pcie 0x1108 s = true ∧ bitOf 0#32 0 = false ∧ (s.cq 4).state = .running
        ∧ (∃ r : Fin 4, (s.cr r.val).state ≠ .disabled))
    ∧ (∃ s : State, regReach .pcie 0x1108 s = true ∧ (s.cq 4).state ≠ .disabled ∧ (s.cq 4).state ≠ .running)
    ∧ (∃ s : State, regReach .pcie 0x1108 s = true ∧ (s.cq 0).state ≠ .disabled ∧ (s.cr 0).state = .disabled)
    ∧ (∃ s : State, regReach .pcie 0x1108 s = true ∧ bitOf 0x16#32 0 = false ∧ (s.cq 3).state = .disabled ∧ (s.cr 3).state = .disabled)
    ∧ (∃ s : State, regReach .pcie 0x1108 s = true ∧ bitOf 0x0503#32 0 = true ∧ (s.cq 0).state ≠ .disabled)
    ∧ (∃ s : State, regReach .pcie 0x1108 s = true ∧ (s.cq 4).state = .disabled
        ∧ ringConfigOk s (s.cq 4).baseLo (s.cq 4).baseHi false 4 16 = true ∧ s.sq.lostSince ≠ 0 ∧ evMasked s 2 = false)
    ∧ (∃ s : State, regReach .pcie 0x1108 s = true ∧ (s.cq 4).state = .disabled
        ∧ ringConfigOk s (s.cq 4).baseLo (s.cq 4).baseHi false 4 16 = true ∧ s.sq.lostSince = 0) :=
  ⟨⟨(sv.modCr 0 fun c => { c with state := .disabled, baseLo := 0x1000 }), by decide +kernel⟩,
   ⟨(sv.modCr 0 fun c => { c with state := .disabled, baseLo := 0x1001 }), by decide +kernel⟩,
   ⟨(sv.modCr 0 fun c => { c with baseLo := 0 }).modCq 0 fun c => { c with state := .disabled }, by decide +kernel⟩,
   ⟨(sv.modCr 0 fun c => { c with state := .halted, baseLo := 0 }), by decide +kernel⟩,
   ⟨sv, by decide +kernel⟩,
   ⟨sv, by decide +kernel⟩,
   ⟨cmd 0 [0] sv, by decide +kernel⟩,
   ⟨(cmd 0 [0] sv).modCr 0 fun c => { c with state := .disabling }, by decide +kernel⟩,
   ⟨cmd 0 [0] sv, by decide +kernel⟩,
   ⟨sv, by decide +kernel⟩,
   ⟨cmd 0 [0] sv, by decide +kernel⟩,
   ⟨cmd 0 [0] (sv.modCq 4 fun c => { c with state := .halted }), by decide +kernel⟩,
   ⟨sv, by decide +kernel⟩,
   ⟨sv, by decide +kernel⟩,
   ⟨sv, by decide +kernel⟩,
   ⟨{ sv with sq := { sv.sq with cqs := [], lostSince := 5, evOut := [7] } }, by decide +kernel⟩,
   ⟨{ sv with sq := { sv.sq with cqs := [], evOut := [7] } }, by decide +kernel⟩⟩

/-- States that meet the hypotheses of `CommandFetch`. -/
theorem meets_CommandFetch :
    (∃ s : State, ringsUsable s = true ∧ hostIdle s = true ∧ slotBad s .hostDma = none ∧ nextRing s = some 2 ∧ (s.cr 2).serial = false
        ∧ (s.cr 2).head ≠ (s.cr 2).tail)
    ∧ (∃ s : State, ringsUsable s = true ∧ hostIdle s = true ∧ slotBad s .hostDma = none ∧ nextRing s = some 2 ∧ (s.cr 2).serial = false)
    ∧ (∃ s : State, ringsUsable s = true ∧ hostIdle s = true ∧ slotBad s .hostDma = none ∧ nextRing s = some 1 ∧ (s.cr 1).serial = true
        ∧ baseOf (s.cr 1).baseLo (s.cr 1).baseHi + 32 * (s.cr 1).head + 32 ≤ s.sq.stgCells * 60)
    ∧ (∃ s : State, ringsUsable s = true ∧ hostIdle s = true ∧ slotBad s .hostDma = none ∧ nextRing s = some 1 ∧ (s.cr 1).serial = true
        ∧ s.sq.stgCells * 60 < baseOf (s.cr 1).baseLo (s.cr 1).baseHi + 32 * (s.cr 1).head + 32)
    ∧ (∃ s : State, ringsUsable s = true ∧ nextRing s = some 2 ∧ hostIdle s = true ∧ slotBad s .hostDma ≠ none) :=
  ⟨⟨(sv.modCr 2 fun c => { c with en := true, state := .running, log2 := 4, head := 15, tail := 3 }), by decide +kernel⟩,
   ⟨(sv.modCr 2 fun c => { c with en := true, state := .running, log2 := 4, head := 15, tail := 3 }), by decide +kernel⟩,
   ⟨({ sv with sq := { sv.sq with stgCells := 2 } }.modCr 1 fun c =>
       { c with en := true, serial := true, state := .running, log2 := 4, head := 2, tail := 9, baseLo := 0 }), by decide +kernel⟩,
   ⟨({ sv with sq := { sv.sq with stgCells := 2 } }.modCr 1 fun c =>
       { c with en := true, serial := true, state := .running, log2 := 4, head := 3, tail := 9, baseLo := 0 }), by decide +kernel⟩,
   ⟨{ (sv.modCr 2 fun c => { c with en := true, state := .running, log2 := 4, head := 15, tail := 3 }) with gl := { sv.gl with slotBad := [(8, true)] } },
       by decide +kernel⟩⟩

/-- States that meet the hypotheses of `CompletionWrite`. -/
theorem meets_CompletionWrite :
    (∃ s : State, (s.cr 0).cmd.bind (·.comp) ≠ none ∧ coreLive s = true ∧ slotBad s .hostDma = none ∧ cqRoom (s.cq 0) = false
        ∧ (s.cr 0).cmd.map (·.discard) = some false)
    ∧ (∃ s : State, (s.cr 0).cmd.bind (·.comp) ≠ none ∧ coreLive s = true ∧ slotBad s .hostDma = none
        ∧ (compDue s 0).map (hostFirst s) = some true ∧ cqRoom (s.cq 0) = true ∧ (s.cq 0).serial = false
        ∧ (s.cr 0).cmd.map (·.discard) = some false)
    ∧ (∃ s : State, (s.cr 0).cmd.map (·.discard) = some true)
    ∧ (∃ s : State, (s.cq 4).unsig ≠ 0 ∧ (s.cq 4).serial = true)
    ∧ (∃ s : State, (s.cq 4).unsig ≠ 0 ∧ (s.cq 4).serial = false ∧ s.sq.ep.msixMask = false ∧ bitOf (msixWord s 63 3) 0 = false)
    ∧ (∃ s : State, (s.cr 0).cmd.map (fun c => (c.comp.isSome, c.discard)) = some (true, false) ∧ coreLive s = true
        ∧ slotBad s .hostDma = none ∧ (compDue s 0).map (hostFirst s) = some true ∧ cqRoom (s.cq 0) = true ∧ cqEntryOk s 0 = false)
    ∧ (∃ s : State, (s.cr 0).cmd.map (fun c => (c.comp.isSome, c.discard)) = some (true, false) ∧ coreLive s = true
        ∧ slotBad s .hostDma = none ∧ (compDue s 0).map (hostFirst s) = some true ∧ cqRoom (s.cq 0) = true ∧ cqEntryOk s 0 = true)
    ∧ (∃ s : State, (s.cr 0).cmd.map (fun c => (c.comp.isSome, c.discard)) = some (true, false) ∧ coreLive s = true
        ∧ slotBad s .hostDma = none ∧ cqRoom (s.cq 0) = true ∧ (compDue s 0).map (hostFirst s) = some false)
    ∧ (∃ s : State, coreLive s = false)
    ∧ (∃ s : State, (s.cr 0).cmd.map (fun c => (c.comp.isSome, c.discard)) = some (true, true) ∧ coreLive s = true)
    ∧ (∃ s : State, bitOf (msixWord s 0 3) 0 = true ∧ (s.cq 0).coalUs = 0)
    ∧ (∃ s : State, (s.cq 4).unsig ≠ 0 ∧ (s.cq 4).serial = false ∧ s.sq.ep.msixMask = true)
    ∧ (∃ s : State, (s.cq 4).unsig = 0) :=
  ⟨⟨((cmd 0 [0x00050000] sv).modCr 0 fun c =>
      { c with cmd := c.cmd.map fun d => { d with begun := true, discard := false, comp := some { status := 1, r0 := 5, r1 := 6 } } }).modCq
      0 fun c => { c with tail := 15, head := 0 }, by decide +kernel⟩,
   ⟨((cmd 0 [0x00050000] sv).modCr 0 fun c =>
       { c with cmd := c.cmd.map fun d => { d with begun := true, discard := false, comp := some { status := 1, r0 := 5, r1 := 6 } } }),
       by decide +kernel⟩,
   ⟨((cmd 0 [0x00050000] sv).modCr 0 fun c =>
       { c with cmd := c.cmd.map fun d => { d with begun := true, discard := true, comp := some { status := 1, r0 := 5, r1 := 6 } } }).modCr
       0 fun c => { c with state := .disabling }, by decide +kernel⟩,
   ⟨sv.modCq 4 fun c => { c with unsig := 2, serial := true, vector := 63 }, by decide +kernel⟩,
   ⟨{ (sv.modCq 4 fun c => { c with unsig := 2, vector := 63 }) with sq := { (sv.modCq 4 fun c => { c with unsig := 2, vector := 63 }).sq with msix := [(63 * 4 + 3, 0)] } },
       by decide +kernel⟩,
   ⟨(((cmd 0 [0x00050000] sv).modCr 0 fun c =>
       { c with cmd := c.cmd.map fun d => { d with begun := true, discard := false, comp := some { status := 1, r0 := 5, r1 := 6 } } }).modCq
       0 fun c => { c with serial := true, tail := 7, baseLo := 0 }).modSq fun q => { q with stgCells := 2 }, by decide +kernel⟩,
   ⟨(((cmd 0 [0x00050000] sv).modCr 0 fun c =>
       { c with cmd := c.cmd.map fun d => { d with begun := true, discard := false, comp := some { status := 1, r0 := 5, r1 := 6 } } }).modCq
       0 fun c => { c with serial := true, tail := 6, baseLo := 0 }).modSq fun q => { q with stgCells := 2 }, by decide +kernel⟩,
   ⟨(((((cmd 0 [0x00050000] sv).modCr 0 fun c =>
       { c with cmd := c.cmd.map fun d => { d with begun := true, discard := false, comp := some { status := 1, r0 := 5, r1 := 6 } } })).modCr
       0 fun c => { c with cmd := c.cmd.map fun d => { d with arr := 5 } }).modCr 1 fun c =>
       { c with state := .running, cmd := some { words := pk [4], seq := 1, begun := true, dma := false, discard := false, sub := none, aux := [], comp := some { status := 0, r0 := 0, r1 := 0 }, arr := 3 } }).modCq
       1 fun c => { c with state := .running, log2 := 4 }, by decide +kernel⟩,
   ⟨{ ((cmd 0 [0x00050000] sv).modCr 0 fun c => { c with cmd := c.cmd.map fun d => { d with begun := true, discard := false, comp := some { status := 1, r0 := 5, r1 := 6 } } }) with pw := { sv.pw with mode := .sleep } },
       by decide +kernel⟩,
   ⟨((cmd 0 [0x00050000] sv).modCr 0 fun c =>
       { c with cmd := c.cmd.map fun d => { d with begun := true, discard := true, comp := some { status := 1, r0 := 5, r1 := 6 } } }),
       by decide +kernel⟩,
   ⟨(((cmd 0 [0x00050000] sv).modCr 0 fun c =>
       { c with cmd := c.cmd.map fun d => { d with begun := true, discard := false, comp := some { status := 1, r0 := 5, r1 := 6 } } })).modSq
       fun q => { q with msix := [(3, 1)] }, by decide +kernel⟩,
   ⟨{ (sv.modCq 4 fun c => { c with unsig := 2, vector := 63 }) with sq := { (sv.modCq 4 fun c => { c with unsig := 2, vector := 63 }).sq with msix := [(63 * 4 + 3, 0)], ep := { Endpoint.reset with msixMask := true } } },
       by decide +kernel⟩,
   ⟨sv, by decide +kernel⟩⟩

/-- States that meet the hypotheses of `DmaReads`. -/
theorem meets_DmaReads :
    (∃ s : State, dmaWaits s 0 = true ∧ hostIdle s = true ∧ slotBad s .hostDma = none ∧ fld (pkt s 0 0) 0 8 = 0x03
        ∧ bitOf (pkt s 0 0) 8 = false ∧ imageFail ((bytesOfWords okWords).take (pkt s 0 4).toNat) = none)
    ∧ (∃ s : State, dmaWaits s 0 = true ∧ hostIdle s = true ∧ fld (pkt s 0 0) 0 8 = 0x03 ∧ classMapOf s.vx.classes 37 ≠ 3)
    ∧ (∃ s : State, dmaWaits s 0 = true ∧ hostIdle s = true ∧ slotBad s .hostDma ≠ none)
    ∧ (∃ s : State, dmaWaits s 0 = true ∧ hostIdle s = true ∧ fld (pkt s 0 0) 0 8 ∉ [0x03, 0x20] ∧ classMapOf s.vx.classes 37 ≠ 3)
    ∧ (∃ s : State, dmaWaits s 0 = true ∧ hostIdle s = true ∧ fld (pkt s 0 0) 0 8 = 0x03 ∧ (pkt s 0 4).toNat ≠ 0
        ∧ classMapOf s.vx.classes 37 ≠ 3) :=
  ⟨⟨(startedCmd 0 [3, 0, 64, 0, w32 okImage.length]
      ({ sv with boot := { sv.boot with phase := .b3, straps := { sv.boot.straps with bootSel := 3 } } } : State)).modCmd 0 fun d =>
      { d with dma := true }, by decide +kernel⟩,
   ⟨(startedCmd 0 [3, 0, 64, 0, 128] ({ sv with boot := { sv.boot with phase := .b3, straps := { sv.boot.straps with bootSel := 3 } } } :
       State)).modCmd 0 fun d => { d with dma := true }, by decide +kernel⟩,
   ⟨{ ((startedCmd 0 [3, 0, 64, 0, 128] ({ sv with boot := { sv.boot with phase := .b3, straps := { sv.boot.straps with bootSel := 3 } } } : State)).modCmd 0 fun d => { d with dma := true }) with gl := { sv.gl with slotBad := [(8, true)] } },
       by decide +kernel⟩,
   ⟨((startedCmd 0 [0x10, 0, 64, 0, 128] ({ sv with boot := { sv.boot with phase := .b3, straps := { sv.boot.straps with bootSel := 3 } } }
       : State)).modCmd 0 fun d => { d with dma := true }), by decide +kernel⟩,
   ⟨{ ((startedCmd 0 [3, 0, 64, 0, 128] ({ sv with boot := { sv.boot with phase := .b3, straps := { sv.boot.straps with bootSel := 3 } } } : State)).modCmd 0 fun d => { d with dma := true }) with boot := { ((startedCmd 0 [3, 0, 64, 0, 128] ({ sv with boot := { sv.boot with phase := .b3, straps := { sv.boot.straps with bootSel := 3 } } } : State)).modCmd 0 fun d => { d with dma := true }).boot with image := some okImage } },
       by decide +kernel⟩⟩

/-- States that meet the hypotheses of `SerialAndLink`. -/
theorem meets_SerialAndLink :
    (∃ s : State, coreLive s = true ∧ regReach .serial 0x100 s = true ∧ (0x2000038 : Word).toNat % 4 = 0
        ∧ 0x2000000 ≤ (0x2000038 : Word).toNat ∧ (0x2000038 : Word).toNat < 0x2000000 + s.sq.stgCells * 60
        ∧ (BitVec.ofNat 16 (crc16 (writeCovered 0x2000038#32 [0x04030201]))).toNat = crc16 (writeCovered 0x2000038 [0x04030201]))
    ∧ (∃ s : State, coreLive s = true ∧ (0x2000039 : Word).toNat % 4 ≠ 0 ∧ regReach .serial 0 s = true)
    ∧ (∃ s : State, (s.pw.awake = false ∨ s.sq.linkUp = false))
    ∧ (∃ s : State, s.pw.awake = true ∧ s.sq.linkUp = true)
    ∧ (∃ s : State, coreLive s = true ∧ (0x80 : Word).toNat % 4 = 0
        ∧ (BitVec.ofNat 16 (crc16 (writeCovered 0x80#32 [0x30002, 7]))).toNat = crc16 (writeCovered 0x80#32 [0x30002, 7])
        ∧ serialTest s 0x80 2 = false)
    ∧ (∃ s : State, coreLive s = true)
    ∧ (∃ s : State, coreLive s = true ∧ serialTest s 0x80 2 = false ∧ (0x80 : Word).toNat % 4 = 0)
    ∧ (∃ s : State, coreLive s = true ∧ serialTest s 0x81 1 = false ∧ (0x81 : Word).toNat % 4 ≠ 0)
    ∧ (∃ s : State, coreLive s = true ∧ (0x80 : Word).toNat % 4 = 0 ∧ serialTest s 0x80 2 = false)
    ∧ (∃ s : State, coreLive s = true ∧ serialTest s 0x6FFFC 1 = true
        ∧ (BitVec.ofNat 16 (crc16 (writeCovered 0x6FFFC#32 [1]))).toNat = crc16 (writeCovered 0x6FFFC#32 [1]))
    ∧ (∃ s : State, coreLive s = false) :=
  ⟨⟨{ sv with sq := { sv.sq with stgCells := 1 } }, by decide +kernel⟩,
   ⟨sv, by decide +kernel⟩,
   ⟨sv, by decide +kernel⟩,
   ⟨{ sv with sq := { sv.sq with linkUp := true } }, by decide +kernel⟩,
   ⟨unl sv, by decide +kernel⟩,
   ⟨{ sv with sq := { sv.sq with serialBad := true } }, by decide +kernel⟩,
   ⟨{ sv with gl := { sv.gl with gpioOut := 7 } }, by decide +kernel⟩,
   ⟨sv, by decide +kernel⟩,
   ⟨sv, by decide +kernel⟩,
   ⟨{ sv with vx := { sv.vx with testMode := true } }, by decide +kernel⟩,
   ⟨{ sv with pw := { sv.pw with mode := .sleep } }, by decide +kernel⟩⟩

/-- States that meet the hypotheses of `Staging`. -/
theorem meets_Staging :
    (∃ s : State, regReach .pcie 0x1008 s = true ∧ s.sq.stgCells = 0 ∧ minSum s ≤ 65536 - 18432 ∧ (∀ e ∈ s.pool.owner, e.1 < 65536 - 18432))
    ∧ (∃ s : State, (∃ e ∈ s.pool.owner, 65536 - 18432 ≤ e.1) ∧ regReach .pcie 0x1008 s = true ∧ fld 18432#32 0 15 = 18432)
    ∧ (∃ s : State, regReach .pcie 0x1008 s = true ∧ fld 0xC800#32 0 15 = s.sq.stgCells)
    ∧ (∃ s : State, fld 0x4800#32 0 15 ≠ s.sq.stgCells)
    ∧ (∃ s : State, regReach .serial 0x1008 s = true ∧ fld 18432#32 0 15 ≠ 0 ∧ 65536 - fld 18432#32 0 15 < minSum s) :=
  ⟨⟨{ sv with pool := { sv.pool with owner := [(47103, 9)] } }, by decide +kernel⟩,
   ⟨{ sv with pool := { sv.pool with owner := [(47104, 9)] } }, by decide +kernel⟩,
   ⟨{ sv with sq := { sv.sq with stgCells := 18432, stgErr := true } }, by decide +kernel⟩,
   ⟨{ sv with sq := { sv.sq with stgCells := 18431 } }, by decide +kernel⟩,
   ⟨{ sv with pool := { sv.pool with queues := [(9, { Queue.reset with state := .opened, min := 60000, max := 60000 })] } },
       by decide +kernel⟩⟩

/-- States that meet the hypotheses of `KeyArmsAndUnlocks`. -/
theorem meets_KeyArmsAndUnlocks :
    (∃ s : State, regReach .pcie 0x10 s = true ∧ s.vx.safe = true)
    ∧ (∃ s : State, regReach .pcie 0x10 s = true ∧ s.vx.safe = false ∧ s.gl.armed = false ∧ fld 7#32 0 16 ∉ [0x5A5A, 0xA5A5, 0]
        ∧ s.gl.relockUs ≠ 0)
    ∧ (∃ s : State, s.gl.unlocked = false ∧ s.gl.armed = true ∧ s.gl.armSerial = isSerial .pcie ∧ s.gl.relockUs = 0
        ∧ regReach .pcie 0x10 s = true ∧ s.vx.safe = false)
    ∧ (∃ s : State, s.gl.armSerial ≠ isSerial .pcie ∧ regReach .pcie 0x10 s = true ∧ s.vx.safe = false)
    ∧ (∃ s : State, regReach .pcie 0x10 s = true ∧ s.vx.safe = false ∧ s.gl.unlocked = false ∧ s.gl.armed = true)
    ∧ (∃ s : State, s.gl.relockUs ≠ 0 ∧ regReach .pcie 0x10 s = true ∧ s.vx.safe = false) :=
  ⟨⟨{ sv with vx := { sv.vx with safe := true } }, by decide +kernel⟩,
   ⟨sv, by decide +kernel⟩,
   ⟨{ sv with gl := { sv.gl with armed := true, armSerial := false, relockUs := 0 } }, by decide +kernel⟩,
   ⟨{ sv with gl := { sv.gl with armed := true, armSerial := true } }, by decide +kernel⟩,
   ⟨{ sv with gl := { sv.gl with unlocked := false, armed := true, armSerial := true } }, by decide +kernel⟩,
   ⟨{ sv with gl := { sv.gl with unlocked := true, relockUs := 5 } }, by decide +kernel⟩⟩

/-- States that meet the hypotheses of `RegisterAccess`. -/
theorem meets_RegisterAccess :
    (∃ s : State, testBlock s 0x14 = false ∧ regReach .pcie 0x14 s = true ∧ regReach .serial 0x50 s = true ∧ regReach .pcie 0x4010 s = true
        ∧ regReach .pcie 0x84 s = true ∧ regReach .pcie 0 s = true ∧ regReach .pcie 0x4004 s = true ∧ windowAt 0x4000 = none
        ∧ pairAt s 0x4000 = some s.tm.now ∧ regReach .pcie 0x4000 s = true)
    ∧ (∃ s : State, testBlock s 0x6FFFC = true)
    ∧ (∃ s : State, regReach .pcie 0 s = true ∧ coreLive s = true)
    ∧ (∃ s : State, regReach .serial 0x4004 s = true)
    ∧ (∃ s : State, testBlock s 1 = false ∧ coreLive s = true ∧ 1 % 4 ≠ 0) :=
  ⟨⟨unl sv, by decide +kernel⟩,
   ⟨{ sv with vx := { sv.vx with testMode := true } }, by decide +kernel⟩,
   ⟨sv, by decide +kernel⟩,
   ⟨{ sv with gl := { sv.gl with hiLatch := [(latchKey .serial 0x4000, 9)] } }, by decide +kernel⟩,
   ⟨sv, by decide +kernel⟩⟩

/-- States that meet the hypotheses of `PoolWindow`. -/
theorem meets_PoolWindow :
    (∃ s : State, regReach .pcie 0x100 s = true ∧ s.gl.unlocked = false ∧ slotBad s .hostDma = none)
    ∧ (∃ s : State, s.gl.unlocked = true ∧ 4194296 / 4 % 16 ≠ 15 ∧ slotBad s .hostDma = none ∧ regReach .pcie 0x100 s = true)
    ∧ (∃ s : State, regReach .pcie 0x100 s = true ∧ slotBad s .hostDma ≠ none ∧ s.gl.unlocked = true ∧ (0 : Nat) / 4 % 16 ≠ 15)
    ∧ (∃ s : State, regReach .pcie 0x100 s = true ∧ slotBad s .hostDma = none ∧ s.pool.linkBad = [])
    ∧ (∃ s : State, s.pool.linkBad = []) :=
  ⟨⟨sv, by decide +kernel⟩,
   ⟨unl sv, by decide +kernel⟩,
   ⟨{ unl sv with gl := { (unl sv).gl with slotBad := [(8, true)] } }, by decide +kernel⟩,
   ⟨{ sv with pool := { sv.pool with mem := [(4194232, 5), (4194235, 7)] } }, by decide +kernel⟩,
   ⟨sv, by decide +kernel⟩⟩

/-- States that meet the hypotheses of `LevelSourcesAssert`. -/
theorem meets_LevelSourcesAssert :
    (∃ s : State, bitOf64 s.vx.level 30 = true)
    ∧ (∃ s : State, bitOf64 s.vx.level 28 = false)
    ∧ (∃ s : State, bitOf64 s.vx.level 62 = false) :=
  ⟨⟨{ sv with vx := { (sv).vx with level := putBit64 0#64 30 true } }, by decide +kernel⟩,
   ⟨{ sv with vx := { (sv).vx with inj := putBit64 0#64 28 true } }, by decide +kernel⟩,
   ⟨sv, by decide +kernel⟩⟩

/-- States that meet the hypotheses of `VertexLines`. -/
theorem meets_VertexLines :
    (∃ s : State, s.vx.safe = true ∧ s.vx.safeDone = false ∧ (∀ w ∈ s.vx.windows, w.1 = Target.device))
    ∧ (∃ s : State, s.vx.windows = (.chan 3, []) :: [(.device, [])] ∧ (Target.chan 3) ≠ Target.device)
    ∧ (∃ s : State, s.vx.aliveRun = true ∧ s.vx.safe = false ∧ s.vx.held = [] ∧ timeRuns s = true)
    ∧ (∃ s : State, bitOf s.vx.cfg 2 = true ∧ s.vx.held ≠ [])
    ∧ (∃ s : State, bitOf64 s.vx.level 27 = true) :=
  ⟨⟨{ sv with vx := { (sv).vx with safe := true, windows := [(.device, [])] } }, by decide +kernel⟩,
   ⟨{ sv with vx := { (sv).vx with windows := [(.chan 3, []), (.device, [])] } }, by decide +kernel⟩,
   ⟨{ sv with vx := { (sv).vx with aliveRun := true } }, by decide +kernel⟩,
   ⟨{ sv with vx := { (sv).vx with aliveRun := true, alivePin := true, cfg := 5, held := [(3, .chord)] } }, by decide +kernel⟩,
   ⟨{ sv with vx := { (sv).vx with level := 0x3C000000#64 } }, by decide +kernel⟩⟩

/-- States that meet the hypotheses of `FirstFault`. -/
theorem meets_FirstFault :
    (∃ s : State, bitOf64 s.vx.level 30 = false ∧ classMapOf s.vx.classes 30 < 3 ∧ classMapOf s.vx.classes 30 ≠ 2
        ∧ tagged s 30 (classMapOf s.vx.classes 30) 0#32 = false ∧ s.vx.fValid = false)
    ∧ (∃ s : State, bitOf64 s.vx.level 30 = false ∧ classMapOf s.vx.classes 30 < 3 ∧ classMapOf s.vx.classes 30 ≠ 2
        ∧ tagged s 30 (classMapOf s.vx.classes 30) 0#32 = false ∧ s.vx.fValid = true ∧ s.vx.fInjected = false ∧ s.vx.fTime ≠ s.tm.now)
    ∧ (∃ s : State, bitOf64 s.vx.level 30 = false ∧ classMapOf s.vx.classes 30 < 3 ∧ classMapOf s.vx.classes 30 ≠ 2
        ∧ tagged s 30 (classMapOf s.vx.classes 30) 0#32 = true)
    ∧ (∃ s : State, bitOf64 s.vx.level 30 = false ∧ classMapOf s.vx.classes 30 < 3 ∧ classMapOf s.vx.classes 30 ≠ 2
        ∧ tagged s 30 (classMapOf s.vx.classes 30) 0#32 = false ∧ s.vx.fValid = true ∧ s.vx.fInjected = false ∧ s.vx.fTime = s.tm.now
        ∧ s.vx.fClass < classMapOf s.vx.classes 30)
    ∧ (∃ s : State, bitOf64 s.vx.level 30 = false ∧ classMapOf s.vx.classes 30 ≠ 2 ∧ tagged s 30 (classMapOf s.vx.classes 30) 0#32 = false
        ∧ s.vx.fValid = true ∧ s.vx.fInjected = false ∧ s.boot.phase = .b2 ∧ s.vx.fTime = s.tm.now) :=
  ⟨⟨sv, by decide +kernel⟩,
   ⟨{ sv with vx := { (sv).vx with fValid := true, fSource := 3, fTime := 5 } }, by decide +kernel⟩,
   ⟨{ sv with vx := { (sv).vx with windows := [(.device, [])] } }, by decide +kernel⟩,
   ⟨{ sv with vx := { (sv).vx with fValid := true, fSource := 3, fClass := 0 } }, by decide +kernel⟩,
   ⟨{ { sv with vx := { (sv).vx with fValid := true, fSource := 3, fClass := 0 } } with boot := { sv.boot with phase := .b2 } },
       by decide +kernel⟩⟩

/-- States that meet the hypotheses of `VertexCommands`. -/
theorem meets_VertexCommands :
    (∃ s : State, ready s 0 = some (P s 0) ∧ (s.cr 0).cmd.bind (·.comp) = none ∧ sharedCheck s (P s 0) = none ∧ pOpcode (P s 0) = 0x70)
    ∧ (∃ s : State, ready s 0 = some (P s 0) ∧ (s.cr 0).cmd.bind (·.comp) = none ∧ sharedCheck s (P s 0) = none ∧ pOpcode (P s 0) = 0x73
        ∧ (classFixed 22 = true
        ∧ classMapOf [(0, wd (P s 0) 2), (1, wd (P s 0) 3), (2, wd (P s 0) 4), (3, wd (P s 0) 5)] 22 ≠ classMapOf Vx.classMap 22))
    ∧ (∃ s : State, ready s 0 = some (P s 0) ∧ (s.cr 0).cmd.bind (·.comp) = none ∧ sharedCheck s (P s 0) = none ∧ pOpcode (P s 0) = 0x73
        ∧ (∀ i : Fin 64, (classFixed i.val = true → classMapOf [(0, wd (P s 0) 2), (1, wd (P s 0) 3), (2, wd (P s 0) 4), (3, wd (P s 0) 5)]
        i.val = classMapOf Vx.classMap i.val)
        ∧ (classMapOf [(0, wd (P s 0) 2), (1, wd (P s 0) 3), (2, wd (P s 0) 4), (3, wd (P s 0) 5)] i.val = 2 → mayContain i.val = true))
        ∧ (∃ i : Fin 64, bitOf64 s.vx.stat i.val = true
        ∧ classMapOf [(0, wd (P s 0) 2), (1, wd (P s 0) 3), (2, wd (P s 0) 4), (3, wd (P s 0) 5)] i.val ≠ classMapOf s.vx.classes i.val))
    ∧ (∃ s : State, ready s 0 = some (P s 0) ∧ (s.cr 0).cmd.bind (·.comp) = none ∧ sharedCheck s (P s 0) = none ∧ pOpcode (P s 0) = 0x73
        ∧ (∀ i : Fin 64, (classFixed i.val = true → classMapOf [(0, wd (P s 0) 2), (1, wd (P s 0) 3), (2, wd (P s 0) 4), (3, wd (P s 0) 5)]
        i.val = classMapOf Vx.classMap i.val)
        ∧ (classMapOf [(0, wd (P s 0) 2), (1, wd (P s 0) 3), (2, wd (P s 0) 4), (3, wd (P s 0) 5)] i.val = 2 → mayContain i.val = true))
        ∧ (∀ i : Fin 64, bitOf64 s.vx.stat i.val = true → classMapOf [(0, wd (P s 0) 2), (1, wd (P s 0) 3), (2, wd (P s 0) 4), (3, wd (P s
        0) 5)] i.val = classMapOf s.vx.classes i.val))
    ∧ (∃ s : State, ready s 0 = some (P s 0) ∧ (s.cr 0).cmd.bind (·.comp) = none ∧ sharedCheck s (P s 0) = none ∧ pOpcode (P s 0) = 0x71
        ∧ join64 (wd (P s 0) 2) (wd (P s 0) 3) = 0#64 ∧ pFlags (P s 0) = 0)
    ∧ (∃ s : State, ready s 0 = some (P s 0) ∧ (s.cr 0).cmd.bind (·.comp) = none ∧ sharedCheck s (P s 0) = none ∧ pOpcode (P s 0) = 0x71
        ∧ join64 (wd (P s 0) 2) (wd (P s 0) 3) ≠ 0#64)
    ∧ (∃ s : State, ready s 0 = some (P s 0) ∧ (s.cr 0).cmd.bind (·.comp) = none ∧ sharedCheck s (P s 0) = none ∧ pOpcode (P s 0) = 0x71
        ∧ bitOf64 (join64 (wd (P s 0) 2) (wd (P s 0) 3)) 41 = true ∧ bitOf64 s.vx.stat 41 = true ∧ s.vx.held = [] ∧ (s.chan 3).ceil = true)
    ∧ (∃ s : State, ready s 0 = some (P s 0) ∧ (s.cr 0).cmd.bind (·.comp) = none ∧ sharedCheck s (P s 0) = none ∧ pOpcode (P s 0) = 0x71
        ∧ join64 (wd (P s 0) 2) (wd (P s 0) 3) ≠ 0#64 ∧ s.vx.held = []) :=
  ⟨⟨cmd 0 [0x70] { sv with vx := { (sv).vx with stat := 0x500000003#64 } }, by decide +kernel⟩,
   ⟨cmd 0 [0x73, 0] (unl sv), by decide +kernel⟩,
   ⟨cmd 0 [0x73, 0, 0x6AAAAAAA, 0x57FD7552, 0x005855F5, 0x30000000] { (unl sv) with vx := { ((unl sv)).vx with stat := 0x8000#64 } },
       by decide +kernel⟩,
   ⟨cmd 0 [0x73, 0, 0x6AAAAAAA, 0x57FD7552, 0x005855F5, 0x30000000] (unl sv), by decide +kernel⟩,
   ⟨cmd 0 [0x71] sv, by decide +kernel⟩,
   ⟨cmd 0 [0x71, 0, 0xF, 0x10] { sv with vx := { (sv).vx with stat := 0x100000007#64, level := 2#64, genuine3 := 4#64 } },
       by decide +kernel⟩,
   ⟨cmd 0 [0x71, 0, 0, 0x200]
       { (sv.modChan 3 fun c => { c with ceil := true, boffCnt := 5, window := true }) with vx := { ((sv.modChan 3 fun c => { c with ceil := true, boffCnt := 5, window := true })).vx with stat := 0x20000000000#64 } },
       by decide +kernel⟩,
   ⟨cmd 0 [0x71, 0, 0xF, 0] { sv with vx := { (sv).vx with stat := 7#64, level := 2#64, genuine3 := 4#64 } }, by decide +kernel⟩⟩

/-- States that meet the hypotheses of `ProofTests`. -/
theorem meets_ProofTests :
    (∃ s : State, ready s 0 = some (P s 0) ∧ (s.cr 0).cmd.bind (·.comp) = none ∧ sharedCheck s (P s 0) = none
        ∧ isProof false (P s 0) = true ∧ 44 ≤ fld (wd (P s 0) 1) 0 6)
    ∧ (∃ s : State, ready s 0 = some (P s 0) ∧ (s.cr 0).cmd.bind (·.comp) = none ∧ sharedCheck s (P s 0) = none
        ∧ isProof false (P s 0) = true ∧ instanceOk 16 16 = true ∧ s.vx.proof = none)
    ∧ (∃ s : State, ready s 0 = some (P s 0) ∧ (s.cr 0).cmd.bind (·.comp) = none ∧ sharedCheck s (P s 0) = none
        ∧ isProof false (P s 0) = true ∧ instanceOk 43 0 = true ∧ s.vx.proof.isSome = true)
    ∧ (∃ s : State, ready s 0 = some (P s 0) ∧ (s.cr 0).cmd.bind (·.comp) = none ∧ sharedCheck s (P s 0) = none
        ∧ isProof false (P s 0) = true ∧ instanceOk 43 0 = true ∧ s.vx.proof = none ∧ bitOf64 s.vx.stat 43 = false)
    ∧ (∃ s : State, s.vx.proof.isSome = true)
    ∧ (∃ s : State, ready s 0 = some (P s 0) ∧ (s.cr 0).cmd.bind (·.comp) = none ∧ sharedCheck s (P s 0) = none
        ∧ isProof true (P s 0) = true ∧ fld (wd (P s 0) 2) 0 2 = 3)
    ∧ (∃ s : State, ready s 0 = some (P s 0) ∧ (s.cr 0).cmd.bind (·.comp) = none ∧ sharedCheck s (P s 0) = none
        ∧ isProof true (P s 0) = true ∧ s.vx.testMode = false)
    ∧ (∃ s : State, ready s 0 = some (P s 0) ∧ (s.cr 0).cmd.bind (·.comp) = none ∧ sharedCheck s (P s 0) = none
        ∧ isProof true (P s 0) = true ∧ s.vx.testMode = true ∧ s.vx.proof.isSome = true)
    ∧ (∃ s : State, ready s 0 = some (P s 0) ∧ (s.cr 0).cmd.bind (·.comp) = none ∧ sharedCheck s (P s 0) = none
        ∧ isProof true (P s 0) = true ∧ s.vx.testMode = true ∧ s.vx.proof = none)
    ∧ (∃ s : State, ready s 0 = some (P s 0) ∧ (s.cr 0).cmd.bind (·.comp) = none ∧ sharedCheck s (P s 0) = none
        ∧ isProof true (P s 0) = true ∧ s.vx.testMode = true ∧ s.vx.proof = none ∧ fld (wd (P s 0) 2) 0 2 ≠ 1)
    ∧ (∃ s : State, s.vx.proof.map (·.ring) = some 0 ∧ inProgress s 0 = true)
    ∧ (∃ s : State, ready s 0 = some (P s 0) ∧ (s.cr 0).cmd.bind (·.comp) = none ∧ sharedCheck s (P s 0) = none
        ∧ isProof false (P s 0) = true ∧ 44 ≤ fld (wd (P s 0) 1) 0 6)
    ∧ (∃ s : State, ready s 0 = some (P s 0) ∧ (s.cr 0).cmd.bind (·.comp) = none ∧ sharedCheck s (P s 0) = none
        ∧ isProof false (P s 0) = true ∧ instanceOk 43 0 = true ∧ s.vx.proof = none) :=
  ⟨⟨cmd 0 [0x72, 44] sv, by decide +kernel⟩,
   ⟨cmd 0 [0x72, 0x410] sv, by decide +kernel⟩,
   ⟨cmd 0 [0x72, 43] { sv with vx := { (sv).vx with proof := some { source := 30, inst := 0, ring := 0, start := 0 } } },
       by decide +kernel⟩,
   ⟨cmd 0 [0x72, 43] sv, by decide +kernel⟩,
   ⟨startedCmd 0 [0x72, 30] { sv with vx := { (sv).vx with proof := some { source := 30, inst := 0, ring := 0, start := 0 } } },
       by decide +kernel⟩,
   ⟨cmd 0 [0x172, 0, 3] sv, by decide +kernel⟩,
   ⟨cmd 0 [0x172, 0, 1] sv, by decide +kernel⟩,
   ⟨cmd 0 [0x172, 0, 1] { sv with vx := { (sv).vx with testMode := true, proof := some { source := 30, inst := 0, ring := 0, start := 0 } } },
       by decide +kernel⟩,
   ⟨cmd 0 [0x172, 0, 1] { sv with vx := { (sv).vx with testMode := true, aliveRun := true } }, by decide +kernel⟩,
   ⟨cmd 0 [0x172, 0, 2] { sv with vx := { (sv).vx with testMode := true, aliveRun := true } }, by decide +kernel⟩,
   ⟨startedCmd 0 [0x72, 30]
       { sv with vx := { (sv).vx with proof := some { source := 30, inst := 0, ring := 0, start := 0 }, fValid := true, fSource := 9, fClass := 2 } },
       by decide +kernel⟩,
   ⟨cmd 0 [0x72, 44] { sv with vx := { (sv).vx with fValid := true, fSource := 9, fClass := 2 } }, by decide +kernel⟩,
   ⟨cmd 0 [0x72, 43] sv, by decide +kernel⟩⟩

/-- States that meet the hypotheses of `ChannelConfigureAndStart`. -/
theorem meets_ChannelConfigureAndStart :
    (∃ s : State, ready s 0 = some (P s 0) ∧ (s.cr 0).cmd.bind (·.comp) = none ∧ sharedCheck s (P s 0) = none ∧ pOpcode (P s 0) = 0x10
        ∧ fld (wd (P s 0) 1) 4 28 ≠ 0)
    ∧ (∃ s : State, ready s 0 = some (P s 0) ∧ (s.cr 0).cmd.bind (·.comp) = none ∧ sharedCheck s (P s 0) = none ∧ pOpcode (P s 0) = 0x10
        ∧ (s.chan 15).state ≠ .stopped ∧ addrOk s 0 0 0 256 = true)
    ∧ (∃ s : State, ready s 0 = some (P s 0) ∧ (s.cr 0).cmd.bind (·.comp) = none ∧ sharedCheck s (P s 0) = none ∧ pOpcode (P s 0) = 0x10
        ∧ (s.chan 15).state = .stopped ∧ (s.cr 0).serial = false)
    ∧ (∃ s : State, ready s 0 = some (P s 0) ∧ (s.cr 0).cmd.bind (·.comp) = none ∧ sharedCheck s (P s 0) = none ∧ pOpcode (P s 0) = 0x10
        ∧ addrOk s 0 0 0 256 = true ∧ (∃ e ∈ chRegs, wordAt (stgRead s 0 256) e.1 &&& e.2.2 ≠ 0#32))
    ∧ (∃ s : State, ready s 0 = some (P s 0) ∧ (s.cr 0).cmd.bind (·.comp) = none ∧ sharedCheck s (P s 0) = none ∧ pOpcode (P s 0) = 0x10
        ∧ addrOk s 0 0 0 256 = true ∧ (∀ e ∈ chRegs, wordAt (stgRead s 0 256) e.1 &&& e.2.2 = 0#32))
    ∧ (∃ s : State, ready s 0 = some (P s 0) ∧ (s.cr 0).cmd.bind (·.comp) = none ∧ sharedCheck s (P s 0) = none ∧ pOpcode (P s 0) = 0x11
        ∧ fld (wd (P s 0) 1) 4 28 ≠ 0)
    ∧ (∃ s : State, ready s 0 = some (P s 0) ∧ (s.cr 0).cmd.bind (·.comp) = none ∧ sharedCheck s (P s 0) = none ∧ pOpcode (P s 0) = 0x11
        ∧ (s.chan 15).ceil = true ∧ (s.chan 15).state = .stopped)
    ∧ (∃ s : State, ready s 0 = some (P s 0) ∧ (s.cr 0).cmd.bind (·.comp) = none ∧ sharedCheck s (P s 0) = none ∧ pOpcode (P s 0) = 0x11
        ∧ (s.chan 15).state = .stopped ∧ (s.chan 15).ceil = false ∧ startStatus s 15 = eParam)
    ∧ (∃ s : State, ready s 0 = some (P s 0) ∧ (s.cr 0).cmd.bind (·.comp) = none ∧ sharedCheck s (P s 0) = none ∧ pOpcode (P s 0) = 0x11
        ∧ (s.chan 15).state = .stopped ∧ (s.chan 15).ceil = false ∧ startStatus s 15 = stOk)
    ∧ (∃ s : State, dmaWaits s 0 = true ∧ hostIdle s = true ∧ slotBad s .hostDma = none ∧ fld (pkt s 0 0) 0 8 = 0x10
        ∧ (s.chan 15).state ≠ .stopped)
    ∧ (∃ s : State, dmaWaits s 0 = true ∧ hostIdle s = true ∧ slotBad s .hostDma = none ∧ (s.chan 15).state = .stopped
        ∧ (∃ e ∈ chRegs, wordAt (bytesOfWords [0, 0x400]) e.1 &&& e.2.2 ≠ 0#32))
    ∧ (∃ s : State, dmaWaits s 0 = true ∧ hostIdle s = true ∧ slotBad s .hostDma = none ∧ (s.chan 15).state = .stopped
        ∧ (∀ e ∈ chRegs, wordAt (bytesOfWords [0, 0x70]) e.1 &&& e.2.2 = 0#32)) :=
  ⟨⟨cmd 0 [0x10, 0x1F] sv, by decide +kernel⟩,
   ⟨cmd 0 [0x10, 15] (sv.modChan 15 fun c => { c with state := .active }), by decide +kernel⟩,
   ⟨cmd 0 [0x10, 15] sv, by decide +kernel⟩,
   ⟨stgWrite (cmdS 0 [0x10, 15] sv) 0 (bytesOfWords [0, 0x400]), by decide +kernel⟩,
   ⟨stgWrite (cmdS 0 [0x10, 15] sv) 0 (bytesOfWords [0, 0x70]), by decide +kernel⟩,
   ⟨cmd 0 [0x11, 0x1F] sv, by decide +kernel⟩,
   ⟨cmd 0 [0x11, 15] (sv.modChan 15 fun c => { c with ceil := true }), by decide +kernel⟩,
   ⟨cmd 0 [0x11, 15] (sv.modChan 15 fun c => { c with nom := 0 }), by decide +kernel⟩,
   ⟨cmd 0 [0x11, 15] (sv.modChan 15 fun c => { c with tecCnt := 7 }), by decide +kernel⟩,
   ⟨((startedCmd 0 [0x10, 15] (sv.modChan 15 fun c => { c with state := .active })).modCmd 0 fun d => { d with dma := true }),
       by decide +kernel⟩,
   ⟨((startedCmd 0 [0x10, 15] sv).modCmd 0 fun d => { d with dma := true }), by decide +kernel⟩,
   ⟨((startedCmd 0 [0x10, 15] sv).modCmd 0 fun d => { d with dma := true }), by decide +kernel⟩⟩

/-- States that meet the hypotheses of `ChannelRecover`. -/
theorem meets_ChannelRecover :
    (∃ s : State, ready s 0 = some (P s 0) ∧ (s.cr 0).cmd.bind (·.comp) = none ∧ sharedCheck s (P s 0) = none ∧ pOpcode (P s 0) = 0x14
        ∧ fld (wd (P s 0) 1) 4 28 = 0 ∧ (s.chan 15).boff = .backoff)
    ∧ (∃ s : State, ready s 0 = some (P s 0) ∧ (s.cr 0).cmd.bind (·.comp) = none ∧ sharedCheck s (P s 0) = none ∧ pOpcode (P s 0) = 0x14
        ∧ (s.chan 15).boff = .waitHost)
    ∧ (∃ s : State, ready s 0 = some (P s 0) ∧ (s.cr 0).cmd.bind (·.comp) = none ∧ sharedCheck s (P s 0) = none ∧ pOpcode (P s 0) = 0x14
        ∧ (s.chan 15).boff = .recovering)
    ∧ (∃ s : State, ready s 0 = some (P s 0) ∧ (s.cr 0).cmd.bind (·.comp) = none ∧ sharedCheck s (P s 0) = none ∧ pOpcode (P s 0) = 0x14
        ∧ (s.chan 15).boff = .latched)
    ∧ (∃ s : State, ready s 0 = some (P s 0) ∧ (s.cr 0).cmd.bind (·.comp) = none ∧ sharedCheck s (P s 0) = none ∧ pOpcode (P s 0) = 0x14
        ∧ (s.chan 15).boff = .none)
    ∧ (∃ s : State, ready s 0 = some (P s 0) ∧ (s.cr 0).cmd.bind (·.comp) = none ∧ sharedCheck s (P s 0) = none ∧ pOpcode (P s 0) = 0x11
        ∧ (s.chan 15).ceil = true)
    ∧ (∃ s : State, nx (exec (.chStop 0) s) ≠ none) :=
  ⟨⟨cmd 0 [0x14, 15] (sv.modChan 15 fun c => { c with boff := .backoff, seqCnt := 7 }), by decide +kernel⟩,
   ⟨cmd 0 [0x14, 15] (sv.modChan 15 fun c => { c with boff := .waitHost }), by decide +kernel⟩,
   ⟨cmd 0 [0x14, 15] (sv.modChan 15 fun c => { c with boff := .recovering }), by decide +kernel⟩,
   ⟨cmd 0 [0x14, 15] (sv.modChan 15 fun c => { c with boff := .latched }), by decide +kernel⟩,
   ⟨cmd 0 [0x14, 15] sv, by decide +kernel⟩,
   ⟨cmd 0 [0x11, 15] (sv.modChan 15 fun c => { c with ceil := true }), by decide +kernel⟩,
   ⟨cmd 0 [0x12, 15] (sv.modChan 15 fun c => { c with ceil := true, boff := .latched, state := .busOff }), by decide +kernel⟩⟩

/-- States that meet the hypotheses of `ChannelTimers`. -/
theorem meets_ChannelTimers :
    (∃ s : State, (s.chan 15).state = .integrating ∧ samples s 15 = true ∧ (s.chan 15).settling = false)
    ∧ (∃ s : State, samples s 15 = false)
    ∧ (∃ s : State, (s.chan 15).boff = .backoff)
    ∧ (∃ s : State, (s.chan 15).boff = .recovering ∧ samples s 15 = true ∧ (s.chan 15).seqCnt < 127)
    ∧ (∃ s : State, (s.chan 15).boff = .recovering ∧ samples s 15 = true ∧ (s.chan 15).seqCnt = 127)
    ∧ (∃ s : State, (s.chan 15).window = true)
    ∧ (∃ s : State, regReach .pcie 0x10030 s = true) :=
  ⟨⟨(sv.modChan 15 fun c => { c with state := .integrating, trx := 0, trxTgt := 0 }), by decide +kernel⟩,
   ⟨sv, by decide +kernel⟩,
   ⟨(sv.modChan 15 fun c => { c with boff := .backoff }), by decide +kernel⟩,
   ⟨(sv.modChan 15 fun c => { c with boff := .recovering, state := .busOff, seqCnt := 126, trx := 0, trxTgt := 0 }), by decide +kernel⟩,
   ⟨(sv.modChan 15 fun c => { c with boff := .recovering, state := .busOff, seqCnt := 127, tecCnt := 256, trx := 0, trxTgt := 0 }),
       by decide +kernel⟩,
   ⟨(sv.modChan 15 fun c => { c with window := true, boffCnt := 3 }), by decide +kernel⟩,
   ⟨(sv.modChan 15 fun c => { c with dupStat := 0x40005, dupSrc := 18, dupCnt := 3 }), by decide +kernel⟩⟩

/-- States that meet the hypotheses of `ChannelStopAndCounters`. -/
theorem meets_ChannelStopAndCounters :
    (∃ s : State, ready s 0 = some (P s 0) ∧ (s.cr 0).cmd.bind (·.comp) = none ∧ sharedCheck s (P s 0) = none ∧ pOpcode (P s 0) = 0x12
        ∧ fld (wd (P s 0) 1) 4 28 ≠ 0)
    ∧ (∃ s : State, ready s 0 = some (P s 0) ∧ (s.cr 0).cmd.bind (·.comp) = none ∧ sharedCheck s (P s 0) = none ∧ pOpcode (P s 0) = 0x12
        ∧ (s.chan 15).state = .stopped)
    ∧ (∃ s : State, ready s 0 = some (P s 0) ∧ (s.cr 0).cmd.bind (·.comp) = none ∧ sharedCheck s (P s 0) = none ∧ pOpcode (P s 0) = 0x12
        ∧ (s.chan 15).state = .active ∧ frameOnWire s 15 = true)
    ∧ (∃ s : State, ready s 0 = some (P s 0) ∧ (s.cr 0).cmd.bind (·.comp) = none ∧ sharedCheck s (P s 0) = none ∧ pOpcode (P s 0) = 0x12
        ∧ (s.chan 15).state = .active ∧ frameOnWire s 15 = false)
    ∧ (∃ s : State, ready s 0 = some (P s 0) ∧ (s.cr 0).cmd.bind (·.comp) = none ∧ sharedCheck s (P s 0) = none ∧ pOpcode (P s 0) = 0x12
        ∧ (s.chan 15).state = .busOff)
    ∧ (∃ s : State, ready s 0 = some (P s 0) ∧ (s.cr 0).cmd.bind (·.comp) = none ∧ sharedCheck s (P s 0) = none ∧ pOpcode (P s 0) = 0x15
        ∧ addrOk s 0 3585 0 256 = false)
    ∧ (∃ s : State, ready s 0 = some (P s 0) ∧ (s.cr 0).cmd.bind (·.comp) = none ∧ sharedCheck s (P s 0) = none ∧ pOpcode (P s 0) = 0x15
        ∧ (s.cr 0).serial = false)
    ∧ (∃ s : State, ready s 0 = some (P s 0) ∧ (s.cr 0).cmd.bind (·.comp) = none ∧ sharedCheck s (P s 0) = none ∧ pOpcode (P s 0) = 0x15
        ∧ addrOk s 0 3584 0 256 = true ∧ (s.cr 0).serial = true)
    ∧ (∃ s : State, ready s 0 = some (P s 0) ∧ (s.cr 0).cmd.bind (·.comp) = none ∧ sharedCheck s (P s 0) = none ∧ pOpcode (P s 0) = 0x12
        ∧ (s.chan 15).state = .stopping)
    ∧ (∃ s : State, ready s 0 = some (P s 0) ∧ (s.cr 0).cmd.bind (·.comp) = none ∧ sharedCheck s (P s 0) = none ∧ pOpcode (P s 0) = 0x12
        ∧ (s.chan 15).state = .integrating) :=
  ⟨⟨cmd 0 [0x12, 0x1F] sv, by decide +kernel⟩,
   ⟨cmd 0 [0x12, 15] sv, by decide +kernel⟩,
   ⟨cmd 0 [0x12, 15] (sv.modChan 15 fun c => { c with state := .active, rx := some rx0 }), by decide +kernel⟩,
   ⟨cmd 0 [0x12, 15] (sv.modChan 15 fun c => { c with state := .active }), by decide +kernel⟩,
   ⟨cmd 0 [0x12, 15] (sv.modChan 15 fun c => { c with state := .busOff, boff := .recovering, seqCnt := 9 }), by decide +kernel⟩,
   ⟨cmdS 0 [0x15, 15, 3585] sv, by decide +kernel⟩,
   ⟨cmd 0 [0x15, 15, 0x1000] (sv.modChan 15 fun c => { c with cnt := [(0, 5), (172, 6)] }), by decide +kernel⟩,
   ⟨cmdS 0 [0x15, 15, 3584] sv, by decide +kernel⟩,
   ⟨cmd 0 [0x12, 15] (sv.modChan 15 fun c => { c with state := .stopping, rx := some rx0 }), by decide +kernel⟩,
   ⟨cmd 0 [0x12, 15] (sv.modChan 15 fun c => { c with state := .integrating }), by decide +kernel⟩⟩

/-- States that meet the hypotheses of `Transceivers`. -/
theorem meets_Transceivers :
    (∃ s : State, ready s 0 = some (P s 0) ∧ (s.cr 0).cmd.bind (·.comp) = none ∧ sharedCheck s (P s 0) = none ∧ pOpcode (P s 0) = 0x13
        ∧ fld (wd (P s 0) 1) 4 28 ≠ 0)
    ∧ (∃ s : State, ready s 0 = some (P s 0) ∧ (s.cr 0).cmd.bind (·.comp) = none ∧ sharedCheck s (P s 0) = none ∧ pOpcode (P s 0) = 0x13
        ∧ (s.chan 15).forced = true)
    ∧ (∃ s : State, ready s 0 = some (P s 0) ∧ (s.cr 0).cmd.bind (·.comp) = none ∧ sharedCheck s (P s 0) = none ∧ pOpcode (P s 0) = 0x13
        ∧ (s.chan 15).settling = true ∧ (s.chan 15).forced = false)
    ∧ (∃ s : State, ready s 0 = some (P s 0) ∧ (s.cr 0).cmd.bind (·.comp) = none ∧ sharedCheck s (P s 0) = none ∧ pOpcode (P s 0) = 0x13
        ∧ encBad (s.chan 15).trxEnc 0 = true)
    ∧ (∃ s : State, ready s 0 = some (P s 0) ∧ (s.cr 0).cmd.bind (·.comp) = none ∧ sharedCheck s (P s 0) = none ∧ pOpcode (P s 0) = 0x13
        ∧ encBad (s.chan 15).trxEnc 2 = false ∧ 2 = (s.chan 15).trx ∧ (s.chan 15).forced = false ∧ (s.chan 15).settling = false)
    ∧ (∃ s : State, ready s 0 = some (P s 0) ∧ (s.cr 0).cmd.bind (·.comp) = none ∧ sharedCheck s (P s 0) = none ∧ pOpcode (P s 0) = 0x13
        ∧ encBad (s.chan 15).trxEnc 1 = false ∧ 1 ≠ (s.chan 15).trx ∧ (s.chan 15).trx < 2 ∧ frameOnWire s 15 = true)
    ∧ (∃ s : State, ready s 0 = some (P s 0) ∧ (s.cr 0).cmd.bind (·.comp) = none ∧ sharedCheck s (P s 0) = none ∧ pOpcode (P s 0) = 0x13
        ∧ encBad (s.chan 15).trxEnc 1 = false ∧ 1 ≠ (s.chan 15).trx ∧ (s.chan 15).trx < 2 ∧ frameOnWire s 15 = false
        ∧ (s.chan 15).trxRing = none)
    ∧ (∃ s : State, ready s 0 = some (P s 0) ∧ (s.cr 0).cmd.bind (·.comp) = none ∧ sharedCheck s (P s 0) = none ∧ pOpcode (P s 0) = 0x13
        ∧ encBad (s.chan 15).trxEnc 3 = false ∧ 2 ≤ fld (wd (P s 0) 2) 0 2 ∧ frameOnWire s 15 = false ∧ (s.chan 15).trxRing = none
        ∧ fld (s.chan 15).trxTim 0 16 ≠ 0)
    ∧ (∃ s : State, (s.chan 15).settling = true ∧ (s.chan 15).trx = (s.chan 15).trxTgt)
    ∧ (∃ s : State, (s.chan 15).settling = true ∧ (s.chan 15).trx < 2 ∧ (s.chan 15).trxTgt < 2 ∧ frameOnWire s 15 = false
        ∧ (s.chan 15).trx ≠ (s.chan 15).trxTgt)
    ∧ (∃ s : State, ready s 0 = some (P s 0) ∧ (s.cr 0).cmd.bind (·.comp) = none ∧ sharedCheck s (P s 0) = none ∧ pOpcode (P s 0) = 0x13
        ∧ encBad (s.chan 15).trxEnc 3 = false ∧ 3 ≠ (s.chan 15).trx ∧ frameOnWire s 15 = true ∧ (s.chan 15).trxRing = none
        ∧ (s.chan 15).state = .active ∧ fld (s.chan 15).trxTim 0 16 ≠ 0)
    ∧ (∃ s : State, ready s 0 = some (P s 0) ∧ (s.cr 0).cmd.bind (·.comp) = none ∧ sharedCheck s (P s 0) = none ∧ pOpcode (P s 0) = 0x13
        ∧ encBad (s.chan 15).trxEnc 0 = false ∧ 2 ≤ (s.chan 15).trx ∧ (s.chan 15).forced = false ∧ (s.chan 15).settling = false
        ∧ groupCommitted s 15 = false ∧ fld (s.chan 15).trxTim 0 16 ≠ 0)
    ∧ (∃ s : State, ready s 0 = some (P s 0) ∧ (s.cr 0).cmd.bind (·.comp) = none ∧ sharedCheck s (P s 0) = none ∧ pOpcode (P s 0) = 0x13
        ∧ encBad (s.chan 15).trxEnc 0 = false ∧ 2 ≤ (s.chan 15).trx ∧ (s.chan 15).forced = false ∧ (s.chan 15).settling = false
        ∧ groupCommitted s 15 = true) :=
  ⟨⟨cmd 0 [0x13, 0x1F, 0] sv, by decide +kernel⟩,
   ⟨cmd 0 [0x13, 15, 0] (sv.modChan 15 fun c => { c with forced := true }), by decide +kernel⟩,
   ⟨cmd 0 [0x13, 15, 0] (sv.modChan 15 fun c => { c with settling := true }), by decide +kernel⟩,
   ⟨cmd 0 [0x13, 15, 0] (sv.modChan 15 fun c => { c with trxEnc := 0xFFFFFFFF }), by decide +kernel⟩,
   ⟨cmd 0 [0x13, 15, 2] sv, by decide +kernel⟩,
   ⟨cmd 0 [0x13, 15, 1] (sv.modChan 15 fun c => { c with trx := 0, trxTgt := 0, rx := some rx0 }), by decide +kernel⟩,
   ⟨cmd 0 [0x13, 15, 1] (sv.modChan 15 fun c => { c with trx := 0, trxTgt := 0 }), by decide +kernel⟩,
   ⟨cmd 0 [0x13, 15, 3] (sv.modChan 15 fun c => { c with trx := 0, trxTgt := 0, state := .active }), by decide +kernel⟩,
   ⟨startedCmd 0 [0x13, 15, 2] (sv.modChan 15 fun c => { c with settling := true, trxRing := some 0 }), by decide +kernel⟩,
   ⟨startedCmd 0 [0x13, 15, 1] (sv.modChan 15 fun c => { c with settling := true, trx := 0, trxTgt := 1, trxRing := some 0 }),
       by decide +kernel⟩,
   ⟨cmd 0 [0x13, 15, 3] (sv.modChan 15 fun c => { c with trx := 0, trxTgt := 0, state := .active, rx := some rx0 }), by decide +kernel⟩,
   ⟨cmd 0 [0x13, 15, 0] (sv.modChan 15 fun c => { c with state := .integrating }), by decide +kernel⟩,
   ⟨cmd 0 [0x13, 15, 0] { (sv.modChan 15 fun c => { c with state := .active, trx := 3, trxTgt := 3 }) with pw := { sv.pw with ballot := 3, bal := some { chans := [15], extra := [], window := 0, delay := 0, cause := 0, auto := false, sent := [], ring := none, ring2 := none } } },
       by decide +kernel⟩⟩

/-- States that meet the hypotheses of `PrimeBuffers`. -/
theorem meets_PrimeBuffers :
    (∃ s : State, regReach .pcie 0x10154 s = true ∧ (primeOf s 15 2).armed = true)
    ∧ (∃ s : State, bitOf 1#32 0 = true ∧ (primeOf s 15 2).armed = false ∧ armRefused (primeItem (primeOf s 15 2)) = true
        ∧ regReach .pcie 0x10154 s = true)
    ∧ (∃ s : State, bitOf 1#32 0 = true ∧ (primeOf s 15 2).armed = false ∧ armRefused (primeItem (primeOf s 15 2)) = false
        ∧ regReach .pcie 0x10154 s = true)
    ∧ (∃ s : State, ready s 0 = some (P s 0) ∧ (s.cr 0).cmd.bind (·.comp) = none ∧ sharedCheck s (P s 0) = none ∧ pOpcode (P s 0) = 0x42
        ∧ fld (wd (P s 0) 1) 4 2 = 3)
    ∧ (∃ s : State, ready s 0 = some (P s 0) ∧ (s.cr 0).cmd.bind (·.comp) = none ∧ sharedCheck s (P s 0) = none ∧ pOpcode (P s 0) = 0x42
        ∧ (primeOf s 15 2).armed = true)
    ∧ (∃ s : State, ready s 0 = some (P s 0) ∧ (s.cr 0).cmd.bind (·.comp) = none ∧ sharedCheck s (P s 0) = none ∧ pOpcode (P s 0) = 0x42
        ∧ (primeOf s 15 2).armed = false ∧ (s.cr 0).serial = false)
    ∧ (∃ s : State, ready s 0 = some (P s 0) ∧ (s.cr 0).cmd.bind (·.comp) = none ∧ sharedCheck s (P s 0) = none ∧ pOpcode (P s 0) = 0x42
        ∧ (primeOf s 15 2).armed = false ∧ stgOk s 0 0 32 = true ∧ stgOk s 0 0 (32 + itemBytes (wordsOf (stgRead s 0 32) 8)) = true
        ∧ armRefused { words := (wordsOf (stgRead s 0 (32 + itemBytes (wordsOf (stgRead s 0 32) 8))) 8).set 6 (wd (P s 0) 4 &&& 0xFFFF0007#32), data := ((stgRead s 0 (32 + itemBytes (wordsOf (stgRead s 0 32) 8))).drop 32).take 2 }
        = false ∧ (32 + itemBytes (wordsOf (stgRead s 0 32) 8)) = 34)
    ∧ (∃ s : State, regReach .pcie 0x10154 s = true ∧ bitOf 2#32 0 = false)
    ∧ (∃ s : State, regReach .pcie 0x10154 s = true ∧ bitOf 1#32 0 = true ∧ (primeOf s 15 2).armed = false
        ∧ armRefused (primeItem (primeOf s 15 2)) = false)
    ∧ (∃ s : State, regReach .pcie 0x10154 s = true ∧ (primeOf s 15 2).armed = false ∧ armRefused (primeItem (primeOf s 15 2)) = false
        ∧ (judge s 15 (primeItem (primeOf s 15 2))).isSome = true)
    ∧ (∃ s : State, ready s 0 = some (P s 0) ∧ (s.cr 0).cmd.bind (·.comp) = none ∧ sharedCheck s (P s 0) = none ∧ pOpcode (P s 0) = 0x42
        ∧ (primeOf s 15 2).armed = false ∧ stgOk s 0 0 32 = true ∧ stgOk s 0 0 (32 + itemBytes (wordsOf (stgRead s 0 32) 8)) = true
        ∧ armRefused (primeWords (stgRead s 0 (32 + itemBytes (wordsOf (stgRead s 0 32) 8))) (wd (P s 0) 4 &&& 0xFFFF0007#32)) = true)
    ∧ (∃ s : State, dmaWaits s 0 = true ∧ hostIdle s = true ∧ slotBad s .hostDma = none ∧ fld (pkt s 0 0) 0 8 = 0x42
        ∧ (primeOf s 15 2).armed = true)
    ∧ (∃ s : State, dmaWaits s 0 = true ∧ hostIdle s = true ∧ slotBad s .hostDma = none ∧ (primeOf s 15 2).armed = false
        ∧ armRefused (primeWords (bytesOfWords [9]) (pkt s 0 4 &&& 0xFFFF0007#32)) = true)
    ∧ (∃ s : State, dmaWaits s 0 = true ∧ hostIdle s = true ∧ slotBad s .hostDma = none ∧ (primeOf s 15 2).armed = false
        ∧ armRefused (primeWords (bytesOfWords [2, 0, 0, 0, 0, 0, 0, 0, 5]) (pkt s 0 4 &&& 0xFFFF0007#32)) = false) :=
  ⟨⟨(sv.modChan 15 fun c => { c with primes := [(2, { Prime.reset with armed := true })] }), by decide +kernel⟩,
   ⟨(sv.modChan 15 fun c => { c with primes := [(2, { Prime.reset with desc := [(0, 9)] })] }), by decide +kernel⟩,
   ⟨(sv.modChan 15 fun c =>
       { c with state := .active, trx := 0, trxTgt := 0, dupSrc := 2, dupCnt := 3, primes := [(2, { Prime.reset with desc := [(0, 8)] })] }),
       by decide +kernel⟩,
   ⟨cmd 0 [0x42, 0x3F] sv, by decide +kernel⟩,
   ⟨cmd 0 [0x42, 0x2F] (sv.modChan 15 fun c => { c with primes := [(2, { Prime.reset with armed := true })] }), by decide +kernel⟩,
   ⟨cmd 0 [0x42, 0x2F] sv, by decide +kernel⟩,
   ⟨stgWrite (cmdS 0 [0x42, 0x2F, 0, 0, 5] (sv.modChan 15 fun c => { c with state := .active, trx := 0, trxTgt := 0 })) 0 (bytesOfWords [2,
       0, 0, 0, 0, 0, 0, 0, 5]), by decide +kernel⟩,
   ⟨(sv.modChan 15 fun c => { c with state := .active }), by decide +kernel⟩,
   ⟨(sv.modChan 15 fun c => { c with primes := [(2, { Prime.reset with desc := [(0, 8)] })] }), by decide +kernel⟩,
   ⟨(sv.modChan 15 fun c =>
       { c with state := .active, trx := 0, trxTgt := 0, mode := 0x10, primes := [(2, { Prime.reset with desc := [(0, 0x20000001)] })] }),
       by decide +kernel⟩,
   ⟨stgWrite (cmdS 0 [0x42, 0x2F, 0, 0, 5] sv) 0 (bytesOfWords [9, 0, 0, 0, 0, 0, 0, 0, 5]), by decide +kernel⟩,
   ⟨((startedCmd 0 [0x42, 0x2F, 0, 0, 5] (sv.modChan 15 fun c => { c with primes := [(2, { Prime.reset with armed := true })] })).modCmd 0
       fun d => { d with dma := true }), by decide +kernel⟩,
   ⟨((startedCmd 0 [0x42, 0x2F, 0, 0, 5] sv).modCmd 0 fun d => { d with dma := true }), by decide +kernel⟩,
   ⟨((startedCmd 0 [0x42, 0x2F, 0, 0, 5] (sv.modChan 15 fun c => { c with state := .active, trx := 0, trxTgt := 0 })).modCmd 0 fun d =>
       { d with dma := true }), by decide +kernel⟩⟩

/-- States that meet the hypotheses of `HostSubmissions`. -/
theorem meets_HostSubmissions :
    (∃ s : State, ready s 0 = some (P s 0) ∧ (s.cr 0).cmd.bind (·.comp) = none ∧ sharedCheck s (P s 0) = none ∧ pOpcode (P s 0) = 0x40
        ∧ (s.queue 9).state = .none)
    ∧ (∃ s : State, ready s 0 = some (P s 0) ∧ (s.cr 0).cmd.bind (·.comp) = none ∧ sharedCheck s (P s 0) = none ∧ pOpcode (P s 0) = 0x40
        ∧ (s.queue 9).state ≠ .none ∧ (s.queue 9).consumer ≠ 5)
    ∧ (∃ s : State, ready s 0 = some (P s 0) ∧ (s.cr 0).cmd.bind (·.comp) = none ∧ sharedCheck s (P s 0) = none ∧ pOpcode (P s 0) = 0x40
        ∧ submitQueue s 9 = 0 ∧ (s.cr 0).serial = false)
    ∧ (∃ s : State, ready s 0 = some (P s 0) ∧ (s.cr 0).cmd.bind (·.comp) = none ∧ sharedCheck s (P s 0) = none ∧ pOpcode (P s 0) = 0x40
        ∧ submitQueue s 9 = 0 ∧ stgOk s 3809 0 32 = false)
    ∧ (∃ s : State, ready s 0 = some (P s 0) ∧ (s.cr 0).cmd.bind (·.comp) = none ∧ sharedCheck s (P s 0) = none ∧ pOpcode (P s 0) = 0x40
        ∧ submitQueue s 9 = 0 ∧ stgOk s 0 0 36 = true ∧ 36 = 32 + itemBytes (wordsOf (stgRead s 0 32) 8) ∧ s.boot.profile = false
        ∧ dFormat (wd (wordsOf (stgRead s 0 36) 8) 0) ≤ 3
        ∧ lengthBad (wd (wordsOf (stgRead s 0 36) 8) 0) (wd (wordsOf (stgRead s 0 36) 8) 1) (wd (wordsOf (stgRead s 0 36) 8) 2) = false
        ∧ itStamp { words := (wordsOf (stgRead s 0 36) 8), data := [] } = false)
    ∧ (∃ s : State, (s.cr 0).cmd.bind (·.sub) ≠ none ∧ (s.cr 0).cmd.bind (·.comp) = none ∧ s.pw.mode = .run ∧ cellsFor 4 ≤ 1
        ∧ slotBad s .hostDma = none
        ∧ ((s.cr 0).cmd.map fun c => (c.begun, c.sub.map fun b => hostFirst s (subKey c b))) = some (true, some true))
    ∧ (∃ s : State, (s.cr 0).cmd.bind (·.sub) ≠ none ∧ ((s.cr 0).cmd.bind (·.sub)).map (·.marked) = some true ∧ slotBad s .hostDma = none
        ∧ ((s.cr 0).cmd.map fun c => (c.begun, c.sub.map fun b => hostFirst s (subKey c b))) = some (true, some true) ∧ s.pw.mode = .run
        ∧ (s.cr 0).cmd.bind (·.comp) = none)
    ∧ (∃ s : State, (s.cr 0).cmd.bind (·.sub) ≠ none ∧ allocOk s 9 true = false ∧ slotBad s .hostDma = none
        ∧ ((s.cr 0).cmd.map fun c => (c.begun, c.sub.map fun b => hostFirst s (subKey c b))) = some (true, some true) ∧ s.pw.mode = .run
        ∧ (s.cr 0).cmd.bind (·.comp) = none)
    ∧ (∃ s : State, ((s.cr 0).cmd.bind (·.sub)).map (·.waited) = some true ∧ s.pool.bpTmo ≠ 0)
    ∧ (∃ s : State, (s.cr 0).cmd.bind (·.sub) ≠ none ∧ (s.cr 0).cmd.bind (·.comp) = none ∧ s.pw.mode = .run ∧ slotBad s .hostDma = none
        ∧ ((s.cr 0).cmd.map fun c => (c.begun, c.sub.map fun b => hostFirst s (subKey c b))) = some (true, some true) ∧ cellsFor 4 = 1
        ∧ allocOk s 9 true = true)
    ∧ (∃ s : State, ((s.cr 0).cmd.bind (·.sub)).map (·.arr) = some 0)
    ∧ (∃ s : State, ready s 0 = some (P s 0) ∧ (s.cr 0).cmd.bind (·.comp) = none ∧ sharedCheck s (P s 0) = none ∧ pOpcode (P s 0) = 0x40
        ∧ s.boot.profile = true ∧ (s.cr 0).serial = true ∧ itemOk s 0 (wd (P s 0) 2) (wd (P s 0) 3) = true
        ∧ itStamp { words := wordsOf (stgRead s 0 (stgItem s 0)) 8, data := [] } = true)
    ∧ (∃ s : State, dmaWaits s 0 = true ∧ hostIdle s = true ∧ slotBad s .hostDma = none ∧ fld (pkt s 0 0) 0 8 = 0x40
        ∧ s.boot.profile = true ∧ itStamp { words := wordsOf (bytesOfWords [0, 0, 0, 0, 0, 0, 2]) 8, data := [] } = true)
    ∧ (∃ s : State, dmaWaits s 0 = true ∧ hostIdle s = true ∧ slotBad s .hostDma = none ∧ s.boot.profile = false ∧ submitQueue s 9 ≠ 0)
    ∧ (∃ s : State, dmaWaits s 0 = true ∧ hostIdle s = true ∧ slotBad s .hostDma = none ∧ s.boot.profile = false ∧ submitQueue s 9 = 0
        ∧ lengthBad 9 0 0 = true)
    ∧ (∃ s : State, dmaWaits s 0 = true ∧ hostIdle s = true ∧ slotBad s .hostDma = none ∧ s.boot.profile = false ∧ submitQueue s 9 = 0
        ∧ dFormat 0x00100004 ≤ 3 ∧ lengthBad 0x00100004 0 0 = false ∧ itStamp { words := [0x00100004], data := [] } = false)
    ∧ (∃ s : State, ((s.cr 0).cmd.bind (·.sub)).map (·.waited) = some true ∧ s.pool.bpTmo ≠ 0 ∧ (s.queue 9).flush = none)
    ∧ (∃ s : State, ((s.cr 0).cmd.bind (·.sub)).map (·.marked) = some false ∧ (s.queue 9).consumer ≠ 5 ∧ (s.queue 9).state ≠ .broken
        ∧ allocOk s 9 true = true ∧ slotBad s .hostDma = none
        ∧ ((s.cr 0).cmd.map fun c => (c.begun, c.sub.map fun b => hostFirst s (subKey c b))) = some (true, some true)) :=
  ⟨⟨cmd 0 [0x40, 9] sv, by decide +kernel⟩,
   ⟨cmd 0 [0x40, 9] (withQ 9 0 sv), by decide +kernel⟩,
   ⟨cmd 0 [0x40, 9] (withQ 9 5 sv), by decide +kernel⟩,
   ⟨cmdS 0 [0x40, 9, 3809] (withQ 9 5 sv), by decide +kernel⟩,
   ⟨stgWrite (cmdS 0 [0x40, 9] (withQ 9 5 sv)) 0 (bytesOfWords [0x00100004, 0, 0, 0, 0, 0, 0, 0, 0x04030201]), by decide +kernel⟩,
   ⟨((startedCmd 0 [0x40, 9] { (withQ 9 5 sv) with pool := { (withQ 9 5 sv).pool with owner := [(5, 9)] } }).modCr 0 fun c =>
       { c with cmd := c.cmd.map fun d => { d with sub := some { queue := 9, cls := 1, words := [0x80100004, 0, 0, 0, 0, 0, 0, 0], data := [1, 2, 3, 4], cells := [5], waited := false, marked := false } } }),
       by decide +kernel⟩,
   ⟨((startedCmd 0 [0x40, 9] { (withQ 9 5 sv) with pool := { (withQ 9 5 sv).pool with owner := [(5, 9)] } }).modCr 0 fun c =>
       { c with cmd := c.cmd.map fun d => { d with sub := some { queue := 9, cls := 1, words := [0x80100004, 0, 0, 0, 0, 0, 0, 0], data := [1, 2, 3, 4], cells := [5], waited := false, marked := true } } }),
       by decide +kernel⟩,
   ⟨(((startedCmd 0 [0x40, 9] (withQ 9 5 sv)).modCr 0 fun c =>
       { c with cmd := c.cmd.map fun d => { d with sub := some { queue := 9, cls := 1, words := [0x80100004, 0, 0, 0, 0, 0, 0, 0], data := [1, 2, 3, 4], cells := [], waited := false, marked := false } } })).modQueue
       9 fun u => { u with max := 0 }, by decide +kernel⟩,
   ⟨((startedCmd 0 [0x40, 9] (withQ 9 5 sv)).modCr 0 fun c =>
       { c with cmd := c.cmd.map fun d => { d with sub := some { queue := 9, cls := 1, words := [0x80100004, 0, 0, 0, 0, 0, 0, 0], data := [1, 2, 3, 4], cells := [], waited := true, marked := false } } }),
       by decide +kernel⟩,
   ⟨((startedCmd 0 [0x40, 9] (withQ 9 5 sv)).modCr 0 fun c =>
       { c with cmd := c.cmd.map fun d => { d with sub := some { queue := 9, cls := 1, words := [0x80100004, 0, 0, 0, 0, 0, 0, 0], data := [1, 2, 3, 4], cells := [], waited := false, marked := false } } }),
       by decide +kernel⟩,
   ⟨(((startedCmd 0 [0x40, 9] (withQ 9 5 sv)).modCr 0 fun c =>
       { c with cmd := c.cmd.map fun d => { d with sub := some { queue := 9, cls := 1, words := [0x80100004, 0, 0, 0, 0, 0, 0, 0], data := [1, 2, 3, 4], cells := [], waited := false, marked := false } } })).modQueue
       9 fun u => { u with max := 0 }, by decide +kernel⟩,
   ⟨stgWrite (cmdS 0 [0x40, 9] { sv with boot := { (sv).boot with profile := true } }) 0 (bytesOfWords [0, 0, 0, 0, 0, 0, 2, 0, 0]),
       by decide +kernel⟩,
   ⟨{ ((startedCmd 0 [0x40, 9] (withQ 9 5 sv)).modCmd 0 fun d => { d with dma := true }) with boot := { (((startedCmd 0 [0x40, 9] (withQ 9 5 sv)).modCmd 0 fun d => { d with dma := true })).boot with profile := true } },
       by decide +kernel⟩,
   ⟨((startedCmd 0 [0x40, 9] sv).modCmd 0 fun d => { d with dma := true }), by decide +kernel⟩,
   ⟨((startedCmd 0 [0x40, 9] (withQ 9 5 sv)).modCmd 0 fun d => { d with dma := true }), by decide +kernel⟩,
   ⟨((startedCmd 0 [0x40, 9] (withQ 9 5 sv)).modCmd 0 fun d => { d with dma := true }), by decide +kernel⟩,
   ⟨((startedCmd 0 [0x40, 9] { (withQ 9 5 sv) with pool := { (withQ 9 5 sv).pool with owner := [(4, 9), (5, 9)] } }).modCr 0 fun c =>
       { c with cmd := c.cmd.map fun d => { d with sub := some { queue := 9, cls := 1, words := [0x80100004, 0, 0, 0, 0, 0, 0, 0], data := [1, 2, 3, 4], cells := [5], waited := true, marked := false } } }),
       by decide +kernel⟩,
   ⟨((startedCmd 0 [0x40, 9] { (withQ 9 1 sv) with pool := { (withQ 9 1 sv).pool with owner := [] } }).modCr 0 fun c =>
       { c with cmd := c.cmd.map fun d => { d with sub := some { queue := 9, cls := 1, words := [0x80100004, 0, 0, 0, 0, 0, 0, 0], data := [1, 2, 3, 4], cells := [], waited := false, marked := false } } }),
       by decide +kernel⟩⟩

/-- States that meet the hypotheses of `CancelAndPicker`. -/
theorem meets_CancelAndPicker :
    (∃ s : State, ready s 0 = some (P s 0) ∧ (s.cr 0).cmd.bind (·.comp) = none ∧ sharedCheck s (P s 0) = none ∧ pOpcode (P s 0) = 0x41
        ∧ 18 < fld (wd (P s 0) 1) 4 5)
    ∧ (∃ s : State, ready s 0 = some (P s 0) ∧ (s.cr 0).cmd.bind (·.comp) = none ∧ sharedCheck s (P s 0) = none ∧ pOpcode (P s 0) = 0x41
        ∧ fld (wd (P s 0) 1) 4 5 = 18 ∧ candOf s 15 18 = none)
    ∧ (∃ s : State, ready s 0 = some (P s 0) ∧ (s.cr 0).cmd.bind (·.comp) = none ∧ sharedCheck s (P s 0) = none ∧ pOpcode (P s 0) = 0x41
        ∧ (candOf s 15 2).map itTag = some 7 ∧ bitOf (wd (P s 0) 2) 16 = false)
    ∧ (∃ s : State, ready s 0 = some (P s 0) ∧ (s.cr 0).cmd.bind (·.comp) = none ∧ sharedCheck s (P s 0) = none ∧ pOpcode (P s 0) = 0x41
        ∧ (candOf s 15 2).map itTag = some 7 ∧ (s.chan 15).latch.map (·.source) = some 2)
    ∧ (∃ s : State, ready s 0 = some (P s 0) ∧ (s.cr 0).cmd.bind (·.comp) = none ∧ sharedCheck s (P s 0) = none ∧ pOpcode (P s 0) = 0x41
        ∧ (candOf s 15 2).isSome = true ∧ bitOf (wd (P s 0) 2) 16 = true ∧ (s.chan 15).latch = none)
    ∧ (∃ s : State, maySend s 15 = true ∧ s.pw.mode = .run ∧ (s.chan 15).latch = none ∧ winner s 15 = some 2)
    ∧ (∃ s : State, maySend s 15 = true ∧ s.pw.mode = .run ∧ (s.chan 15).latch = none ∧ winner s 15 = some 18 ∧ isLoaded s 15 18 = false
        ∧ ¬ s.pool.linkBad.contains (candCell s 15 18))
    ∧ (∃ s : State, maySend s 15 = true ∧ (s.chan 15).rx = none ∧ isLoaded s 15 2 = true ∧ (primeOf s 15 2).armed = true ∧ s.pw.mode = .run
        ∧ (s.chan 15).latch = none)
    ∧ (∃ s : State, (s.chan 15).latch = none ∧ maySend s 15 = false)
    ∧ (∃ s : State, s.pw.mode = .run ∧ s.gl.perrSeen = false)
    ∧ (∃ s : State, (s.chan 15).latch.map (fun l => (l.aborting, l.deadline, l.ctGone, l.mistimed)) = some (false, true, false, false)
        ∧ opMode s 15 ≠ 3 ∧ opMode s 15 ≠ 4)
    ∧ (∃ s : State, (s.chan 15).latch.map (fun l => (l.aborting, l.deadline, l.cancel, l.retry, l.ctGone, l.source)) = some (false, false,
        .none, true, false, 2) ∧ (s.chan 15).latch.map (·.item) = candOf s 15 2 ∧ itSingle (primeItem (primeOf s 15 2)) = false
        ∧ judge s 15 (primeItem (primeOf s 15 2)) = none)
    ∧ (∃ s : State, ready s 0 = some (P s 0) ∧ (s.cr 0).cmd.bind (·.comp) = none ∧ sharedCheck s (P s 0) = none ∧ pOpcode (P s 0) = 0x41
        ∧ fld (wd (P s 0) 1) 4 5 = 18 ∧ (candOf s 15 18).isSome = true ∧ (s.chan 15).latch = none
        ∧ ((s.chan 15).taken.find? (fun e => e.1 == 18 - 3)).isSome = true ∧ (s.chan 15).commits = [] ∧ slotBad s (.channel 15) = none)
    ∧ (∃ s : State, ready s 0 = some (P s 0) ∧ (s.cr 0).cmd.bind (·.comp) = none ∧ sharedCheck s (P s 0) = none ∧ pOpcode (P s 0) = 0x41
        ∧ (candOf s 15 18).isSome = true ∧ (s.chan 15).latch = none ∧ ((s.chan 15).taken.find? (fun e => e.1 == 18 - 3)) = none
        ∧ attached s 15 15 = some 9 ∧ (headItem s 9).isSome = true)
    ∧ (∃ s : State, ready s 0 = some (P s 0) ∧ (s.cr 0).cmd.bind (·.comp) = none ∧ sharedCheck s (P s 0) = none ∧ pOpcode (P s 0) = 0x41
        ∧ (candOf s 15 18).isSome = true ∧ attached s 15 15 = some 9 ∧ (s.chan 15).commits ≠ [])
    ∧ (∃ s : State, (s.chan 15).latch.map (fun l => (l.aborting, l.deadline, l.ctGone, l.ctFrom, l.mistimed)) = some (false, true, false,
        none, false) ∧ s.boot.commit = none ∧ (s.chan 15).rets = [] ∧ opMode s 15 ≠ 3 ∧ opMode s 15 ≠ 4) :=
  ⟨⟨cmd 0 [0x41, 0x13F] sv, by decide +kernel⟩,
   ⟨cmd 0 [0x41, 0x12F] sv, by decide +kernel⟩,
   ⟨cmd 0 [0x41, 0x2F, 6] (sv.modChan 15 fun c =>
       { c with state := .active, trx := 0, trxTgt := 0, primes := [(2, { Prime.reset with desc := [(0, 8)], armed := true, ctl := 0x70000 })] }),
       by decide +kernel⟩,
   ⟨cmd 0 [0x41, 0x2F, 7] (sv.modChan 15 fun c =>
       { c with state := .active, trx := 0, trxTgt := 0, primes := [(2, { Prime.reset with desc := [(0, 8)], armed := true, ctl := 0x70000 })], latch := some { source := 2, item := { words := [], data := [] }, af := 0, deadline := false, aborting := false, cancel := .none, rings := [], retry := true, stamp := 0, ctFrom := none, check := none, engBad := false, sent := [] } }),
       by decide +kernel⟩,
   ⟨cmd 0 [0x41, 0x2F, 0x10000] (sv.modChan 15 fun c =>
       { c with state := .active, trx := 0, trxTgt := 0, primes := [(2, { Prime.reset with desc := [(0, 8)], armed := true, ctl := 0x70000 })], dupStat := 4 }),
       by decide +kernel⟩,
   ⟨(sv.modChan 15 fun c =>
       { c with state := .active, trx := 0, trxTgt := 0, primes := [(2, { Prime.reset with desc := [(0, 8)], armed := true, ctl := 0x70000 })] }),
       by decide +kernel⟩,
   ⟨(sv.modChan 15 fun c =>
       { c with state := .active, trx := 0, trxTgt := 0, taken := [(15, { queue := 9, cls := 0, cells := [100], flushed := false })] }),
       by decide +kernel⟩,
   ⟨(sv.modChan 15 fun c =>
       { c with state := .active, trx := 0, trxTgt := 0, primes := [(2, { Prime.reset with desc := [(0, 8)], armed := true, ctl := 0x70000 })], loaded := some 2 }),
       by decide +kernel⟩,
   ⟨sv, by decide +kernel⟩,
   ⟨(sv.modChan 15 fun c =>
       { c with state := .active, trx := 0, trxTgt := 0, primes := [(2, { Prime.reset with desc := [(0, 8)], armed := true, ctl := 0x70000 })] }),
       by decide +kernel⟩,
   ⟨(sv.modChan 15 fun c =>
       { c with state := .active, trx := 0, trxTgt := 0, primes := [(2, { Prime.reset with desc := [(0, 8)], armed := true, ctl := 0x70000 })], latch := some { source := 2, item := { words := [8], data := [] }, af := 0, deadline := true, aborting := false, cancel := .none, rings := [], retry := true, stamp := 0, ctFrom := none, check := none, engBad := false, sent := [] } }),
       by decide +kernel⟩,
   ⟨let u := (sv.modChan 15 fun c =>
       { c with state := .active, trx := 0, trxTgt := 0, primes := [(2, { Prime.reset with desc := [(0, 8)], armed := true, ctl := 0x70000 })] })
 u.modChan 15 fun c =>
     { c with latch := some { source := 2, item := primeItem (primeOf u 15 2), af := 0, deadline := false, aborting := false, cancel := .none, rings := [], retry := true, stamp := 0, ctFrom := none, check := none, engBad := false, sent := [] } },
     by decide +kernel⟩,
   ⟨cmd 0 [0x41, 0x12F, 0x10000] (({ (withQ 9 5 sv) with pool := { (withQ 9 5 sv).pool with owner := [(100, 9)], mem := [(6403, 0x80)] } }
       : State).modChan 15 fun c =>
       { c with state := .active, trx := 0, trxTgt := 0, taken := [(15, { queue := 9, cls := 0, cells := [100], flushed := false })] }),
       by decide +kernel⟩,
   ⟨cmd 0 [0x41, 0x12F, 0x10000] ((withItem 9 0 [100] ((withQ 9 5 sv).modQueue 9 fun u => { u with txCh := 15, txPos := 15 })).modChan 15
       fun c => { c with state := .active, trx := 0, trxTgt := 0 }), by decide +kernel⟩,
   ⟨cmd 0 [0x41, 0x12F, 0x10000] ((withItem 9 0 [100] ((withQ 9 5 sv).modQueue 9 fun u => { u with txCh := 15, txPos := 15 })).modChan 15
       fun c => { c with state := .active, trx := 0, trxTgt := 0, commits := [{ rx0 with chains := [{ dest := .queue 9 2, element := 3, queue := 9, cls := 2, cells := [100], final := true, marked := false }] }] }),
       by decide +kernel⟩,
   ⟨(sv.modChan 15 fun c =>
       { c with state := .active, trx := 0, trxTgt := 0, primes := [(2, { Prime.reset with desc := [(0, 8)], armed := true, ctl := 0x70000 })], latch := some { source := 2, item := { words := [8], data := [] }, af := 0, deadline := true, aborting := false, cancel := .none, rings := [], retry := true, stamp := 0, ctFrom := none, check := none, engBad := false, sent := [] } }),
       by decide +kernel⟩⟩

/-- States that meet the hypotheses of `ReceivedFrames`. -/
theorem meets_ReceivedFrames :
    (∃ s : State, (s.chan 15).rx = none ∧ (s.chan 15).state = .active ∧ samples s 15 = true ∧ rxMode s 15 ≠ 3
        ∧ ownsWire (s.chan 15) = false)
    ∧ (∃ s : State, (s.chan 15).rx = none ∧ (s.chan 15).state = .stopped)
    ∧ (∃ s : State, ((s.chan 15).commits.map fun x => (x.chains.length, x.binds.length)) = [(1, 0)] ∧ s.pw.mode = .run
        ∧ (s.queue 9).consumer ≠ 5 ∧ (s.queue 9).state ≠ .broken ∧ (s.chan 15).rets = []
        ∧ ((s.chan 15).commits.map fun x => x.chains.map fun c => (c.marked, isCut c)) = [[(false, false)]])
    ∧ (∃ s : State, (s.chan 15).commits = [] ∧ (s.chan 15).staged = [] ∧ (s.chan 15).rx = none)
    ∧ (∃ s : State, (s.chan 15).rx ≠ none ∧ (s.chan 15).staged = [] ∧ s.pw.mode = .run ∧ headAwaits s 15 = none)
    ∧ (∃ s : State, (s.chan 15).rx ≠ none)
    ∧ (∃ s : State, s.pw.mode = .run ∧ headAwaits s 15 = none ∧ (s.chan 15).staged = []
        ∧ ((s.chan 15).rx.map fun x => (x.ctSeq, x.frame.isSome, nextWrite x (rxTotal x) 0 x.chains, decide (0 ≠ rxTotal x))) = some (none,
        true, some (0, 0), true) ∧ allocOk s 9 true = true)
    ∧ (∃ s : State, s.pw.mode = .run ∧ headAwaits s 15 = none
        ∧ ((s.chan 15).rx.map fun x => nextWrite x (rxTotal x) 0 x.chains) = some (some (0, 0)) ∧ allocOk s 9 true = false)
    ∧ (∃ s : State, (s.chan 15).rx ≠ none ∧ (s.chan 15).rets = []
        ∧ formatTaken s 15 ({ fmt := .cc, tfmt := 0, ide := false, ident := 0x123, rtr := false, res := false, brs := false, esi := false, sec := false, sdt := 0, vcid := 0, af := 0, dlc := 2, data := [1, 2] }
        : Frame) = true ∧ reduced s 15 = false
        ∧ ccDiscarded s 15 ({ fmt := .cc, tfmt := 0, ide := false, ident := 0x123, rtr := false, res := false, brs := false, esi := false, sec := false, sdt := 0, vcid := 0, af := 0, dlc := 2, data := [1, 2] }
        : Frame) = false ∧ (¬ (isBdp 0x10
        ({ fmt := .cc, tfmt := 0, ide := false, ident := 0x123, rtr := false, res := false, brs := false, esi := false, sec := false, sdt := 0, vcid := 0, af := 0, dlc := 2, data := [1, 2] }
        : Frame) = true ∧ bdpSender
        ({ fmt := .cc, tfmt := 0, ide := false, ident := 0x123, rtr := false, res := false, brs := false, esi := false, sec := false, sdt := 0, vcid := 0, af := 0, dlc := 2, data := [1, 2] }
        : Frame).ident.toNat = devAddr s)) ∧ s.lat.elemErr = [] ∧ s.lat.gateErr = [])
    ∧ (∃ s : State, ((s.chan 15).rx.map fun x => (x.frame.isSome, x.own)) = some (true, false)
        ∧ formatTaken s 15 ({ fmt := .cc, tfmt := 0, ide := false, ident := 0x123, rtr := false, res := false, brs := false, esi := false, sec := false, sdt := 0, vcid := 0, af := 0, dlc := 2, data := [1, 2] }
        : Frame) = true ∧ reduced s 15 = false
        ∧ ccDiscarded s 15 ({ fmt := .cc, tfmt := 0, ide := false, ident := 0x123, rtr := false, res := false, brs := false, esi := false, sec := false, sdt := 0, vcid := 0, af := 0, dlc := 2, data := [1, 2] }
        : Frame) = false ∧ s.boot.commit = none
        ∧ ((s.chan 15).rx.map fun x => (x.crcDone, x.check.isNone, x.gates.length, x.owned)) = some (true, true, 0, false)
        ∧ isBdp 0x10 ({ fmt := .cc, tfmt := 0, ide := false, ident := 0x123, rtr := false, res := false, brs := false, esi := false, sec := false, sdt := 0, vcid := 0, af := 0, dlc := 2, data := [1, 2] }
        : Frame) = false ∧ ((s.chan 15).rx.map (·.verdict)) = some .nomatch ∧ countsLive s 15 = true ∧ (s.chan 15).recCnt ≤ 127)
    ∧ (∃ s : State, ((s.chan 15).rx.map fun x => (x.frame.isSome, x.own)) = some (true, false)
        ∧ formatTaken s 15 ({ fmt := .cc, tfmt := 0, ide := false, ident := 0x123, rtr := false, res := false, brs := false, esi := false, sec := false, sdt := 0, vcid := 0, af := 0, dlc := 2, data := [1, 2] }
        : Frame) = true ∧ reduced s 15 = false
        ∧ ccDiscarded s 15 ({ fmt := .cc, tfmt := 0, ide := false, ident := 0x123, rtr := false, res := false, brs := false, esi := false, sec := false, sdt := 0, vcid := 0, af := 0, dlc := 2, data := [1, 2] }
        : Frame) = false ∧ s.boot.commit = none ∧ ((s.chan 15).rx.map (·.verdict)) = some .dropped)
    ∧ (∃ s : State, ((s.chan 15).rx.map fun x => (x.frame.isSome, x.own)) = some (true, false)
        ∧ formatTaken s 15 ({ fmt := .cc, tfmt := 0, ide := false, ident := 0x123, rtr := false, res := false, brs := false, esi := false, sec := false, sdt := 0, vcid := 0, af := 0, dlc := 2, data := [1, 2] }
        : Frame) = true ∧ reduced s 15 = false
        ∧ ccDiscarded s 15 ({ fmt := .cc, tfmt := 0, ide := false, ident := 0x123, rtr := false, res := false, brs := false, esi := false, sec := false, sdt := 0, vcid := 0, af := 0, dlc := 2, data := [1, 2] }
        : Frame) = false ∧ s.boot.commit = none
        ∧ ((s.chan 15).rx.map fun x => (x.crcDone, x.check.isNone, x.gates.length, x.owned)) = some (true, true, 0, false)
        ∧ isBdp 0x10 ({ fmt := .cc, tfmt := 0, ide := false, ident := 0x123, rtr := false, res := false, brs := false, esi := false, sec := false, sdt := 0, vcid := 0, af := 0, dlc := 2, data := [1, 2] }
        : Frame) = false ∧ ((s.chan 15).rx.map fun x => (x.chains.length, rxWritten x)) = some (1, true))
    ∧ (∃ s : State, ((s.chan 15).rx.map fun x => (x.frame.isSome, x.own)) = some (true, false)
        ∧ formatTaken s 15 ({ fmt := .cc, tfmt := 0, ide := false, ident := 0x123, rtr := false, res := false, brs := false, esi := false, sec := false, sdt := 0, vcid := 0, af := 0, dlc := 2, data := [1, 2] }
        : Frame) = true ∧ reduced s 15 = false
        ∧ ccDiscarded s 15 ({ fmt := .cc, tfmt := 0, ide := false, ident := 0x123, rtr := false, res := false, brs := false, esi := false, sec := false, sdt := 0, vcid := 0, af := 0, dlc := 2, data := [1, 2] }
        : Frame) = false ∧ s.boot.commit = none
        ∧ ((s.chan 15).rx.map fun x => (x.crcDone, x.check.isNone, x.gates.length, x.owned)) = some (true, true, 0, false)
        ∧ isBdp 0x10 ({ fmt := .cc, tfmt := 0, ide := false, ident := 0x123, rtr := false, res := false, brs := false, esi := false, sec := false, sdt := 0, vcid := 0, af := 0, dlc := 2, data := [1, 2] }
        : Frame) = false ∧ ((s.chan 15).rx.map rxWritten) = some false ∧ (s.chan 15).staged.length < 2)
    ∧ (∃ s : State, ((s.chan 15).rx.map fun x => (x.frame.isSome, x.own)) = some (true, false)
        ∧ formatTaken s 15 ({ fmt := .cc, tfmt := 0, ide := false, ident := 0x123, rtr := false, res := false, brs := false, esi := false, sec := false, sdt := 0, vcid := 0, af := 0, dlc := 2, data := [1, 2] }
        : Frame) = true ∧ reduced s 15 = false
        ∧ ccDiscarded s 15 ({ fmt := .cc, tfmt := 0, ide := false, ident := 0x123, rtr := false, res := false, brs := false, esi := false, sec := false, sdt := 0, vcid := 0, af := 0, dlc := 2, data := [1, 2] }
        : Frame) = false ∧ s.boot.commit = none
        ∧ ((s.chan 15).rx.map fun x => (x.crcDone, x.check.isNone, x.gates.length, x.owned)) = some (true, true, 0, false)
        ∧ isBdp 0x10 ({ fmt := .cc, tfmt := 0, ide := false, ident := 0x123, rtr := false, res := false, brs := false, esi := false, sec := false, sdt := 0, vcid := 0, af := 0, dlc := 2, data := [1, 2] }
        : Frame) = false ∧ ((s.chan 15).rx.map rxWritten) = some false ∧ 2 ≤ (s.chan 15).staged.length)
    ∧ (∃ s : State, (s.chan 15).rx ≠ none ∧ countsLive s 15 = true ∧ (s.chan 15).tecCnt ≤ 255 ∧ s.boot.commit = none) :=
  ⟨⟨(sv.modChan 15 fun c => { c with state := .active, trx := 0, trxTgt := 0 }), by decide +kernel⟩,
   ⟨sv, by decide +kernel⟩,
   ⟨((withQ 9 0 sv).modChan 15 fun c =>
       { c with commits := [{ rx0 with chains := [{ dest := .queue 9 2, element := 3, queue := 9, cls := 2, cells := [100], final := true, marked := false }] }] }),
       by decide +kernel⟩,
   ⟨sv, by decide +kernel⟩,
   ⟨(sv.modChan 15 fun c => { c with state := .active, trx := 0, trxTgt := 0, rx := some rx0 }), by decide +kernel⟩,
   ⟨(sv.modChan 15 fun c => { c with state := .active, trx := 0, trxTgt := 0, rx := some rx0 }), by decide +kernel⟩,
   ⟨(withQ 9 0 sv).modChan 15 fun c =>
       { c with state := .active, trx := 0, trxTgt := 0, rx := some { rx0 with frame := some ({ fmt := .cc, tfmt := 0, ide := false, ident := 0x123, rtr := false, res := false, brs := false, esi := false, sec := false, sdt := 0, vcid := 0, af := 0, dlc := 2, data := [1, 2] } : Frame), chains := [{ dest := .queue 9 2, element := 3, queue := 9, cls := 2, cells := [], final := true, marked := false }], valid := true, crcDone := true } },
       by decide +kernel⟩,
   ⟨((withQ 9 0 sv).modQueue 9 fun u => { u with max := 0 }).modChan 15 fun c =>
       { c with state := .active, trx := 0, trxTgt := 0, rx := some { rx0 with frame := some ({ fmt := .cc, tfmt := 0, ide := false, ident := 0x123, rtr := false, res := false, brs := false, esi := false, sec := false, sdt := 0, vcid := 0, af := 0, dlc := 2, data := [1, 2] } : Frame), chains := [{ dest := .queue 9 2, element := 3, queue := 9, cls := 2, cells := [], final := true, marked := false }], crcDone := true } },
       by decide +kernel⟩,
   ⟨(withQ 9 0 sv).modChan 15 fun c => { c with state := .active, trx := 0, trxTgt := 0, rx := some { rx0 with chDef := 0x00020901 } },
       by decide +kernel⟩,
   ⟨(withQ 9 0 sv).modChan 15 fun c =>
       { c with state := .active, trx := 0, trxTgt := 0, rx := some { rx0 with frame := some ({ fmt := .cc, tfmt := 0, ide := false, ident := 0x123, rtr := false, res := false, brs := false, esi := false, sec := false, sdt := 0, vcid := 0, af := 0, dlc := 2, data := [1, 2] } : Frame), verdict := .nomatch, crcDone := true }, recCnt := 5, tecCnt := 9 },
       by decide +kernel⟩,
   ⟨(withQ 9 0 sv).modChan 15 fun c =>
       { c with state := .active, trx := 0, trxTgt := 0, rx := some { rx0 with frame := some ({ fmt := .cc, tfmt := 0, ide := false, ident := 0x123, rtr := false, res := false, brs := false, esi := false, sec := false, sdt := 0, vcid := 0, af := 0, dlc := 2, data := [1, 2] } : Frame), verdict := .dropped, crcDone := true } },
       by decide +kernel⟩,
   ⟨(withQ 9 0 sv).modChan 15 fun c =>
       { c with state := .active, trx := 0, trxTgt := 0, rx := some { rx0 with frame := some ({ fmt := .cc, tfmt := 0, ide := false, ident := 0x123, rtr := false, res := false, brs := false, esi := false, sec := false, sdt := 0, vcid := 0, af := 0, dlc := 2, data := [1, 2] } : Frame), chains := [{ dest := .queue 9 2, element := 3, queue := 9, cls := 2, cells := [100], final := true, marked := false }], crcDone := true } },
       by decide +kernel⟩,
   ⟨(withQ 9 0 sv).modChan 15 fun c =>
       { c with state := .active, trx := 0, trxTgt := 0, rx := some { rx0 with frame := some ({ fmt := .cc, tfmt := 0, ide := false, ident := 0x123, rtr := false, res := false, brs := false, esi := false, sec := false, sdt := 0, vcid := 0, af := 0, dlc := 2, data := [1, 2] } : Frame), chains := [{ dest := .queue 9 2, element := 3, queue := 9, cls := 2, cells := [], final := true, marked := false }], crcDone := true }, staged := [rx0] },
       by decide +kernel⟩,
   ⟨(withQ 9 0 sv).modChan 15 fun c =>
       { c with state := .active, trx := 0, trxTgt := 0, rx := some { rx0 with frame := some ({ fmt := .cc, tfmt := 0, ide := false, ident := 0x123, rtr := false, res := false, brs := false, esi := false, sec := false, sdt := 0, vcid := 0, af := 0, dlc := 2, data := [1, 2] } : Frame), chains := [{ dest := .queue 9 2, element := 3, queue := 9, cls := 2, cells := [], final := true, marked := false }], crcDone := true }, staged := [rx0, rx0] },
       by decide +kernel⟩,
   ⟨(sv.modChan 15 fun c => { c with state := .active, trx := 0, trxTgt := 0, rx := some rx0, recCnt := 250 }), by decide +kernel⟩⟩

/-- States that meet the hypotheses of `LatticeTable`. -/
theorem meets_LatticeTable :
    (∃ s : State, ready s 0 = some (P s 0) ∧ (s.cr 0).cmd.bind (·.comp) = none ∧ sharedCheck s (P s 0) = none ∧ pOpcode (P s 0) = 0x20
        ∧ fld (wd (P s 0) 2) 0 10 = 0)
    ∧ (∃ s : State, ready s 0 = some (P s 0) ∧ (s.cr 0).cmd.bind (·.comp) = none ∧ sharedCheck s (P s 0) = none ∧ pOpcode (P s 0) = 0x20
        ∧ addrOk s 0 (wd (P s 0) 3) (wd (P s 0) 4) 8 = true ∧ draining s 0 = true)
    ∧ (∃ s : State, ready s 0 = some (P s 0) ∧ (s.cr 0).cmd.bind (·.comp) = none ∧ sharedCheck s (P s 0) = none ∧ pOpcode (P s 0) = 0x20
        ∧ addrOk s 0 (wd (P s 0) 3) (wd (P s 0) 4) 8 = true ∧ draining s 0 = false ∧ copying s 0 = false ∧ s.lat.commits = [])
    ∧ (∃ s : State, latticeTurn s = true ∧ backWaits s = false ∧ slotBad s .housekeeping = none
        ∧ writeDue s = some ((({ ring := 0, chan := 0, pos := 510, total := 2, elems := [5#64, 7#64] }) : LtWrite))
        ∧ ((({ ring := 0, chan := 0, pos := 510, total := 2, elems := [5#64, 7#64] }) : LtWrite)).elems.length ≤ 8
        ∧ ((({ ring := 0, chan := 0, pos := 510, total := 2, elems := [5#64, 7#64] }) : LtWrite)).pos +
        ((({ ring := 0, chan := 0, pos := 510, total := 2, elems := [5#64, 7#64] }) : LtWrite)).elems.length ≤ 512)
    ∧ (∃ s : State, regReach .pcie 0x28000 s = true ∧ s.lat.winHalf = true)
    ∧ (∃ s : State, regReach .pcie 0x28000 s = true ∧ s.lat.winHalf = false ∧ regionBusy s 7 = false)
    ∧ (∃ s : State, latticeTurn s = true ∧ backWaits s = false ∧ writeDue s = none ∧ slotBad s .housekeeping = none
        ∧ copyDue s = some (15, 504))
    ∧ (∃ s : State, ready s 0 = some (P s 0) ∧ (s.cr 0).cmd.bind (·.comp) = none ∧ sharedCheck s (P s 0) = none ∧ pOpcode (P s 0) = 0x22
        ∧ fld (wd (P s 0) 2) 0 10 = 0)
    ∧ (∃ s : State, ready s 0 = some (P s 0) ∧ (s.cr 0).cmd.bind (·.comp) = none ∧ sharedCheck s (P s 0) = none ∧ pOpcode (P s 0) = 0x22
        ∧ (s.cr 0).serial = false ∧ mget 0 s.lat.elemErr (elemIdx true 0 511) = 0)
    ∧ (∃ s : State, ready s 0 = some (P s 0) ∧ (s.cr 0).cmd.bind (·.comp) = none ∧ sharedCheck s (P s 0) = none ∧ pOpcode (P s 0) = 0x22
        ∧ (s.cr 0).serial = false ∧ mget 0 s.lat.elemErr (elemIdx true 0 511) = 2)
    ∧ (∃ s : State, ready s 0 = some (P s 0) ∧ (s.cr 0).cmd.bind (·.comp) = none ∧ sharedCheck s (P s 0) = none ∧ pOpcode (P s 0) = 0x22
        ∧ (s.cr 0).serial = false ∧ mget 0 s.lat.elemErr (elemIdx false 0 511) = 0)
    ∧ (∃ s : State, dmaWaits s 0 = true ∧ hostIdle s = true ∧ slotBad s .hostDma = none ∧ fld (pkt s 0 0) 0 8 = 0x20)
    ∧ (∃ s : State, dmaWaits s 0 = true ∧ hostIdle s = true ∧ fld (pkt s 0 0) 0 8 = 0x20 ∧ classMapOf s.vx.classes 37 ≠ 3
        ∧ Nat.min ((bytesOfWords [5]).length / 8) (fld (pkt s 0 2) 0 10) = 0)
    ∧ (∃ s : State, dmaWaits s 0 = true ∧ hostIdle s = true ∧ fld (pkt s 0 0) 0 8 = 0x20 ∧ classMapOf s.vx.classes 37 ≠ 3
        ∧ Nat.min ((bytesOfWords [5, 6, 7]).length / 8) (fld (pkt s 0 2) 0 10) = 1) :=
  ⟨⟨cmd 0 [0x20] sv, by decide +kernel⟩,
   ⟨cmd 0 [0x20, 511, 1] (sv.modLat fun l => { l with drain := [(0, true)] }), by decide +kernel⟩,
   ⟨cmdS 0 [0x20, 511, 1, 0, 0] sv, by decide +kernel⟩,
   ⟨(startedCmd 0 [0x20, 510, 2] sv).modLat fun l =>
       { l with writes := [{ ring := 0, chan := 0, pos := 510, total := 2, elems := [5#64, 7#64] }] }, by decide +kernel⟩,
   ⟨sv.modLat fun l => { l with winHalf := true }, by decide +kernel⟩,
   ⟨sv.modLat fun l => { l with held := some (512 * 7 + 511, 9) }, by decide +kernel⟩,
   ⟨sv.modLat fun l => { l with copying := [(15, some 504)], elems := [(elemIdx false 15 511, 3#64)] }, by decide +kernel⟩,
   ⟨cmd 0 [0x22] sv, by decide +kernel⟩,
   ⟨cmd 0 [0x22, 511, 1, 0x100] (sv.modLat fun l => { l with elems := [(elemIdx true 0 511, 3#64)] }), by decide +kernel⟩,
   ⟨cmd 0 [0x22, 511, 1, 0x100] (sv.modLat fun l => { l with elemErr := [(elemIdx true 0 511, 2)] }), by decide +kernel⟩,
   ⟨cmd 0 [0x22, 511, 0x10001, 0x100] (sv.modLat fun l => { l with elems := [(elemIdx false 0 511, 4#64)] }), by decide +kernel⟩,
   ⟨((startedCmd 0 [0x20, 510, 2] sv).modCmd 0 (fun d => { d with dma := true })).modLat fun l =>
       { l with writes := [{ ring := 0, chan := 0, pos := 510, total := 2, elems := [] }] }, by decide +kernel⟩,
   ⟨((startedCmd 0 [0x20, 510, 2] sv).modCmd 0 (fun d => { d with dma := true })).modLat fun l =>
       { l with writes := [{ ring := 0, chan := 0, pos := 510, total := 2, elems := [] }] }, by decide +kernel⟩,
   ⟨((startedCmd 0 [0x20, 510, 2] sv).modCmd 0 (fun d => { d with dma := true })).modLat fun l =>
       { l with writes := [{ ring := 0, chan := 0, pos := 510, total := 2, elems := [] }] }, by decide +kernel⟩⟩

/-- States that meet the hypotheses of `LatticeCommit`. -/
theorem meets_LatticeCommit :
    (∃ s : State, ready s 0 = some (P s 0) ∧ (s.cr 0).cmd.bind (·.comp) = none ∧ s.vx.safe = false ∧ pOpcode (P s 0) = 0x21
        ∧ s.boot.profile = true ∧ fld (wd (P s 0) 1) 8 8 ≠ 0)
    ∧ (∃ s : State, ready s 0 = some (P s 0) ∧ (s.cr 0).cmd.bind (·.comp) = none ∧ sharedCheck s (P s 0) = none ∧ pOpcode (P s 0) = 0x21
        ∧ fld (wd (P s 0) 1) 0 16 = 0)
    ∧ (∃ s : State, ready s 0 = some (P s 0) ∧ (s.cr 0).cmd.bind (·.comp) = none ∧ sharedCheck s (P s 0) = none ∧ pOpcode (P s 0) = 0x21
        ∧ 0 ∈ maskList 1 ∧ regionBusy s 0 = true)
    ∧ (∃ s : State, ready s 0 = some (P s 0) ∧ (s.cr 0).cmd.bind (·.comp) = none ∧ sharedCheck s (P s 0) = none ∧ pOpcode (P s 0) = 0x21
        ∧ regionBusy s 0 = false
        ∧ checkRegions s (fun m => !activeHalf s m) (maskList 1) = some (0, { pos := 0, status := eParam, reason := 1 }))
    ∧ (∃ s : State, ready s 0 = some (P s 0) ∧ (s.cr 0).cmd.bind (·.comp) = none ∧ sharedCheck s (P s 0) = none ∧ pOpcode (P s 0) = 0x21
        ∧ maskList 0x8001 = [0, 15] ∧ regionBusy s 0 = false ∧ regionBusy s 15 = false
        ∧ checkRegions s (fun m => !activeHalf s m) (maskList 0x8001) = none ∧ s.boot.profile = false ∧ s.lat.elemErr = [])
    ∧ (∃ s : State, ready s 0 = some (P s 0) ∧ (s.cr 0).cmd.bind (·.comp) = none ∧ sharedCheck s (P s 0) = none ∧ pOpcode (P s 0) = 0x21
        ∧ regionBusy s 0 = false ∧ awaitsWalk s 0 false = true ∧ checkRegions s (fun m => !activeHalf s m) (maskList 1) = none)
    ∧ (∃ s : State, (maskList 1).any (draining s) = false)
    ∧ (∃ s : State, ready s 0 = some (P s 0) ∧ (s.cr 0).cmd.bind (·.comp) = none ∧ sharedCheck s (P s 0) = none ∧ pOpcode (P s 0) = 0x23
        ∧ s.lat.ownCount = 0)
    ∧ (∃ s : State, ready s 0 = some (P s 0) ∧ (s.cr 0).cmd.bind (·.comp) = none ∧ sharedCheck s (P s 0) = none ∧ pOpcode (P s 0) = 0x23
        ∧ s.lat.ownCount ≠ 0 ∧ bitOf (wd (P s 0) 2) 0 = false)
    ∧ (∃ s : State, ready s 0 = some (P s 0) ∧ (s.cr 0).cmd.bind (·.comp) = none ∧ sharedCheck s (P s 0) = none ∧ pOpcode (P s 0) = 0x23
        ∧ s.lat.ownCount ≠ 0 ∧ bitOf (wd (P s 0) 2) 0 = true)
    ∧ (∃ s : State, ready s 0 = some (P s 0) ∧ (s.cr 0).cmd.bind (·.comp) = none ∧ sharedCheck s (P s 0) = none ∧ pOpcode (P s 0) = 0x21
        ∧ regionBusy s 0 = false ∧ (∀ e ∈ s.lat.elemErr, e.2 ≠ 1)
        ∧ (checkRegions s (fun m => !activeHalf s m) (maskList 1)).map (fun f => f.2.status) = some eCheck)
    ∧ (∃ s : State, ((s.chan 15).rx.map fun x => (x.frame.isSome, x.own, x.crcDone, x.check.isNone)) = some (true, false, true, true)
        ∧ formatTaken s 15 ({ fmt := .cc, tfmt := 0, ide := false, ident := 0x123, rtr := false, res := false, brs := false, esi := false, sec := false, sdt := 0, vcid := 0, af := 0, dlc := 2, data := [1, 2] }
        : Frame) = true ∧ s.boot.commit = none ∧ (s.chan 15).tecCnt ≤ 255
        ∧ ((s.chan 15).rx.map fun x => (x.owned, x.gates.length)) = some (true, 0) ∧ isStandby s = false ∧ s.lat.ownSeen = false)
    ∧ (∃ s : State, ((s.chan 15).rx.map fun x => (x.frame.isSome, x.own, x.crcDone, x.check.isNone)) = some (true, false, true, true)
        ∧ formatTaken s 15 ({ fmt := .cc, tfmt := 0, ide := false, ident := 0x123, rtr := false, res := false, brs := false, esi := false, sec := false, sdt := 0, vcid := 0, af := 0, dlc := 2, data := [1, 2] }
        : Frame) = true ∧ s.boot.commit = none ∧ (s.chan 15).tecCnt ≤ 255
        ∧ ((s.chan 15).rx.map fun x => (x.owned, x.gates.length)) = some (true, 0) ∧ isStandby s = false ∧ s.lat.ownSeen = true)
    ∧ (∃ s : State, ((s.chan 15).rx.map fun x => (x.frame.isSome, x.own, x.crcDone, x.check.isNone)) = some (true, false, true, true)
        ∧ formatTaken s 15 ({ fmt := .cc, tfmt := 0, ide := false, ident := 0x123, rtr := false, res := false, brs := false, esi := false, sec := false, sdt := 0, vcid := 0, af := 0, dlc := 2, data := [1, 2] }
        : Frame) = true ∧ s.boot.commit = none ∧ (s.chan 15).tecCnt ≤ 255 ∧ isStandby s = true) :=
  ⟨⟨cmd 0 [0x21, 0x100] { sv with boot := { sv.boot with profile := true } }, by decide +kernel⟩,
   ⟨cmd 0 [0x21] sv, by decide +kernel⟩,
   ⟨cmd 0 [0x21, 1] (sv.modLat fun l => { l with drain := [(0, true)] }), by decide +kernel⟩,
   ⟨cmd 0 [0x21, 1] (sv.modLat fun l => { l with elems := [(elemIdx true 0 0, 0xE000000000000000#64)] }), by decide +kernel⟩,
   ⟨cmd 0 [0x21, 0x8001, 1] sv, by decide +kernel⟩,
   ⟨cmd 0 [0x21, 1, 1] (sv.modChan 0 fun c => { c with rx := some rx0 }), by decide +kernel⟩,
   ⟨(startedCmd 1 [0x21, 1] sv).modLat fun l =>
       { l with commits := [{ ring := 1, mask := 1, copy := false }, { ring := 2, mask := 2, copy := false }], drain := [(1, true)] },
       by decide +kernel⟩,
   ⟨cmd 0 [0x23] sv, by decide +kernel⟩,
   ⟨cmd 0 [0x23] (sv.modLat fun l => { l with ownCount := 1, ownId := 77 }), by decide +kernel⟩,
   ⟨cmd 0 [0x23, 0, 1] (sv.modLat fun l => { l with ownCount := 1, ownId := 77 }), by decide +kernel⟩,
   ⟨cmd 0 [0x21, 1] (sv.modLat fun l => { l with elemErr := [(elemIdx true 0 0, 2)] }), by decide +kernel⟩,
   ⟨sv.modChan 15 fun c =>
       { c with state := .active, trx := 0, trxTgt := 0, rx := some { rx0 with crcDone := true, frame := some ({ fmt := .cc, tfmt := 0, ide := false, ident := 0x123, rtr := false, res := false, brs := false, esi := false, sec := false, sdt := 0, vcid := 0, af := 0, dlc := 2, data := [1, 2] } : Frame), owned := true } },
       by decide +kernel⟩,
   ⟨(sv.modLat fun l => { l with ownSeen := true, ownCount := 0xFFFF, ownCh := 3, ownId := 7 }).modChan 15 fun c =>
       { c with state := .active, trx := 0, trxTgt := 0, rx := some { rx0 with crcDone := true, frame := some ({ fmt := .cc, tfmt := 0, ide := false, ident := 0x123, rtr := false, res := false, brs := false, esi := false, sec := false, sdt := 0, vcid := 0, af := 0, dlc := 2, data := [1, 2] } : Frame), owned := true } },
       by decide +kernel⟩,
   ⟨{ sv with dx := { sv.dx with state := 3 } }.modChan 15 fun c =>
       { c with state := .active, trx := 0, trxTgt := 0, rx := some { rx0 with crcDone := true, frame := some ({ fmt := .cc, tfmt := 0, ide := false, ident := 0x123, rtr := false, res := false, brs := false, esi := false, sec := false, sdt := 0, vcid := 0, af := 0, dlc := 2, data := [1, 2] } : Frame), owned := true } },
       by decide +kernel⟩⟩

/-- States that meet the hypotheses of `HousekeepingAndGates`. -/
theorem meets_HousekeepingAndGates :
    (∃ s : State, ringsUsable s = false)
    ∧ (∃ s : State, ringsUsable s = true ∧ s.round % 4 = 3 ∧ s.mp.toStore = false)
    ∧ (∃ s : State, ringsUsable s = true ∧ auditRuns s = false ∧ s.round % 4 = 1)
    ∧ (∃ s : State, ringsUsable s = true ∧ auditRuns s = true ∧ s.pool.linkBad = [] ∧ s.pool.auditPos < 2047
        ∧ slotBad s .housekeeping = none ∧ s.round % 4 = 1)
    ∧ (∃ s : State, s.round % 2 = 0 ∧ slotBad s .housekeeping = none ∧ s.lat.backs = 5 :: [7]
        ∧ (16384 ≤ 5 ↔ activeHalf s (5 % 16384 / 512 % 16) = true) ∧ mget 0 s.lat.elemErr (5 % 16384) = 1 ∧ ringsUsable s = true)
    ∧ (∃ s : State, slotBad s .housekeeping = none ∧ s.lat.backs = [] ∧ s.lat.gateBacks = [] ∧ writeDue s = some wr9 ∧ 8 < wr9.elems.length
        ∧ wr9.pos + 8 ≤ 512 ∧ ringsUsable s = true ∧ s.round % 2 = 0)
    ∧ (∃ s : State, slotBad s .housekeeping = none ∧ ringsUsable s = true ∧ s.round % 2 = 0 ∧ s.lat.backs = [] ∧ s.lat.gateBacks = []
        ∧ writeDue s = none ∧ copyDue s = none ∧ s.lat.elemErr = [] ∧ s.lat.gateErr = [])
    ∧ (∃ s : State, s.gl.unlocked = false)
    ∧ (∃ s : State, s.gl.unlocked = true ∧ regReach .serial 0x20200 s = true)
    ∧ (∃ s : State, ringsUsable s = true ∧ turnPending s = true ∧ slotBad s .housekeeping = some (47, true))
    ∧ (∃ s : State, ((s.chan 15).rx.map fun x => (x.frame.isSome, x.own, x.crcDone, x.check.isNone)) = some (true, false, true, true)
        ∧ formatTaken s 15 ({ fmt := .cc, tfmt := 0, ide := false, ident := 0x123, rtr := false, res := false, brs := false, esi := false, sec := false, sdt := 0, vcid := 0, af := 0, dlc := 2, data := [1, 2] }
        : Frame) = true ∧ reduced s 15 = false
        ∧ ccDiscarded s 15 ({ fmt := .cc, tfmt := 0, ide := false, ident := 0x123, rtr := false, res := false, brs := false, esi := false, sec := false, sdt := 0, vcid := 0, af := 0, dlc := 2, data := [1, 2] }
        : Frame) = false ∧ s.lat.gateErr = []
        ∧ isBdp 0x10 ({ fmt := .cc, tfmt := 0, ide := false, ident := 0x123, rtr := false, res := false, brs := false, esi := false, sec := false, sdt := 0, vcid := 0, af := 0, dlc := 2, data := [1, 2] }
        : Frame) = false ∧ s.boot.commit = none ∧ ((s.chan 15).rx.map fun x => x.gates.map (·.reason)) = some [none]
        ∧ (s.gate 255).armed = true ∧ (s.gate 255).hostTime = none)
    ∧ (∃ s : State, ((s.chan 15).rx.map fun x => (x.frame.isSome, x.own, x.crcDone, x.check.isNone)) = some (true, false, true, true)
        ∧ formatTaken s 15 ({ fmt := .cc, tfmt := 0, ide := false, ident := 0x123, rtr := false, res := false, brs := false, esi := false, sec := false, sdt := 0, vcid := 0, af := 0, dlc := 2, data := [1, 2] }
        : Frame) = true ∧ reduced s 15 = false
        ∧ ccDiscarded s 15 ({ fmt := .cc, tfmt := 0, ide := false, ident := 0x123, rtr := false, res := false, brs := false, esi := false, sec := false, sdt := 0, vcid := 0, af := 0, dlc := 2, data := [1, 2] }
        : Frame) = false ∧ s.lat.gateErr = []
        ∧ isBdp 0x10 ({ fmt := .cc, tfmt := 0, ide := false, ident := 0x123, rtr := false, res := false, brs := false, esi := false, sec := false, sdt := 0, vcid := 0, af := 0, dlc := 2, data := [1, 2] }
        : Frame) = false ∧ s.boot.commit = none ∧ ((s.chan 15).rx.map fun x => x.gates.map (·.reason)) = some [some 2])
    ∧ (∃ s : State, ((s.chan 15).rx.map fun x => (x.frame.isSome, x.own, x.crcDone, x.check.isNone)) = some (true, false, true, true)
        ∧ formatTaken s 15 ({ fmt := .cc, tfmt := 0, ide := false, ident := 0x123, rtr := false, res := false, brs := false, esi := false, sec := false, sdt := 0, vcid := 0, af := 0, dlc := 2, data := [1, 2] }
        : Frame) = true ∧ reduced s 15 = false
        ∧ ccDiscarded s 15 ({ fmt := .cc, tfmt := 0, ide := false, ident := 0x123, rtr := false, res := false, brs := false, esi := false, sec := false, sdt := 0, vcid := 0, af := 0, dlc := 2, data := [1, 2] }
        : Frame) = false ∧ s.lat.gateErr = []
        ∧ isBdp 0x10 ({ fmt := .cc, tfmt := 0, ide := false, ident := 0x123, rtr := false, res := false, brs := false, esi := false, sec := false, sdt := 0, vcid := 0, af := 0, dlc := 2, data := [1, 2] }
        : Frame) = false ∧ s.boot.commit = none
        ∧ ((s.chan 15).rx.map fun x => x.gates.map fun u => (u.reason, u.sole)) = some [(some 1, true)] ∧ (s.gate 255).en = true
        ∧ (s.gate 255).armMode = true ∧ (s.gate 255).armed = false)
    ∧ (∃ s : State, ringsUsable s = true ∧ s.round % 4 = 3 ∧ s.mp.toStore = true ∧ slotBad s .housekeeping = none) :=
  ⟨⟨State.reset, by decide +kernel⟩,
   ⟨{ sv with round := 3 }, by decide +kernel⟩,
   ⟨{ sv with round := 1 }.modPool fun p => { p with auditEn := false }, by decide +kernel⟩,
   ⟨{ sv with round := 1 }.modPool fun p => { p with auditEn := true, auditPos := 2046 }, by decide +kernel⟩,
   ⟨sv.modLat fun l => { l with backs := [5, 7], elemErr := [(5, 1)] }, by decide +kernel⟩,
   ⟨(startedCmd 0 [0x20, 500, 9] sv).modLat fun l => { l with writes := [wr9] }, by decide +kernel⟩,
   ⟨sv.modLat fun l => { l with scrubEn := true, scrubPos := 1055, passes := 65535 }, by decide +kernel⟩,
   ⟨sv, by decide +kernel⟩,
   ⟨unl sv, by decide +kernel⟩,
   ⟨{ (sv.modLat fun l => { l with backs := [5, 7], elemErr := [(5, 1)] }) with gl := { sv.gl with slotBad := [(47, true)] } },
       by decide +kernel⟩,
   ⟨(sv.modGate 255 fun g => { g with en := true, armed := true, highest := 8 }).modChan 15 fun c =>
       { c with state := .active, trx := 0, trxTgt := 0, rx := some { rx0 with crcDone := true, frame := some ({ fmt := .cc, tfmt := 0, ide := false, ident := 0x123, rtr := false, res := false, brs := false, esi := false, sec := false, sdt := 0, vcid := 0, af := 0, dlc := 2, data := [1, 2] } : Frame), gates := [{ gate := 255, reason := none, claim := 9, sole := false }] } },
       by decide +kernel⟩,
   ⟨(sv.modGate 255 fun g => { g with en := true, armed := true, highest := 8, rejects := 4095 }).modChan 15 fun c =>
       { c with state := .active, trx := 0, trxTgt := 0, rx := some { rx0 with crcDone := true, frame := some ({ fmt := .cc, tfmt := 0, ide := false, ident := 0x123, rtr := false, res := false, brs := false, esi := false, sec := false, sdt := 0, vcid := 0, af := 0, dlc := 2, data := [1, 2] } : Frame), gates := [{ gate := 255, reason := some 2, claim := 9, sole := false }] } },
       by decide +kernel⟩,
   ⟨(sv.modGate 255 fun g => { g with en := true, armMode := true }).modChan 15 fun c =>
       { c with state := .active, trx := 0, trxTgt := 0, rx := some { rx0 with crcDone := true, frame := some ({ fmt := .cc, tfmt := 0, ide := false, ident := 0x123, rtr := false, res := false, brs := false, esi := false, sec := false, sdt := 0, vcid := 0, af := 0, dlc := 2, data := [1, 2] } : Frame), gates := [{ gate := 255, reason := some 1, claim := 9, sole := true }] } },
       by decide +kernel⟩,
   ⟨{ { sv with round := 3 } with mp := { sv.mp with toStore := true } }, by decide +kernel⟩⟩

/-- States that meet the hypotheses of `QueueLifecycle`. -/
theorem meets_QueueLifecycle :
    (∃ s : State, ready s 0 = some (P s 0) ∧ (s.cr 0).cmd.bind (·.comp) = none ∧ sharedCheck s (P s 0) = none
        ∧ isQCreate false (P s 0) = true ∧ queueExists s 9 = true)
    ∧ (∃ s : State, ready s 0 = some (P s 0) ∧ (s.cr 0).cmd.bind (·.comp) = none ∧ sharedCheck s (P s 0) = none
        ∧ isQCreate false (P s 0) = true ∧ queueExists s 9 = false ∧ fld (wd (P s 0) 2) 16 16 < fld (wd (P s 0) 2) 0 16)
    ∧ (∃ s : State, ready s 0 = some (P s 0) ∧ (s.cr 0).cmd.bind (·.comp) = none ∧ sharedCheck s (P s 0) = none
        ∧ isQCreate false (P s 0) = true ∧ queueExists s 9 = false ∧ fld (wd (P s 0) 3) 0 3 = 5 ∧ attached s 3 2 ≠ none)
    ∧ (∃ s : State, ready s 0 = some (P s 0) ∧ (s.cr 0).cmd.bind (·.comp) = none ∧ sharedCheck s (P s 0) = none
        ∧ isQCreate false (P s 0) = true ∧ xlChannel s 3 = true ∧ attached s 3 2 = none ∧ queueExists s 9 = false)
    ∧ (∃ s : State, ready s 0 = some (P s 0) ∧ (s.cr 0).cmd.bind (·.comp) = none ∧ sharedCheck s (P s 0) = none
        ∧ isQCreate false (P s 0) = true ∧ minSum s + 4 ≤ minLimit s ∧ freeCount s - reserve s < 4 ∧ queueExists s 9 = false)
    ∧ (∃ s : State, ready s 0 = some (P s 0) ∧ (s.cr 0).cmd.bind (·.comp) = none ∧ sharedCheck s (P s 0) = none
        ∧ isQCreate false (P s 0) = true ∧ queueExists s 255 = false ∧ attached s 3 2 = none ∧ minSum s + 35 ≤ minLimit s
        ∧ 35 ≤ freeCount s - reserve s)
    ∧ (∃ s : State, ready s 0 = some (P s 0) ∧ (s.cr 0).cmd.bind (·.comp) = none ∧ sharedCheck s (P s 0) = none
        ∧ isQCreate true (P s 0) = true ∧ (s.queue 9).state = .none)
    ∧ (∃ s : State, ready s 0 = some (P s 0) ∧ (s.cr 0).cmd.bind (·.comp) = none ∧ sharedCheck s (P s 0) = none
        ∧ isQCreate true (P s 0) = true ∧ (s.queue 9).state ≠ .none ∧ queueNamed s 9 = true)
    ∧ (∃ s : State, ready s 0 = some (P s 0) ∧ (s.cr 0).cmd.bind (·.comp) = none ∧ sharedCheck s (P s 0) = none
        ∧ isQCreate true (P s 0) = true ∧ queueNamed s 9 = false ∧ (s.queue 9).items ≠ [])
    ∧ (∃ s : State, ready s 0 = some (P s 0) ∧ (s.cr 0).cmd.bind (·.comp) = none ∧ sharedCheck s (P s 0) = none
        ∧ isQCreate true (P s 0) = true ∧ queueNamed s 9 = false ∧ (s.queue 9).state = .opened ∧ (s.queue 9).items = [] ∧ occupancy s 9 = 0
        ∧ (s.queue 9).lock = none)
    ∧ (∃ s : State, ready s 0 = some (P s 0) ∧ (s.cr 0).cmd.bind (·.comp) = none ∧ sharedCheck s (P s 0) = none ∧ pOpcode (P s 0) = 0x32
        ∧ (s.queue 9).state = .none)
    ∧ (∃ s : State, ready s 0 = some (P s 0) ∧ (s.cr 0).cmd.bind (·.comp) = none ∧ sharedCheck s (P s 0) = none ∧ pOpcode (P s 0) = 0x32
        ∧ (s.queue 9).state ≠ .none ∧ fld (wd (P s 0) 2) 16 16 = 0)
    ∧ (∃ s : State, ready s 0 = some (P s 0) ∧ (s.cr 0).cmd.bind (·.comp) = none ∧ sharedCheck s (P s 0) = none ∧ pOpcode (P s 0) = 0x32
        ∧ xlFedNow s 9 = true)
    ∧ (∃ s : State, ready s 0 = some (P s 0) ∧ (s.cr 0).cmd.bind (·.comp) = none ∧ sharedCheck s (P s 0) = none ∧ pOpcode (P s 0) = 0x32
        ∧ (s.queue 9).min < 4 ∧ freeCount s - reserve s < 4 - (s.queue 9).min ∧ (s.queue 9).state ≠ .none ∧ xlFedNow s 9 = false
        ∧ minSum s - (s.queue 9).min + 4 ≤ minLimit s)
    ∧ (∃ s : State, ready s 0 = some (P s 0) ∧ (s.cr 0).cmd.bind (·.comp) = none ∧ sharedCheck s (P s 0) = none ∧ pOpcode (P s 0) = 0x32
        ∧ (s.queue 9).state ≠ .none ∧ minSum s - (s.queue 9).min + 4 ≤ minLimit s ∧ xlFedNow s 9 = false
        ∧ 4 - (s.queue 9).min ≤ freeCount s - reserve s)
    ∧ (∃ s : State, ready s 0 = some (P s 0) ∧ (s.cr 0).cmd.bind (·.comp) = none ∧ sharedCheck s (P s 0) = none ∧ pOpcode (P s 0) = 0x33
        ∧ (s.queue 9).state = .none)
    ∧ (∃ s : State, ready s 0 = some (P s 0) ∧ (s.cr 0).cmd.bind (·.comp) = none ∧ sharedCheck s (P s 0) = none ∧ pOpcode (P s 0) = 0x33
        ∧ (s.queue 9).state ≠ .none) :=
  ⟨⟨cmd 0 [0x30, 9, 0x00080004, 0] (withQ 9 0 sv), by decide +kernel⟩,
   ⟨cmd 0 [0x30, 9, 0x00030004, 0] sv, by decide +kernel⟩,
   ⟨cmd 0 [0x30, 9, 0x00080004, 0x235] (sv.modPool fun p =>
       { p with queues := [(3, { Queue.reset with state := .opened, consumer := 5, txCh := 3, txPos := 2, min := 4, max := 8 })] }),
       by decide +kernel⟩,
   ⟨cmd 0 [0x30, 9, 0x00080004, 0x235] (sv.modChan 3 fun c => { c with mode := 0x1F0 ||| 0x40 }), by decide +kernel⟩,
   ⟨cmd 0 [0x30, 9, 0x00080004, 0] (hog sv), by decide +kernel⟩,
   ⟨cmd 0 [0x30, 255, 0x00400023, 0x1235] sv, by decide +kernel⟩,
   ⟨cmd 0 [0x130, 9] sv, by decide +kernel⟩,
   ⟨cmd 0 [0x130, 9] ((withQ 9 0 sv).modLat fun l => { l with chDef := [(2, 0x00000901)] }), by decide +kernel⟩,
   ⟨cmd 0 [0x130, 9] (withItem 9 0 [100] (withQ 9 0 sv)), by decide +kernel⟩,
   ⟨cmd 0 [0x130, 9] (withQ 9 0 sv), by decide +kernel⟩,
   ⟨cmd 0 [0x32, 9] sv, by decide +kernel⟩,
   ⟨cmd 0 [0x32, 9, 0x00000004] (withQ 9 0 sv), by decide +kernel⟩,
   ⟨cmd 0 [0x32, 9, 0x00080004] ((withQ 9 5 sv).modChan 0 fun c => { c with mode := 0x40 }), by decide +kernel⟩,
   ⟨cmd 0 [0x32, 9, 0x00080004] (withQ 9 0 (hog sv)), by decide +kernel⟩,
   ⟨cmd 0 [0x32, 9, 0x00080004] (withQ 9 0 sv), by decide +kernel⟩,
   ⟨cmd 0 [0x33, 9] sv, by decide +kernel⟩,
   ⟨cmd 0 [0x33, 9] (withItem 9 0 [100] (withQ 9 0 sv)), by decide +kernel⟩⟩

/-- States that meet the hypotheses of `QueueFlush`. -/
theorem meets_QueueFlush :
    (∃ s : State, ready s 0 = some (P s 0) ∧ (s.cr 0).cmd.bind (·.comp) = none ∧ sharedCheck s (P s 0) = none
        ∧ isQFlush false (P s 0) = true ∧ (s.queue 9).state = .none)
    ∧ (∃ s : State, ready s 0 = some (P s 0) ∧ (s.cr 0).cmd.bind (·.comp) = none ∧ sharedCheck s (P s 0) = none
        ∧ isQFlush true (P s 0) = true ∧ (s.queue 9).state ≠ .none ∧ fld (wd (P s 0) 2) 0 16 = 0)
    ∧ (∃ s : State, ready s 0 = some (P s 0) ∧ (s.cr 0).cmd.bind (·.comp) = none ∧ sharedCheck s (P s 0) = none
        ∧ isQFlush false (P s 0) = true ∧ (s.queue 9).state = .flushing)
    ∧ (∃ s : State, ready s 0 = some (P s 0) ∧ (s.cr 0).cmd.bind (·.comp) = none ∧ sharedCheck s (P s 0) = none
        ∧ isQFlush false (P s 0) = true ∧ (s.queue 9).state = .broken)
    ∧ (∃ s : State, ready s 0 = some (P s 0) ∧ (s.cr 0).cmd.bind (·.comp) = none ∧ sharedCheck s (P s 0) = none
        ∧ isQFlush false (P s 0) = true ∧ (s.queue 9).state = .opened ∧ (s.queue 9).consumer ≠ 5 ∧ s.chans = []
        ∧ (∀ e ∈ s.sq.crs, e.2.cmd.bind (·.sub) = none))
    ∧ (∃ s : State, ready s 0 = some (P s 0) ∧ (s.cr 0).cmd.bind (·.comp) = none ∧ sharedCheck s (P s 0) = none
        ∧ isQFlush true (P s 0) = true ∧ (s.queue 9).state = .opened)
    ∧ (∃ s : State, ready s 0 = some (P s 0) ∧ (s.cr 0).cmd.bind (·.comp) = none ∧ sharedCheck s (P s 0) = none
        ∧ isQFlush true (P s 0) = true ∧ (s.queue 9).state = .broken ∧ heldBy s (.queue 9) = false)
    ∧ (∃ s : State, auditRuns s = false)
    ∧ (∃ s : State, auditRuns s = true ∧ ringsUsable s = true ∧ s.round % 4 = 1 ∧ 2047 ≤ s.pool.auditPos ∧ slotBad s .housekeeping = none
        ∧ s.pool.linkBad = [] ∧ s.pool.queues = [] ∧ s.pool.owner = [])
    ∧ (∃ s : State, auditRuns s = true ∧ ringsUsable s = true ∧ s.round % 4 = 1 ∧ 2047 ≤ s.pool.auditPos ∧ slotBad s .housekeeping = none
        ∧ s.pool.owner = [] ∧ s.pool.linkBad = [] ∧ ((s.queue 9).flush.map (·.repair)) = some true)
    ∧ (∃ s : State, auditRuns s = true ∧ ringsUsable s = true ∧ s.round % 4 = 1 ∧ 2047 ≤ s.pool.auditPos ∧ slotBad s .housekeeping = none
        ∧ s.pool.linkBad = [] ∧ (∀ e ∈ s.pool.owner, e.1 < 65536 ∧ queueExists s e.2 = true)
        ∧ (∀ e ∈ s.pool.queues, (s.queue e.1).flush = none))
    ∧ (∃ s : State, auditRuns s = true ∧ ringsUsable s = true ∧ s.round % 4 = 1 ∧ 2047 ≤ s.pool.auditPos ∧ slotBad s .housekeeping = none
        ∧ s.pool.linkBad = [] ∧ (∃ e ∈ s.pool.owner, 65536 ≤ e.1 ∨ queueExists s e.2 = false)) :=
  ⟨⟨cmd 0 [0x31, 9, 1] sv, by decide +kernel⟩,
   ⟨cmd 0 [0x131, 9, 0] (withQ 9 0 sv), by decide +kernel⟩,
   ⟨cmd 0 [0x31, 9, 1] ((withItem 9 0 [100, 101] (withItem 9 1 [200] (withQ 9 0 sv))).modQueue 9 fun u => { u with state := .flushing }),
       by decide +kernel⟩,
   ⟨cmd 0 [0x31, 9, 1] ((withItem 9 0 [100, 101] (withItem 9 1 [200] (withQ 9 0 sv))).modQueue 9 fun u => { u with state := .broken }),
       by decide +kernel⟩,
   ⟨cmd 0 [0x31, 9, 1] ((withItem 9 0 [100, 101] (withItem 9 1 [200] (withQ 9 0 sv))).modQueue 9 fun u => { u with state := .opened }),
       by decide +kernel⟩,
   ⟨cmd 0 [0x131, 9, 1] ((withItem 9 0 [100, 101] (withItem 9 1 [200] (withQ 9 0 sv))).modQueue 9 fun u => { u with state := .opened }),
       by decide +kernel⟩,
   ⟨cmd 0 [0x131, 9, 1] ((withItem 9 0 [100, 101] (withItem 9 1 [200] (withQ 9 0 sv))).modQueue 9 fun u => { u with state := .broken }),
       by decide +kernel⟩,
   ⟨sv.modPool fun p => { p with auditEn := false }, by decide +kernel⟩,
   ⟨{ sv with round := 1 }.modPool fun p => { p with auditEn := true, passes := 4095, auditPos := 2047 }, by decide +kernel⟩,
   ⟨{ { (startedCmd 0 [0x131, 9, 1] (withQ 9 0 sv)) with round := 1 }.modPool (fun p => { p with auditPos := 2047 }) with chans := [] }.modQueue
       9 fun u => { u with state := .flushing, flush := some { mask := 1, items := 0, cells := 0, repair := true, ring := 0 } },
       by decide +kernel⟩,
   ⟨{ withItem 9 0 [100, 101] (withQ 9 0 sv) with round := 5 }.modPool fun p => { p with auditPos := 2047 }, by decide +kernel⟩,
   ⟨{ withItem 9 0 [100, 101] sv with round := 1 }.modPool fun p => { p with auditPos := 2047, queues := [] }, by decide +kernel⟩⟩

/-- States that meet the hypotheses of `HostWindow`. -/
theorem meets_HostWindow :
    (∃ s : State, regReach .serial (0x38000 + 9 * 0x80 + 0x40) s = true ∧ hasWindow s 9 = false ∧ (s.queue 9).state ≠ .none)
    ∧ (∃ s : State, regReach .serial (0x38000 + 9 * 0x80 + 0x40) s = true ∧ (s.queue 9).state = .none)
    ∧ (∃ s : State, regReach .serial (0x38000 + 9 * 0x80 + 0x40) s = true ∧ hasWindow s 9 = true ∧ (s.queue 9).lock ≠ none)
    ∧ (∃ s : State, regReach .serial (0x38000 + 9 * 0x80 + 0x40) s = true ∧ hasWindow s 9 = true ∧ (s.queue 9).lock = none
        ∧ headOf (s.queue 9).items = none)
    ∧ (∃ s : State, regReach .serial (0x38000 + 9 * 0x80 + 0x40) s = true ∧ hasWindow s 9 = true ∧ (s.queue 9).lock = none
        ∧ (headOf (s.queue 9).items).map itemId = some 100)
    ∧ (∃ s : State, regReach .serial (0x38000 + 9 * 0x80 + 0x40) s = true ∧ hasWindow s 9 = true ∧ (s.queue 9).lock ≠ none
        ∧ (headItem s 9).map (·.cells) = some [100, 101] ∧ (s.queue 9).wCell < 2 ∧ s.pool.linkBad = [] ∧ slotBad s .hostDma = none)
    ∧ (∃ s : State, (headItem s 9).map (·.cells) = some [100, 101] ∧ 2 ≤ (s.queue 9).wCell ∧ regReach .serial (0x38000 + 9 * 0x80) s = true
        ∧ hasWindow s 9 = true ∧ (s.queue 9).lock ≠ none)
    ∧ (∃ s : State, hasWindow s 9 = true ∧ (s.queue 9).lock = none ∧ regReach .serial (0x38000 + 9 * 0x80) s = true)
    ∧ (∃ s : State, regReach .serial (0x38000 + 9 * 0x80 + 0x48) s = true ∧ hasWindow s 9 = true ∧ (s.queue 9).lock = none)
    ∧ (∃ s : State, regReach .serial (0x38000 + 9 * 0x80 + 0x48) s = true ∧ slotBad s .hostDma = none ∧ hasWindow s 9 = true
        ∧ (s.queue 9).lock ≠ none ∧ (headItem s 9).map itemId = some 100 ∧ bitOf 0#32 0 = false)
    ∧ (∃ s : State, s.pool.lockTmo = 0)
    ∧ (∃ s : State, s.pool.lockTmo ≠ 0 ∧ (s.queue 9).lock ≠ none)
    ∧ (∃ s : State, (s.queue 9).consumer = 1 ∧ s.pw.awake = true ∧ s.pool.linkBad = [] ∧ headItem s 9 = none ∧ slotBad s .hostDma = none)
    ∧ (∃ s : State, (s.queue 9).consumer = 1 ∧ s.pw.awake = true ∧ s.pool.linkBad = [] ∧ (headItem s 9).map itemId = some 100
        ∧ slotBad s .hostDma = none ∧ (headItem s 9).map (fun x => hostFirst s (drainKey 9 x)) = some true)
    ∧ (∃ s : State, regReach .serial (0x38000 + 9 * 0x80 + 0x48) s = true ∧ hasWindow s 9 = true ∧ (s.queue 9).lock ≠ none
        ∧ (headItem s 9).map itemId = some 100 ∧ slotBad s .hostDma ≠ none) :=
  ⟨⟨withQ 9 1 sv, by decide +kernel⟩,
   ⟨sv, by decide +kernel⟩,
   ⟨((withItem 9 0 [100, 101] (withQ 9 0 sv)).modQueue 9 fun u => { u with lock := some 100 }), by decide +kernel⟩,
   ⟨withQ 9 0 sv, by decide +kernel⟩,
   ⟨withItem 9 0 [100, 101] (withQ 9 0 sv), by decide +kernel⟩,
   ⟨((withItem 9 0 [100, 101] (withQ 9 0 sv)).modQueue 9 fun u => { u with lock := some 100 }).modQueue 9 fun u => { u with wCell := 1 },
       by decide +kernel⟩,
   ⟨((withItem 9 0 [100, 101] (withQ 9 0 sv)).modQueue 9 fun u => { u with lock := some 100 }).modQueue 9 fun u => { u with wCell := 2 },
       by decide +kernel⟩,
   ⟨(withQ 9 0 sv).modQueue 9 fun u => { u with prevData := 7 }, by decide +kernel⟩,
   ⟨withQ 9 0 sv, by decide +kernel⟩,
   ⟨((withItem 9 0 [100, 101] (withQ 9 0 sv)).modQueue 9 fun u => { u with lock := some 100 }), by decide +kernel⟩,
   ⟨((withItem 9 0 [100, 101] (withQ 9 0 sv)).modQueue 9 fun u => { u with lock := some 100 }).modPool fun p => { p with lockTmo := 0 },
       by decide +kernel⟩,
   ⟨((withItem 9 0 [100, 101] (withQ 9 0 sv)).modQueue 9 fun u => { u with lock := some 100 }), by decide +kernel⟩,
   ⟨withQ 9 1 sv, by decide +kernel⟩,
   ⟨withItem 9 0 [100, 101] (withQ 9 1 sv), by decide +kernel⟩,
   ⟨{ ((withItem 9 0 [100, 101] (withQ 9 0 sv)).modQueue 9 fun u => { u with lock := some 100 }) with gl := { sv.gl with slotBad := [(8, true)] } },
       by decide +kernel⟩⟩

/-- States that meet the hypotheses of `RouteCommands`. -/
theorem meets_RouteCommands :
    (∃ s : State, ready s 0 = some (P s 0) ∧ (s.cr 0).cmd.bind (·.comp) = none ∧ sharedCheck s (P s 0) = none
        ∧ isRouteAdd false (P s 0) = true ∧ 1023 < (wd (P s 0) 1).toNat)
    ∧ (∃ s : State, ready s 0 = some (P s 0) ∧ (s.cr 0).cmd.bind (·.comp) = none ∧ sharedCheck s (P s 0) = none
        ∧ isRouteAdd false (P s 0) = true ∧ routeParamsOk s (wd (P s 0) 2) (wd (P s 0) 3) (wd (P s 0) 4) (wd (P s 0) 5) = true
        ∧ bitOf (s.route 1023).cfg 1 = true)
    ∧ (∃ s : State, ready s 0 = some (P s 0) ∧ (s.cr 0).cmd.bind (·.comp) = none ∧ sharedCheck s (P s 0) = none
        ∧ isRouteAdd false (P s 0) = true ∧ routeParamsOk s (wd (P s 0) 2) (wd (P s 0) 3) (wd (P s 0) 4) (wd (P s 0) 5) = true
        ∧ bitOf (s.route 1023).cfg 1 = false)
    ∧ (∃ s : State, ready s 0 = some (P s 0) ∧ (s.cr 0).cmd.bind (·.comp) = none ∧ sharedCheck s (P s 0) = none
        ∧ isRouteAdd true (P s 0) = true)
    ∧ (∃ s : State, ready s 0 = some (P s 0) ∧ (s.cr 0).cmd.bind (·.comp) = none ∧ sharedCheck s (P s 0) = none
        ∧ isRouteAdd true (P s 0) = true ∧ bitOf (s.route 7).cfg 0 = true)
    ∧ (∃ s : State, ready s 0 = some (P s 0) ∧ (s.cr 0).cmd.bind (·.comp) = none ∧ sharedCheck s (P s 0) = none
        ∧ isRouteAdd true (P s 0) = true ∧ bitOf (s.route 7).cfg 0 = false ∧ bitOf (s.route 7).cfg 1 = true)
    ∧ (∃ s : State, ready s 0 = some (P s 0) ∧ (s.cr 0).cmd.bind (·.comp) = none ∧ sharedCheck s (P s 0) = none ∧ pOpcode (P s 0) = 0x49
        ∧ bitOf (s.route 7).cfg 1 = false)
    ∧ (∃ s : State, ready s 0 = some (P s 0) ∧ (s.cr 0).cmd.bind (·.comp) = none ∧ sharedCheck s (P s 0) = none ∧ pOpcode (P s 0) = 0x49
        ∧ bitOf (s.route 7).cfg 1 = true ∧ bitOf (wd (P s 0) 0) 8 = false ∧ listNames s (activeHalf s 15) 15 2 7 = true)
    ∧ (∃ s : State, ready s 0 = some (P s 0) ∧ (s.cr 0).cmd.bind (·.comp) = none ∧ sharedCheck s (P s 0) = none ∧ pOpcode (P s 0) = 0x49
        ∧ bitOf (s.route 7).cfg 1 = true ∧ routeHeld s 7 = false)
    ∧ (∃ s : State, ready s 0 = some (P s 0) ∧ (s.cr 0).cmd.bind (·.comp) = none ∧ sharedCheck s (P s 0) = none ∧ pOpcode (P s 0) = 0x49
        ∧ bitOf (s.route 7).cfg 1 = true ∧ bitOf (wd (P s 0) 0) 8 = true ∧ routeHeld s 7 = false)
    ∧ (∃ s : State, ready s 0 = some (P s 0) ∧ (s.cr 0).cmd.bind (·.comp) = none ∧ sharedCheck s (P s 0) = none ∧ pOpcode (P s 0) = 0x49
        ∧ bitOf (s.route 7).cfg 1 = true ∧ routeHeld s 7 = true ∧ bitOf (wd (P s 0) 0) 9 = false)
    ∧ (∃ s : State, ready s 0 = some (P s 0) ∧ (s.cr 0).cmd.bind (·.comp) = none ∧ sharedCheck s (P s 0) = none ∧ pOpcode (P s 0) = 0x49
        ∧ bitOf (s.route 7).cfg 1 = true ∧ routeHeld s 7 = true ∧ bitOf (wd (P s 0) 0) 9 = true)
    ∧ (∃ s : State, ready s 0 = some (P s 0) ∧ (s.cr 0).cmd.bind (·.comp) = none ∧ sharedCheck s (P s 0) = none ∧ pOpcode (P s 0) = 0x4A
        ∧ fld (wd (P s 0) 2) 0 2 = 3)
    ∧ (∃ s : State, ready s 0 = some (P s 0) ∧ (s.cr 0).cmd.bind (·.comp) = none ∧ sharedCheck s (P s 0) = none ∧ pOpcode (P s 0) = 0x4A
        ∧ bitOf (s.route 7).cfg 1 = false)
    ∧ (∃ s : State, ready s 0 = some (P s 0) ∧ (s.cr 0).cmd.bind (·.comp) = none ∧ sharedCheck s (P s 0) = none ∧ pOpcode (P s 0) = 0x4A
        ∧ bitOf (s.route 7).cfg 1 = true ∧ bitOf (wd (P s 0) 0) 8 = false)
    ∧ (∃ s : State, ready s 0 = some (P s 0) ∧ (s.cr 0).cmd.bind (·.comp) = none ∧ sharedCheck s (P s 0) = none ∧ pOpcode (P s 0) = 0x4A
        ∧ bitOf (s.route 7).cfg 1 = true ∧ bitOf (wd (P s 0) 0) 8 = true) :=
  ⟨⟨cmd 0 [0x48, 1024, 0x900] (withQ 9 5 sv), by decide +kernel⟩,
   ⟨cmd 0 [0x48, 1023, 0x900] (rt 1023 2 0 0 (withQ 9 5 sv)), by decide +kernel⟩,
   ⟨cmd 0 [0x48, 1023, 0x900, 0, 0, 0x020010] (rt 1023 0 0 0 (withQ 9 5 sv)), by decide +kernel⟩,
   ⟨cmd 0 [0x148, 1024] sv, by decide +kernel⟩,
   ⟨cmd 0 [0x148, 7] (rt 7 3 0 0 sv), by decide +kernel⟩,
   ⟨cmd 0 [0x148, 7] (rt 7 2 0 0 sv), by decide +kernel⟩,
   ⟨cmd 0 [0x49, 7] sv, by decide +kernel⟩,
   ⟨(cmd 0 [0x49, 7] (rt 7 3 0 0 sv)).modLat fun l => { l with elems := [(elemIdx false 15 0, 0x2040380000000000#64)] }, by decide +kernel⟩,
   ⟨cmd 0 [0x49, 7] (rt 7 3 0 0 sv), by decide +kernel⟩,
   ⟨cmd 0 [0x149, 7] (rt 7 3 0 0 sv), by decide +kernel⟩,
   ⟨held 15 hd (cmd 0 [0x49, 7] (rt 7 3 0 0 sv)), by decide +kernel⟩,
   ⟨held 15 hd (cmd 0 [0x249, 7] (rt 7 3 0 0 sv)), by decide +kernel⟩,
   ⟨cmd 0 [0x4A, 7, 3] sv, by decide +kernel⟩,
   ⟨cmd 0 [0x4A, 7, 2] sv, by decide +kernel⟩,
   ⟨cmd 0 [0x4A, 7, 2] ((rt 7 3 0 0 sv).modRoute 7 fun e => { e with cnt := [(4, 5)] }), by decide +kernel⟩,
   ⟨cmd 0 [0x14A, 7, 2] ((rt 7 3 0 0 sv).modRoute 7 fun e => { e with cnt := [(0, 1), (4, 5)] }), by decide +kernel⟩⟩

/-- States that meet the hypotheses of `ChordSlots`. -/
theorem meets_ChordSlots :
    (∃ s : State, ringsUsable s = false)
    ∧ (∃ s : State, forcedSafe s .chord = false ∧ ringsUsable s = true ∧ s.round % 8 = 15 / 2 ∧ slotBadAt s (· == 2 + 24 * (15 % 2)) = none
        ∧ slotBadAt s (· == 14 + 24 * (15 % 2)) = none ∧ mget [] s.cd.rets 15 = 100 :: [101])
    ∧ (∃ s : State, forcedSafe s .chord = false ∧ ringsUsable s = true ∧ s.round % 8 = 15 / 2 ∧ slotBadAt s (· == 2 + 24 * (15 % 2)) = none
        ∧ slotBadAt s (· == 14 + 24 * (15 % 2)) = none ∧ mget [] s.cd.rets 15 = [] ∧ firstHead (laneHeads s 15) = none)
    ∧ (∃ s : State, forcedSafe s .chord = false ∧ ringsUsable s = true ∧ s.round % 8 = 15 / 2 ∧ slotBadAt s (· == 2 + 24 * (15 % 2)) = none
        ∧ slotBadAt s (· == 14 + 24 * (15 % 2)) = none ∧ mget [] s.cd.rets 15 = [] ∧ holdOf s 15 = none ∧ s.pool.linkBad = []
        ∧ (firstHead (laneHeads s 15)).map (·.2.2) = some (3, 9) ∧ (headItem s 9).map itemId = some 100)
    ∧ (∃ s : State, forcedSafe s .chord = false ∧ ringsUsable s = true ∧ s.round % 8 = 15 / 2 ∧ slotBadAt s (· == 2 + 24 * (15 % 2)) = none
        ∧ slotBadAt s (· == 14 + 24 * (15 % 2)) = none ∧ holdOf s 15 = none)
    ∧ (∃ s : State, forcedSafe s .chord = false ∧ ringsUsable s = true ∧ s.round % 8 = 15 / 2 ∧ slotBadAt s (· == 2 + 24 * (15 % 2)) = none
        ∧ slotBadAt s (· == 14 + 24 * (15 % 2)) = none ∧ (holdOf s 15).map (·.bad) = some true)
    ∧ (∃ s : State, forcedSafe s .chord = false ∧ ringsUsable s = true ∧ s.round % 8 = 15 / 2 ∧ slotBadAt s (· == 2 + 24 * (15 % 2)) = none
        ∧ slotBadAt s (· == 14 + 24 * (15 % 2)) = none ∧ (holdOf s 15).map (fun h => (h.bad, h.disabled)) = some (false, true)
        ∧ (s.route 7).bad = false)
    ∧ (∃ s : State, forcedSafe s .chord = false ∧ ringsUsable s = true ∧ s.round % 8 = 15 / 2 ∧ slotBadAt s (· == 2 + 24 * (15 % 2)) = none
        ∧ slotBadAt s (· == 14 + 24 * (15 % 2)) = none
        ∧ (holdOf s 15).map (fun h => (h.bad, h.disabled, h.fail)) = some (false, false, some 5) ∧ (s.route 7).bad = false)
    ∧ (∃ s : State, forcedSafe s .chord = false ∧ ringsUsable s = true ∧ s.round % 8 = 15 / 2 ∧ slotBadAt s (· == 2 + 24 * (15 % 2)) = none
        ∧ slotBadAt s (· == 14 + 24 * (15 % 2)) = none
        ∧ (holdOf s 15).map (fun h => (h.bad, h.disabled, h.fail)) = some (false, false, none)
        ∧ outAsleep s (s.queue (rtQueue (s.route 7))).txCh = true ∧ bitOf (s.route 7).cfg 5 = false ∧ (s.route 7).bad = false)
    ∧ (∃ s : State, forcedSafe s .chord = false ∧ ringsUsable s = true ∧ s.round % 8 = 15 / 2 ∧ slotBadAt s (· == 2 + 24 * (15 % 2)) = none
        ∧ slotBadAt s (· == 14 + 24 * (15 % 2)) = none ∧ outAsleep s (s.queue (rtQueue (s.route 7))).txCh = false
        ∧ rtEmpty (s.route 7) = true ∧ bitOf (s.route 7).cfg 6 = true
        ∧ (holdOf s 15).map (fun h => (h.bad, h.disabled, h.fail)) = some (false, false, none) ∧ (s.route 7).bad = false)
    ∧ (∃ s : State, forcedSafe s .chord = false ∧ ringsUsable s = true ∧ s.round % 8 = 15 / 2 ∧ slotBadAt s (· == 2 + 24 * (15 % 2)) = none
        ∧ slotBadAt s (· == 14 + 24 * (15 % 2)) = none ∧ outAsleep s (s.queue (rtQueue (s.route 7))).txCh = false
        ∧ rtEmpty (s.route 7) = true ∧ bitOf (s.route 7).cfg 6 = false
        ∧ (holdOf s 15).map (fun h => (h.bad, h.disabled, h.fail)) = some (false, false, none) ∧ (s.route 7).bad = false)
    ∧ (∃ s : State, forcedSafe s .chord = false ∧ ringsUsable s = true ∧ s.round % 8 = 15 / 2 ∧ slotBadAt s (· == 2 + 24 * (15 % 2)) = none
        ∧ slotBadAt s (· == 14 + 24 * (15 % 2)) = none ∧ outAsleep s (s.queue (rtQueue (s.route 7))).txCh = false
        ∧ rtEmpty (s.route 7) = false ∧ rechargeOk s 9 [100] = false ∧ bitOf (s.route 7).cfg 6 = true
        ∧ (holdOf s 15).map (fun h => (h.bad, h.disabled, h.fail)) = some (false, false, none) ∧ (s.route 7).bad = false)
    ∧ (∃ s : State, forcedSafe s .chord = false ∧ ringsUsable s = true ∧ s.round % 8 = 15 / 2 ∧ slotBadAt s (· == 2 + 24 * (15 % 2)) = none
        ∧ slotBadAt s (· == 14 + 24 * (15 % 2)) = none ∧ outAsleep s (s.queue (rtQueue (s.route 7))).txCh = false
        ∧ rtEmpty (s.route 7) = false ∧ rechargeOk s 9 [100] = false ∧ bitOf (s.route 7).cfg 6 = false
        ∧ (holdOf s 15).map (fun h => (h.bad, h.disabled, h.fail)) = some (false, false, none) ∧ (s.route 7).bad = false)
    ∧ (∃ s : State, forcedSafe s .chord = false ∧ ringsUsable s = true ∧ s.round % 8 = 15 / 2 ∧ slotBadAt s (· == 2 + 24 * (15 % 2)) = none
        ∧ slotBadAt s (· == 14 + 24 * (15 % 2)) = none ∧ outAsleep s (s.queue (rtQueue (s.route 7))).txCh = false
        ∧ rtEmpty (s.route 7) = false ∧ rechargeOk s 9 [100] = true
        ∧ (holdOf s 15).map (fun h => (h.bad, h.disabled, h.fail)) = some (false, false, none) ∧ (s.route 7).bad = false
        ∧ (waiting s 0x49 fun ws => fld (wd ws 1) 0 10 == 7) = [])
    ∧ (∃ s : State, (holdOf s 15).map (·.kept) = some true ∧ s.cd.stallUs ≠ 0)
    ∧ (∃ s : State, (holdOf s 15).map (·.kept) = some false)
    ∧ (∃ s : State, bitOf (s.route 1023).cfg 1 = true ∧ fld (s.route 1023).rate 0 16 ≠ 0
        ∧ (s.route 1023).tokens < fld (s.route 1023).rate 16 8)
    ∧ (∃ s : State, fld (s.route 1023).rate 16 8 ≤ (s.route 1023).tokens)
    ∧ (∃ s : State, (s.chan 15).rx = none)
    ∧ (∃ s : State, ((s.chan 15).rx.map fun f => (f.ctSeq, ((ctChain f).map fun c => (c.cells, c.marked)))) = some (none, some ([100],
        false)) ∧ slotBad s (.channel 15) = none)
    ∧ (∃ s : State, forcedSafe s .chord = false ∧ ringsUsable s = true ∧ s.round % 8 = 15 / 2 ∧ slotBadAt s (· == 2 + 24 * (15 % 2)) ≠ none
        ∧ mget [] s.cd.rets 15 ≠ [])
    ∧ (∃ s : State, forcedSafe s .chord = false ∧ ringsUsable s = true ∧ s.round % 8 = 15 / 2
        ∧ slotBadAt s (· == 14 + 24 * (15 % 2)) ≠ none ∧ holdOf s 15 ≠ none)
    ∧ (∃ s : State, ((s.chan 15).rx.map fun f => (f.ctSeq, ((ctChain f).map fun c => (c.cells, c.marked)))) = some (none, some ([100],
        true)) ∧ slotBad s (.channel 15) = none)
    ∧ (∃ s : State, s.round % 8 ≠ 15 / 2)
    ∧ (∃ s : State, forcedSafe s .chord = false ∧ ringsUsable s = true ∧ s.round % 8 = 15 / 2 ∧ slotBadAt s (· == 2 + 24 * (15 % 2)) = none
        ∧ slotBadAt s (· == 14 + 24 * (15 % 2)) = none ∧ outAsleep s (s.queue (rtQueue (s.route 7))).txCh = false
        ∧ rtEmpty (s.route 7) = false ∧ rechargeOk s 9 [100] = true ∧ (s.queue 9).state ≠ .broken ∧ (s.queue 9).consumer ≠ 5
        ∧ (s.queue 9).items = []) :=
  ⟨⟨{ sv7 with pw := { sv.pw with mode := .sleep } }, by decide +kernel⟩,
   ⟨{ sv7 with cd := { sv.cd with rets := [(15, [100, 101])] }, pool := { sv.pool with owner := [(100, 9), (101, 9), (102, 9)] } },
       by decide +kernel⟩,
   ⟨sv7, by decide +kernel⟩,
   ⟨withItem 9 1 [100] (withQ 9 3 { sv7 with cd := { sv.cd with laneEn := [(15, 8)], chIn := [(15, 0x09000000)] } }), by decide +kernel⟩,
   ⟨sv7, by decide +kernel⟩,
   ⟨held 15 { hd with bad := true } (rt 7 3 0 0 sv7), by decide +kernel⟩,
   ⟨held 15 { hd with disabled := true } (rt 7 3 0 0 sv7), by decide +kernel⟩,
   ⟨held 15 { hd with fail := some 5 } (rt 7 3 0 0 sv7), by decide +kernel⟩,
   ⟨held 15 hd (rt 7 0x903 0 0 (withQ 9 5 sv7)), by decide +kernel⟩,
   ⟨held 15 hd (rt 7 0x943 0x020010 0 (withQ 9 5 (trxOn sv7))), by decide +kernel⟩,
   ⟨held 15 hd (rt 7 0x903 0x020010 0 (withQ 9 5 (trxOn sv7))), by decide +kernel⟩,
   ⟨held 15 hd (rt 7 0x943 0 0 ((withQ 9 5 (trxOn sv7)).modQueue 9 fun u => { u with max := 0 })), by decide +kernel⟩,
   ⟨held 15 hd (rt 7 0x903 0 0 ((withQ 9 5 (trxOn sv7)).modQueue 9 fun u => { u with max := 0 })), by decide +kernel⟩,
   ⟨held 15 hd (rt 7 0x903 0x020010 2 (withQ 9 5 (trxOn sv7))), by decide +kernel⟩,
   ⟨held 15 { hd with kept := true } sv7, by decide +kernel⟩,
   ⟨held 15 hd sv7, by decide +kernel⟩,
   ⟨rt 1023 3 0x020010 1 sv7, by decide +kernel⟩,
   ⟨rt 1023 3 0x020010 2 sv7, by decide +kernel⟩,
   ⟨sv7, by decide +kernel⟩,
   ⟨(rt 7 0x913 0 0 (withQ 9 5 (trxOn sv7))).modChan 15 fun c =>
       { c with rx := some { rx0 with chains := [{ dest := .cut 7, element := 3, queue := 9, cls := 0, cells := [100], final := true, marked := false }] } },
       by decide +kernel⟩,
   ⟨{ { sv7 with cd := { sv.cd with rets := [(15, [100, 101])] }, pool := { sv.pool with owner := [(100, 9), (101, 9)] } } with gl := { sv.gl with slotBad := [(26, true)] } },
       by decide +kernel⟩,
   ⟨{ (held 15 hd (rt 7 0x903 0 0 sv7)) with gl := { sv.gl with slotBad := [(38, true)] } }, by decide +kernel⟩,
   ⟨(rt 7 0x913 0 0 { (withQ 9 5 (trxOn sv7)) with pool := { (withQ 9 5 (trxOn sv7)).pool with owner := [(100, 9), (7, 9)] } }).modChan 15
       fun c => { c with rx := some { rx0 with chains := [{ dest := .cut 7, element := 3, queue := 9, cls := 0, cells := [100], final := true, marked := true }] } },
       by decide +kernel⟩,
   ⟨sv, by decide +kernel⟩,
   ⟨held 15 hd (rt 7 0x903 0x020010 2 (withQ 9 3 (trxOn sv7))), by decide +kernel⟩⟩

/-- States that meet the hypotheses of `TimeCommands`. -/
theorem meets_TimeCommands :
    (∃ s : State, ready s 0 = some (P s 0) ∧ (s.cr 0).cmd.bind (·.comp) = none ∧ sharedCheck s (P s 0) = none
        ∧ isTmSet (fun op => op == 0 || op == 3) (P s 0) = true ∧ fld (wd (P s 0) 1) 0 2 = 3)
    ∧ (∃ s : State, ready s 0 = some (P s 0) ∧ (s.cr 0).cmd.bind (·.comp) = none ∧ sharedCheck s (P s 0) = none
        ∧ isTmSet (fun op => op == 0 || op == 3) (P s 0) = true ∧ servoRuns s = true)
    ∧ (∃ s : State, ready s 0 = some (P s 0) ∧ (s.cr 0).cmd.bind (·.comp) = none ∧ sharedCheck s (P s 0) = none
        ∧ isTmSet (fun op => op == 0 || op == 3) (P s 0) = true ∧ servoRuns s = false)
    ∧ (∃ s : State, ready s 0 = some (P s 0) ∧ (s.cr 0).cmd.bind (·.comp) = none ∧ sharedCheck s (P s 0) = none
        ∧ isTmSet (fun op => op == 1) (P s 0) = true ∧ servoRuns s = true)
    ∧ (∃ s : State, ready s 0 = some (P s 0) ∧ (s.cr 0).cmd.bind (·.comp) = none ∧ sharedCheck s (P s 0) = none
        ∧ isTmSet (fun op => op == 1) (P s 0) = true ∧ servoRuns s = false)
    ∧ (∃ s : State, ready s 0 = some (P s 0) ∧ (s.cr 0).cmd.bind (·.comp) = none ∧ sharedCheck s (P s 0) = none
        ∧ isTmSet (fun op => op == 2) (P s 0) = true ∧ 500000 < (wd (P s 0) 2).toInt)
    ∧ (∃ s : State, ready s 0 = some (P s 0) ∧ (s.cr 0).cmd.bind (·.comp) = none ∧ sharedCheck s (P s 0) = none
        ∧ isTmSet (fun op => op == 2) (P s 0) = true ∧ servoRuns s = true)
    ∧ (∃ s : State, ready s 0 = some (P s 0) ∧ (s.cr 0).cmd.bind (·.comp) = none ∧ sharedCheck s (P s 0) = none
        ∧ isTmSet (fun op => op == 2) (P s 0) = true ∧ (wd (P s 0) 2).toInt = -500000 ∧ servoRuns s = false)
    ∧ (∃ s : State, ready s 0 = some (P s 0) ∧ (s.cr 0).cmd.bind (·.comp) = none ∧ sharedCheck s (P s 0) = none ∧ pOpcode (P s 0) = 0x51
        ∧ bitOf (wd (P s 0) 2) (fld (wd (P s 0) 1) 4 4) = true)
    ∧ (∃ s : State, ready s 0 = some (P s 0) ∧ (s.cr 0).cmd.bind (·.comp) = none ∧ sharedCheck s (P s 0) = none ∧ pOpcode (P s 0) = 0x51
        ∧ bitOf (wd (P s 0) 1) 3 = false)
    ∧ (∃ s : State, ready s 0 = some (P s 0) ∧ (s.cr 0).cmd.bind (·.comp) = none ∧ sharedCheck s (P s 0) = none
        ∧ isTmSet (fun op => op == 1) (P s 0) = true ∧ servoRuns s = false)
    ∧ (∃ s : State, ready s 0 = some (P s 0) ∧ (s.cr 0).cmd.bind (·.comp) = none ∧ sharedCheck s (P s 0) = none ∧ pOpcode (P s 0) = 0x51
        ∧ bitOf (wd (P s 0) 1) 3 = false ∧ fld (wd (P s 0) 1) 0 3 = 2)
    ∧ (∃ s : State, ready s 0 = some (P s 0) ∧ (s.cr 0).cmd.bind (·.comp) = none ∧ sharedCheck s (P s 0) = none
        ∧ isTmSet (fun op => op == 1) (P s 0) = true ∧ servoRuns s = false) :=
  ⟨⟨cmd 0 [0x50, 3] sv, by decide +kernel⟩,
   ⟨cmd 0 [0x50, 0] { sv with tm := { sv.tm with role := 2 } }, by decide +kernel⟩,
   ⟨cmd 0 [0x50, 0, 5, 1] sv, by decide +kernel⟩,
   ⟨cmd 0 [0x50, 1, 5] { sv with tm := { sv.tm with role := 2 } }, by decide +kernel⟩,
   ⟨cmd 0 [0x50, 1, 0xFFFFFFFF, 0xFFFFFFFF] { sv with tm := { sv.tm with now := 5 } }, by decide +kernel⟩,
   ⟨cmd 0 [0x50, 2, 500001] sv, by decide +kernel⟩,
   ⟨cmd 0 [0x50, 2, 5] { sv with tm := { sv.tm with role := 2 } }, by decide +kernel⟩,
   ⟨cmd 0 [0x50, 2, 0xFFF85EE0] sv, by decide +kernel⟩,
   ⟨cmd 0 [0x51, 0xF2, 0x8000] sv, by decide +kernel⟩,
   ⟨cmd 0 [0x51, 0xF2, 0x7000] sv, by decide +kernel⟩,
   ⟨cmd 0 [0x50, 1, 0xFFFFFFFF, 0xFFFFFFFF] { sv with tm := { sv.tm with now := 5, lastEdge := some 3, preStep := some 9 } },
       by decide +kernel⟩,
   ⟨cmd 0 [0x51, 0xF2, 0x7000]
       ({ sv with bdp := { sv.bdp with due := [{ ch := 3, kind := kSync, aux := 0, words := [] }, { ch := 3, kind := kHeartbeat, aux := 0, words := [] }] } }),
       by decide +kernel⟩,
   ⟨cmd 0 [0x50, 1, 5] { sv with tm := { sv.tm with sync := [(9, (1, 7#64, 2))] } }, by decide +kernel⟩⟩

/-- States that meet the hypotheses of `TimeEvents`. -/
theorem meets_TimeEvents :
    (∃ s : State, bitOf (passCycles 0 s).tm.ppsCfg 1 = false)
    ∧ (∃ s : State, (passCycles 0 s).tm.lastEdge = some 1500000001 ∧ ((passCycles 0 s).tm.now.toNat : Int) - 1500000001 < 500000000)
    ∧ (∃ s : State, bitOf (passCycles 0 s).tm.ppsCfg 1 = true ∧ timeRuns (passCycles 0 s) = true
        ∧ 500000000 ≤ ((passCycles 0 s).tm.now.toNat : Int) - 1500000000 ∧ tmRole (passCycles 0 s) ≠ 1)
    ∧ (∃ s : State, tmRole (passCycles 0 s) = 1 ∧ bitOf (passCycles 0 s).tm.role 3 = true ∧ (passCycles 0 s).tm.state = 0
        ∧ timeRuns (passCycles 0 s) = true ∧ (passCycles 0 s).tm.lastEdge = none ∧ bitOf (passCycles 0 s).tm.ppsCfg 1 = true)
    ∧ (∃ s : State, tmRole (passCycles 0 s) = 1 ∧ bitOf (passCycles 0 s).tm.role 3 = true ∧ (passCycles 0 s).tm.state = 0
        ∧ timeRuns (passCycles 0 s) = true ∧ bitOf (passCycles 0 s).tm.ppsCfg 1 = true ∧ (passCycles 0 s).tm.lastEdge = none)
    ∧ (∃ s : State, (passCycles 0 s).tm.ppsDue = true)
    ∧ (∃ s : State, (passCycles 7 s).tm.ppsDue = false)
    ∧ (∃ s : State, s.tm.state ≠ 1 ∧ s.tm.state ≠ 2)
    ∧ (∃ s : State, s.tm.state = 2)
    ∧ (∃ s : State, s.tm.state = 3 ∧ s.tm.told38 = false ∧ fld s.tm.hold 16 16 ≠ 0)
    ∧ (∃ s : State, s.tm.told38 = true)
    ∧ (∃ s : State, s.tm.state ≠ 3)
    ∧ (∃ s : State, (passCycles 0 s).tm.ppsDue = true ∧ bitOf (passCycles 0 s).tm.ppsCfg 0 = false) :=
  ⟨⟨sv, by decide +kernel⟩,
   ⟨{ sv with boot := { sv.boot with phase := .service }, pw := { sv.pw with mode := .run }, tm := { sv.tm with ppsCfg := 0x00640003#32, now := 2000000000#64, lastEdge := some 1500000001 } },
       by decide +kernel⟩,
   ⟨{ sv with boot := { sv.boot with phase := .service }, pw := { sv.pw with mode := .run }, tm := { sv.tm with ppsCfg := 0x00640003#32, now := 2000000000#64, lastEdge := some 1500000000, ppsAdj := 0x8001 } },
       by decide +kernel⟩,
   ⟨{ sv with boot := { sv.boot with phase := .service }, pw := { sv.pw with mode := .run }, tm := { sv.tm with ppsCfg := 0x00640003#32, now := 2000000000#64, role := 9, state := 0 } },
       by decide +kernel⟩,
   ⟨{ sv with boot := { sv.boot with phase := .service }, pw := { sv.pw with mode := .run }, tm := { sv.tm with ppsCfg := 0x00640003#32, now := 2000000000#64, role := 9, state := 0, ppsAdj := 10 } },
       by decide +kernel⟩,
   ⟨{ sv with boot := { sv.boot with phase := .service }, pw := { sv.pw with mode := .run }, tm := { sv.tm with ppsCfg := 0x00640003#32, now := 2000000000#64, ppsDue := true, set := true } },
       by decide +kernel⟩,
   ⟨sv, by decide +kernel⟩,
   ⟨sv, by decide +kernel⟩,
   ⟨{ sv with tm := { sv.tm with state := 2 } }, by decide +kernel⟩,
   ⟨{ sv with tm := { sv.tm with state := 3 } }, by decide +kernel⟩,
   ⟨{ sv with tm := { sv.tm with state := 3, told38 := true } }, by decide +kernel⟩,
   ⟨sv, by decide +kernel⟩,
   ⟨{ sv with tm := { sv.tm with ppsDue := true } }, by decide +kernel⟩⟩

/-- States that meet the hypotheses of `OwnFrames`. -/
theorem meets_OwnFrames :
    (∃ s : State, dueOf s 0 1 = none)
    ∧ (∃ s : State, (dueOf s 0 1).isSome = true ∧ bdpSends s 0 = true ∧ bdpQueue s 0 = none)
    ∧ (∃ s : State, (dueOf s 0 1).isSome = true ∧ bdpSends s 0 = true ∧ bdpQueue s 0 = some 9 ∧ slotBad s .duplex = none
        ∧ allocOk s 9 true = false)
    ∧ (∃ s : State, (dueOf s 0 1).isSome = true ∧ bdpSends s 0 = true ∧ bdpQueue s 0 = some 9 ∧ slotBad s .duplex = none
        ∧ allocOk s 9 true = true ∧ s.bdp.own = [])
    ∧ (∃ s : State, tmRole s ≠ 1 ∧ tmRole s ≠ 2)
    ∧ (∃ s : State, tmRole s = 1 ∧ isStandby s = false ∧ s.bdp.own = [] ∧ bdpSends s 0 = true ∧ bitOf s.tm.role 16 = true)
    ∧ (∃ s : State, s.dx.state ≠ 2 ∧ s.dx.state ≠ 0)
    ∧ (∃ s : State, s.dx.state = 2 ∧ s.dx.supMask.testBit 0 = true ∧ bdpSends s 0 = true)
    ∧ (∃ s : State, s.dx.state ≠ 2)
    ∧ (∃ s : State, s.bdp.answers.contains 0 = false)
    ∧ (∃ s : State, s.bdp.answers.contains 0 = true ∧ inService s = true)
    ∧ (∃ s : State, s.bdp.answers.contains 0 = true ∧ reduced s 0 = true ∧ (s.chan 0).state = .active)
    ∧ (∃ s : State, mget 0 s.bdp.echoes 0 = 0)
    ∧ (∃ s : State, mget 0 s.bdp.echoes 0 ≠ 0 ∧ bdpSends s 0 = true ∧ bdpQueue s 0 = some 9 ∧ slotBad s .duplex = none
        ∧ allocOk s 9 true = true ∧ s.bdp.own = [])
    ∧ (∃ s : State, s.boot.console = [])
    ∧ (∃ s : State, s.boot.console = (0, 0x8, true) :: [(1, 0, false)] ∧ (s.chan 0).state = .active)
    ∧ (∃ s : State, (dueOf s 0 kSync).isSome = true ∧ syncSends s 0 = false)
    ∧ (∃ s : State, (s.queue 9).state ≠ .broken ∧ (s.queue 9).items = [] ∧ bdpQueue s 0 = some 9 ∧ allocOk s 9 true = true)
    ∧ (∃ s : State, tmRole s = 1 ∧ isStandby s = false ∧ bitOf s.tm.role 16 = false)
    ∧ (∃ s : State, s.bdp.answers.contains 0 = true ∧ inService s = true ∧ bdpSends s 0 = true ∧ bdpQueue s 0 = some 9
        ∧ slotBad s .duplex = none ∧ allocOk s 9 true = false)
    ∧ (∃ s : State, ((s.chan 0).rx.map fun x => (x.frame.isSome, x.crcDone, x.check.isNone, x.gates.length, x.owned)) = some (true, true,
        true, 0, false) ∧ (s.chan 0).rets = [] ∧ s.boot.commit = none ∧ s.lat.gateErr = [] ∧ reduced s 0 = false ∧ (s.chan 0).tecCnt ≤ 255
        ∧ formatTaken s 0 ({ fmt := .cc, tfmt := 0, ide := true, ident := BitVec.ofNat 29 (bdpIdent 0x10 13 0 5), rtr := false, res := false, brs := false, esi := false, sec := false, sdt := 0, vcid := 0, af := 0, dlc := (bytesOfWords [0, 0]).length, data := bytesOfWords [0, 0] }
        : Frame) = true ∧ ccDiscarded s 0
        ({ fmt := .cc, tfmt := 0, ide := true, ident := BitVec.ofNat 29 (bdpIdent 0x10 13 0 5), rtr := false, res := false, brs := false, esi := false, sec := false, sdt := 0, vcid := 0, af := 0, dlc := (bytesOfWords [0, 0]).length, data := bytesOfWords [0, 0] }
        : Frame) = false ∧ isBdp 0x10
        ({ fmt := .cc, tfmt := 0, ide := true, ident := BitVec.ofNat 29 (bdpIdent 0x10 13 0 5), rtr := false, res := false, brs := false, esi := false, sec := false, sdt := 0, vcid := 0, af := 0, dlc := (bytesOfWords [0, 0]).length, data := bytesOfWords [0, 0] }
        : Frame) = true ∧ bdpWellFormed (bdpIdent 0x10 13 0 5) (bytesOfWords [0, 0]) = false)
    ∧ (∃ s : State, ((s.chan 0).rx.map fun x => (x.frame.isSome, x.crcDone, x.check.isNone, x.gates.length, x.owned)) = some (true, true,
        true, 0, false) ∧ (s.chan 0).rets = [] ∧ s.boot.commit = none ∧ s.lat.gateErr = [] ∧ reduced s 0 = false ∧ (s.chan 0).tecCnt ≤ 255
        ∧ formatTaken s 0 ({ fmt := .cc, tfmt := 0, ide := true, ident := BitVec.ofNat 29 (bdpIdent 0x10 kClaim 0 5), rtr := false, res := false, brs := false, esi := false, sec := false, sdt := 0, vcid := 0, af := 0, dlc := (bytesOfWords [0x35]).length, data := bytesOfWords [0x35] }
        : Frame) = true ∧ ccDiscarded s 0
        ({ fmt := .cc, tfmt := 0, ide := true, ident := BitVec.ofNat 29 (bdpIdent 0x10 kClaim 0 5), rtr := false, res := false, brs := false, esi := false, sec := false, sdt := 0, vcid := 0, af := 0, dlc := (bytesOfWords [0x35]).length, data := bytesOfWords [0x35] }
        : Frame) = false ∧ isBdp 0x10
        ({ fmt := .cc, tfmt := 0, ide := true, ident := BitVec.ofNat 29 (bdpIdent 0x10 kClaim 0 5), rtr := false, res := false, brs := false, esi := false, sec := false, sdt := 0, vcid := 0, af := 0, dlc := (bytesOfWords [0x35]).length, data := bytesOfWords [0x35] }
        : Frame) = true ∧ bdpWellFormed (bdpIdent 0x10 kClaim 0 5) (bytesOfWords [0x35]) = true ∧ (s.gate 200).en = true
        ∧ (s.gate 200).pairAddr = 5 / 2 * 2 ∧ (s.gate 200).hostTime = none)
    ∧ (∃ s : State, ((s.chan 0).rx.map fun x => (x.frame.isSome, x.crcDone, x.check.isNone, x.gates.length, x.owned)) = some (true, true,
        true, 0, false) ∧ (s.chan 0).rets = [] ∧ s.boot.commit = none ∧ s.lat.gateErr = [] ∧ reduced s 0 = false ∧ (s.chan 0).tecCnt ≤ 255
        ∧ formatTaken s 0 ({ fmt := .cc, tfmt := 0, ide := true, ident := BitVec.ofNat 29 (bdpIdent 0x10 kHeartbeat 0 5), rtr := false, res := false, brs := false, esi := false, sec := false, sdt := 0, vcid := 0, af := 0, dlc := (bytesOfWords [0x01000013]).length, data := bytesOfWords [0x01000013] }
        : Frame) = true ∧ ccDiscarded s 0
        ({ fmt := .cc, tfmt := 0, ide := true, ident := BitVec.ofNat 29 (bdpIdent 0x10 kHeartbeat 0 5), rtr := false, res := false, brs := false, esi := false, sec := false, sdt := 0, vcid := 0, af := 0, dlc := (bytesOfWords [0x01000013]).length, data := bytesOfWords [0x01000013] }
        : Frame) = false ∧ isBdp 0x10
        ({ fmt := .cc, tfmt := 0, ide := true, ident := BitVec.ofNat 29 (bdpIdent 0x10 kHeartbeat 0 5), rtr := false, res := false, brs := false, esi := false, sec := false, sdt := 0, vcid := 0, af := 0, dlc := (bytesOfWords [0x01000013]).length, data := bytesOfWords [0x01000013] }
        : Frame) = true ∧ bdpWellFormed (bdpIdent 0x10 kHeartbeat 0 5) (bytesOfWords [0x01000013]) = true ∧ (s.gate 200).armed = false)
    ∧ (∃ s : State, ((s.chan 0).rx.map fun x => (x.frame.isSome, x.crcDone, x.check.isNone, x.gates.length, x.owned)) = some (true, true,
        true, 0, false) ∧ (s.chan 0).rets = [] ∧ s.boot.commit = none ∧ s.lat.gateErr = [] ∧ reduced s 0 = false ∧ (s.chan 0).tecCnt ≤ 255
        ∧ formatTaken s 0 ({ fmt := .cc, tfmt := 0, ide := true, ident := BitVec.ofNat 29 (bdpIdent 0x10 kIdReq 0 5), rtr := false, res := false, brs := false, esi := false, sec := false, sdt := 0, vcid := 0, af := 0, dlc := (bytesOfWords [0x1000]).length, data := bytesOfWords [0x1000] }
        : Frame) = true ∧ ccDiscarded s 0
        ({ fmt := .cc, tfmt := 0, ide := true, ident := BitVec.ofNat 29 (bdpIdent 0x10 kIdReq 0 5), rtr := false, res := false, brs := false, esi := false, sec := false, sdt := 0, vcid := 0, af := 0, dlc := (bytesOfWords [0x1000]).length, data := bytesOfWords [0x1000] }
        : Frame) = false ∧ isBdp 0x10
        ({ fmt := .cc, tfmt := 0, ide := true, ident := BitVec.ofNat 29 (bdpIdent 0x10 kIdReq 0 5), rtr := false, res := false, brs := false, esi := false, sec := false, sdt := 0, vcid := 0, af := 0, dlc := (bytesOfWords [0x1000]).length, data := bytesOfWords [0x1000] }
        : Frame) = true ∧ bdpWellFormed (bdpIdent 0x10 kIdReq 0 5) (bytesOfWords [0x1000]) = true ∧ isStandby s = false
        ∧ bdpWaits s 0 kIdAns = false ∧ s.bdp.own = [])
    ∧ (∃ s : State, ((s.chan 0).rx.map fun x => (x.frame.isSome, x.crcDone, x.check.isNone, x.gates.length, x.owned)) = some (true, true,
        true, 0, false) ∧ (s.chan 0).rets = [] ∧ s.boot.commit = none ∧ s.lat.gateErr = [] ∧ reduced s 0 = false ∧ (s.chan 0).tecCnt ≤ 255
        ∧ formatTaken s 0 ({ fmt := .cc, tfmt := 0, ide := true, ident := BitVec.ofNat 29 (bdpIdent 0x10 kSync 7 5), rtr := false, res := false, brs := false, esi := false, sec := false, sdt := 0, vcid := 0, af := 0, dlc := (bytesOfWords []).length, data := bytesOfWords [] }
        : Frame) = true ∧ ccDiscarded s 0
        ({ fmt := .cc, tfmt := 0, ide := true, ident := BitVec.ofNat 29 (bdpIdent 0x10 kSync 7 5), rtr := false, res := false, brs := false, esi := false, sec := false, sdt := 0, vcid := 0, af := 0, dlc := (bytesOfWords []).length, data := bytesOfWords [] }
        : Frame) = false ∧ isBdp 0x10
        ({ fmt := .cc, tfmt := 0, ide := true, ident := BitVec.ofNat 29 (bdpIdent 0x10 kSync 7 5), rtr := false, res := false, brs := false, esi := false, sec := false, sdt := 0, vcid := 0, af := 0, dlc := (bytesOfWords []).length, data := bytesOfWords [] }
        : Frame) = true ∧ bdpWellFormed (bdpIdent 0x10 kSync 7 5) (bytesOfWords []) = true ∧ inService s = true ∧ tmRole s = 2
        ∧ fld s.tm.role 4 4 = 0)
    ∧ (∃ s : State, ((s.chan 0).rx.map fun x => (x.frame.isSome, x.crcDone, x.check.isNone, x.gates.length, x.owned)) = some (true, true,
        true, 0, false) ∧ (s.chan 0).rets = [] ∧ s.boot.commit = none ∧ s.lat.gateErr = [] ∧ reduced s 0 = false ∧ (s.chan 0).tecCnt ≤ 255
        ∧ formatTaken s 0 ({ fmt := .cc, tfmt := 0, ide := true, ident := BitVec.ofNat 29 (bdpIdent 0x10 kProbe 0 5), rtr := false, res := false, brs := false, esi := false, sec := false, sdt := 0, vcid := 0, af := 0, dlc := (bytesOfWords [0x00030FFF]).length, data := bytesOfWords [0x00030FFF] }
        : Frame) = true ∧ ccDiscarded s 0
        ({ fmt := .cc, tfmt := 0, ide := true, ident := BitVec.ofNat 29 (bdpIdent 0x10 kProbe 0 5), rtr := false, res := false, brs := false, esi := false, sec := false, sdt := 0, vcid := 0, af := 0, dlc := (bytesOfWords [0x00030FFF]).length, data := bytesOfWords [0x00030FFF] }
        : Frame) = false ∧ isBdp 0x10
        ({ fmt := .cc, tfmt := 0, ide := true, ident := BitVec.ofNat 29 (bdpIdent 0x10 kProbe 0 5), rtr := false, res := false, brs := false, esi := false, sec := false, sdt := 0, vcid := 0, af := 0, dlc := (bytesOfWords [0x00030FFF]).length, data := bytesOfWords [0x00030FFF] }
        : Frame) = true ∧ bdpWellFormed (bdpIdent 0x10 kProbe 0 5) (bytesOfWords [0x00030FFF]) = true ∧ inService s = true
        ∧ fld 0x00030FFF#32 0 12 = devAddr s ∧ mget 0 s.bdp.echoes 0 = 0 ∧ bdpWaits s 0 kEcho = false) :=
  ⟨⟨sv, by decide +kernel⟩,
   ⟨(((withQ 9 5 sv).modChan 0 fun c => { c with bdpCfg := 0x901 }).modBdp fun b =>
       { b with due := [{ ch := 0, kind := 1, aux := 0, words := [] }] }).modChan 0 fun c => { c with bdpCfg := 0x801 }, by decide +kernel⟩,
   ⟨(((withQ 9 5 sv).modChan 0 fun c => { c with bdpCfg := 0x901 }).modBdp fun b =>
       { b with due := [{ ch := 0, kind := 1, aux := 0, words := [] }] }).modQueue 9 fun u => { u with max := 0 }, by decide +kernel⟩,
   ⟨(((withQ 9 5 sv).modChan 0 fun c => { c with bdpCfg := 0x901 }).modBdp fun b =>
       { b with due := [{ ch := 0, kind := 1, aux := 0, words := [] }] }), by decide +kernel⟩,
   ⟨sv, by decide +kernel⟩,
   ⟨{ ((withQ 9 5 sv).modChan 0 fun c => { c with bdpCfg := 0x901 }) with tm := { sv.tm with role := 0x10001 } }, by decide +kernel⟩,
   ⟨{ ((withQ 9 5 sv).modChan 0 fun c => { c with bdpCfg := 0x901 }) with dx := { sv.dx with state := 1 } }, by decide +kernel⟩,
   ⟨{ ((withQ 9 5 sv).modChan 0 fun c => { c with bdpCfg := 0x901 }) with dx := { sv.dx with state := 2, supMask := 1, claim := 0x1234 } },
       by decide +kernel⟩,
   ⟨sv, by decide +kernel⟩,
   ⟨sv, by decide +kernel⟩,
   ⟨((withQ 9 5 sv).modChan 0 fun c => { c with bdpCfg := 0x901 }).modBdp fun b => { b with answers := [0] }, by decide +kernel⟩,
   ⟨(({ sv with boot := { sv.boot with phase := .b3 } } : State).modBdp fun b => { b with answers := [0] }).modChan 0 fun c =>
       { c with state := .active }, by decide +kernel⟩,
   ⟨sv, by decide +kernel⟩,
   ⟨((withQ 9 5 sv).modChan 0 fun c => { c with bdpCfg := 0x901 }).modBdp fun b => { b with echoes := [(0, 2)] }, by decide +kernel⟩,
   ⟨sv, by decide +kernel⟩,
   ⟨({ sv with boot := { sv.boot with phase := .b3, console := [(0, 0x8, true), (1, 0, false)] } } : State).modChan 0 fun c =>
       { c with state := .active }, by decide +kernel⟩,
   ⟨((withQ 9 5 sv).modChan 0 fun c => { c with bdpCfg := 0x901 }).modBdp fun b =>
       { b with due := [{ ch := 0, kind := kSync, aux := 0, words := [] }] }, by decide +kernel⟩,
   ⟨(((withQ 9 5 sv).modChan 0 fun c => { c with bdpCfg := 0x901 }).modBdp fun b =>
       { b with due := [{ ch := 0, kind := 1, aux := 0, words := [] }] }), by decide +kernel⟩,
   ⟨{ ((withQ 9 5 sv).modChan 0 fun c => { c with bdpCfg := 0x901 }) with tm := { sv.tm with role := 0x20001 }, bdp := { sv.bdp with due := [{ ch := 0, kind := kSync, aux := 0, words := [] }] } },
       by decide +kernel⟩,
   ⟨(((withQ 9 5 sv).modChan 0 fun c => { c with bdpCfg := 0x901 }).modBdp fun b => { b with answers := [0] }).modQueue 9 fun u =>
       { u with max := 0 }, by decide +kernel⟩,
   ⟨sv.modChan 0 fun c =>
       { c with state := .active, trx := 0, trxTgt := 0, bdpCfg := 0x901, rx := some { rx0 with crcDone := true, frame := some ({ fmt := .cc, tfmt := 0, ide := true, ident := BitVec.ofNat 29 (bdpIdent 0x10 13 0 5), rtr := false, res := false, brs := false, esi := false, sec := false, sdt := 0, vcid := 0, af := 0, dlc := (bytesOfWords [0, 0]).length, data := bytesOfWords [0, 0] } : Frame) } },
       by decide +kernel⟩,
   ⟨(sv.modGate 200 fun g => { g with en := true, pairAddr := 4, armed := true, highest := 0x20 }).modChan 0 fun c =>
       { c with state := .active, trx := 0, trxTgt := 0, bdpCfg := 0x901, rx := some { rx0 with crcDone := true, frame := some ({ fmt := .cc, tfmt := 0, ide := true, ident := BitVec.ofNat 29 (bdpIdent 0x10 kClaim 0 5), rtr := false, res := false, brs := false, esi := false, sec := false, sdt := 0, vcid := 0, af := 0, dlc := (bytesOfWords [0x35]).length, data := bytesOfWords [0x35] } : Frame) } },
       by decide +kernel⟩,
   ⟨(sv.modGate 200 fun g => { g with en := true, pairAddr := 4 }).modChan 0 fun c =>
       { c with state := .active, trx := 0, trxTgt := 0, bdpCfg := 0x901, rx := some { rx0 with crcDone := true, frame := some ({ fmt := .cc, tfmt := 0, ide := true, ident := BitVec.ofNat 29 (bdpIdent 0x10 kHeartbeat 0 5), rtr := false, res := false, brs := false, esi := false, sec := false, sdt := 0, vcid := 0, af := 0, dlc := (bytesOfWords [0x01000013]).length, data := bytesOfWords [0x01000013] } : Frame) } },
       by decide +kernel⟩,
   ⟨sv.modChan 0 fun c =>
       { c with state := .active, trx := 0, trxTgt := 0, bdpCfg := 0x901, rx := some { rx0 with crcDone := true, frame := some ({ fmt := .cc, tfmt := 0, ide := true, ident := BitVec.ofNat 29 (bdpIdent 0x10 kIdReq 0 5), rtr := false, res := false, brs := false, esi := false, sec := false, sdt := 0, vcid := 0, af := 0, dlc := (bytesOfWords [0x1000]).length, data := bytesOfWords [0x1000] } : Frame) } },
       by decide +kernel⟩,
   ⟨{ sv with tm := { sv.tm with role := 2 } }.modChan 0 fun c =>
       { c with state := .active, trx := 0, trxTgt := 0, bdpCfg := 0x901, rx := some { rx0 with crcDone := true, frame := some ({ fmt := .cc, tfmt := 0, ide := true, ident := BitVec.ofNat 29 (bdpIdent 0x10 kSync 7 5), rtr := false, res := false, brs := false, esi := false, sec := false, sdt := 0, vcid := 0, af := 0, dlc := (bytesOfWords []).length, data := bytesOfWords [] } : Frame) } },
       by decide +kernel⟩,
   ⟨sv.modChan 0 fun c =>
       { c with state := .active, trx := 0, trxTgt := 0, bdpCfg := 0x901, rx := some { rx0 with crcDone := true, frame := some ({ fmt := .cc, tfmt := 0, ide := true, ident := BitVec.ofNat 29 (bdpIdent 0x10 kProbe 0 5), rtr := false, res := false, brs := false, esi := false, sec := false, sdt := 0, vcid := 0, af := 0, dlc := (bytesOfWords [0x00030FFF]).length, data := bytesOfWords [0x00030FFF] } : Frame) } },
       by decide +kernel⟩⟩

/-- States that meet the hypotheses of `DuplexCommands`. -/
theorem meets_DuplexCommands :
    (∃ s : State, ready s 0 = some (P s 0) ∧ (s.cr 0).cmd.bind (·.comp) = none ∧ sharedCheck s (P s 0) = none
        ∧ isDxConfig false (P s 0) = true
        ∧ (dxBad s (wd (P s 0) 2) (wd (P s 0) 3) (wd (P s 0) 4) || decide (fld (wd (P s 0) 7) 15 17 ≠ 0) || (false
        && decide (fld (wd (P s 0) 7) 0 15 = 0)) || (decide (fld (wd (P s 0) 3) 16 11 ≠ 0)
        && !addrOk s 0 (wd (P s 0) 5) (wd (P s 0) 6) (64 * fld (wd (P s 0) 3) 16 11))) = true)
    ∧ (∃ s : State, ready s 0 = some (P s 0) ∧ (s.cr 0).cmd.bind (·.comp) = none ∧ sharedCheck s (P s 0) = none
        ∧ isDxConfig true (P s 0) = true
        ∧ (dxBad s (wd (P s 0) 2) (wd (P s 0) 3) (wd (P s 0) 4) || decide (fld (wd (P s 0) 7) 15 17 ≠ 0) || (true
        && decide (fld (wd (P s 0) 7) 0 15 = 0)) || (decide (fld (wd (P s 0) 3) 16 11 ≠ 0)
        && !addrOk s 0 (wd (P s 0) 5) (wd (P s 0) 6) (64 * fld (wd (P s 0) 3) 16 11))) = true)
    ∧ (∃ s : State, ready s 0 = some (P s 0) ∧ (s.cr 0).cmd.bind (·.comp) = none ∧ sharedCheck s (P s 0) = none
        ∧ isDxConfig false (P s 0) = true
        ∧ (dxBad s (wd (P s 0) 2) (wd (P s 0) 3) (wd (P s 0) 4) || decide (fld (wd (P s 0) 7) 15 17 ≠ 0) || (false
        && decide (fld (wd (P s 0) 7) 0 15 = 0)) || (decide (fld (wd (P s 0) 3) 16 11 ≠ 0)
        && !addrOk s 0 (wd (P s 0) 5) (wd (P s 0) 6) (64 * fld (wd (P s 0) 3) 16 11))) = false ∧ dxCap (wd (P s 0) 3) = true)
    ∧ (∃ s : State, ready s 0 = some (P s 0) ∧ (s.cr 0).cmd.bind (·.comp) = none ∧ sharedCheck s (P s 0) = none
        ∧ isDxConfig false (P s 0) = true
        ∧ (dxBad s (wd (P s 0) 2) (wd (P s 0) 3) (wd (P s 0) 4) || decide (fld (wd (P s 0) 7) 15 17 ≠ 0) || (false
        && decide (fld (wd (P s 0) 7) 0 15 = 0)) || (decide (fld (wd (P s 0) 3) 16 11 ≠ 0)
        && !addrOk s 0 (wd (P s 0) 5) (wd (P s 0) 6) (64 * fld (wd (P s 0) 3) 16 11))) = false ∧ dxCap (wd (P s 0) 3) = false
        ∧ dxFixed s (wd (P s 0) 2) = true)
    ∧ (∃ s : State, ready s 0 = some (P s 0) ∧ (s.cr 0).cmd.bind (·.comp) = none ∧ sharedCheck s (P s 0) = none
        ∧ isDxConfig true (P s 0) = true
        ∧ (dxBad s (wd (P s 0) 2) (wd (P s 0) 3) (wd (P s 0) 4) || decide (fld (wd (P s 0) 7) 15 17 ≠ 0) || (true
        && decide (fld (wd (P s 0) 7) 0 15 = 0)) || (decide (fld (wd (P s 0) 3) 16 11 ≠ 0)
        && !addrOk s 0 (wd (P s 0) 5) (wd (P s 0) 6) (64 * fld (wd (P s 0) 3) 16 11))) = false ∧ dxCap (wd (P s 0) 3) = false
        ∧ dxFixed s (wd (P s 0) 2) = false ∧ s.dx.state ≠ 2)
    ∧ (∃ s : State, ready s 0 = some (P s 0) ∧ (s.cr 0).cmd.bind (·.comp) = none ∧ sharedCheck s (P s 0) = none
        ∧ isDxConfig false (P s 0) = true
        ∧ (dxBad s (wd (P s 0) 2) (wd (P s 0) 3) (wd (P s 0) 4) || decide (fld (wd (P s 0) 7) 15 17 ≠ 0) || (false
        && decide (fld (wd (P s 0) 7) 0 15 = 0)) || (decide (fld (wd (P s 0) 3) 16 11 ≠ 0)
        && !addrOk s 0 (wd (P s 0) 5) (wd (P s 0) 6) (64 * fld (wd (P s 0) 3) 16 11))) = false ∧ dxCap (wd (P s 0) 3) = false
        ∧ dxFixed s (wd (P s 0) 2) = false)
    ∧ (∃ s : State, ready s 0 = some (P s 0) ∧ (s.cr 0).cmd.bind (·.comp) = none ∧ sharedCheck s (P s 0) = none
        ∧ isDxConfig false (P s 0) = true
        ∧ (dxBad s (wd (P s 0) 2) (wd (P s 0) 3) (wd (P s 0) 4) || decide (fld (wd (P s 0) 7) 15 17 ≠ 0) || (false
        && decide (fld (wd (P s 0) 7) 0 15 = 0)) || (decide (fld (wd (P s 0) 3) 16 11 ≠ 0)
        && !addrOk s 0 (wd (P s 0) 5) (wd (P s 0) 6) (64 * fld (wd (P s 0) 3) 16 11))) = false ∧ dxFixed s (wd (P s 0) 2) = false)
    ∧ (∃ s : State, ready s 0 = some (P s 0) ∧ (s.cr 0).cmd.bind (·.comp) = none ∧ sharedCheck s (P s 0) = none
        ∧ isDxConfig true (P s 0) = true
        ∧ (dxBad s (wd (P s 0) 2) (wd (P s 0) 3) (wd (P s 0) 4) || decide (fld (wd (P s 0) 7) 15 17 ≠ 0) || (true
        && decide (fld (wd (P s 0) 7) 0 15 = 0)) || (decide (fld (wd (P s 0) 3) 16 11 ≠ 0)
        && !addrOk s 0 (wd (P s 0) 5) (wd (P s 0) 6) (64 * fld (wd (P s 0) 3) 16 11))) = false ∧ dxCap (wd (P s 0) 3) = false
        ∧ dxFixed s (wd (P s 0) 2) = false ∧ s.dx.state = 2)
    ∧ (∃ s : State, ready s 0 = some (P s 0) ∧ (s.cr 0).cmd.bind (·.comp) = none ∧ sharedCheck s (P s 0) = none ∧ pOpcode (P s 0) = 0x69
        ∧ s.dx.state ≠ 2)
    ∧ (∃ s : State, ready s 0 = some (P s 0) ∧ (s.cr 0).cmd.bind (·.comp) = none ∧ sharedCheck s (P s 0) = none ∧ pOpcode (P s 0) = 0x69
        ∧ (s.dx.replays.any fun x => x.why != .resync) = true ∧ s.dx.partner.map (·.state) = some 4 ∧ s.dx.state = 2 ∧ s.dx.linkUp = true)
    ∧ (∃ s : State, ready s 0 = some (P s 0) ∧ (s.cr 0).cmd.bind (·.comp) = none ∧ sharedCheck s (P s 0) = none ∧ pOpcode (P s 0) = 0x69
        ∧ s.dx.state = 2 ∧ s.dx.linkUp = true ∧ s.dx.partner.map (·.state) = some 4 ∧ s.dx.swap = none ∧ s.dx.ref = none
        ∧ s.dx.replays = [])
    ∧ (∃ s : State, ready s 0 = some (P s 0) ∧ (s.cr 0).cmd.bind (·.comp) = none ∧ sharedCheck s (P s 0) = none ∧ pOpcode (P s 0) = 0x6A)
    ∧ (∃ s : State, ready s 0 = some (P s 0) ∧ (s.cr 0).cmd.bind (·.comp) = none ∧ sharedCheck s (P s 0) = none ∧ pOpcode (P s 0) = 0x6B
        ∧ s.dx.state = 0)
    ∧ (∃ s : State, ready s 0 = some (P s 0) ∧ (s.cr 0).cmd.bind (·.comp) = none ∧ sharedCheck s (P s 0) = none ∧ pOpcode (P s 0) = 0x6B
        ∧ s.dx.state = 4)
    ∧ (∃ s : State, ready s 0 = some (P s 0) ∧ (s.cr 0).cmd.bind (·.comp) = none ∧ sharedCheck s (P s 0) = none ∧ pOpcode (P s 0) = 0x6B
        ∧ s.dx.state = 3)
    ∧ (∃ s : State, ready s 0 = some (P s 0) ∧ (s.cr 0).cmd.bind (·.comp) = none ∧ sharedCheck s (P s 0) = none ∧ pOpcode (P s 0) = 0x6B
        ∧ s.dx.state = 5)
    ∧ (∃ s : State, s.dx.resync = [0])
    ∧ (∃ s : State, ready s 0 = some (P s 0) ∧ (s.cr 0).cmd.bind (·.comp) = none ∧ sharedCheck s (P s 0) = none ∧ pOpcode (P s 0) = 0x69
        ∧ s.dx.state = 2 ∧ s.dx.linkUp = true ∧ s.dx.refFor ≠ none ∧ s.dx.partner.map (·.state) = some 4) :=
  ⟨⟨cmd 0 [0x68, 0, 0x10000431, 100, 0x2803E8, 0, 0, 0] sv, by decide +kernel⟩,
   ⟨cmd 0 [0x168, 0, 0x10431, 100, 0x2803E8, 0, 0, 0] ((sv.modDx fun d => { d with unit := 1 }).modChan 0 fun c => { c with bdpCfg := 1 }),
       by decide +kernel⟩,
   ⟨cmd 0 [0x68, 0, 0x10431, 0x046F0019, 0x2803E8, 0x1000, 0, 0] ((sv.modDx fun d => { d with unit := 1 }).modChan 0 fun c =>
       { c with bdpCfg := 1 }), by decide +kernel⟩,
   ⟨cmd 0 [0x68, 0, 0x430, 100, 0x2803E8, 0, 0, 0]
       { ((sv.modDx fun d => { d with unit := 1 }).modChan 0 fun c => { c with bdpCfg := 1 }) with dx := { (((sv.modDx fun d => { d with unit := 1 }).modChan 0 fun c => { c with bdpCfg := 1 })).dx with pairEn := true, state := 2 } },
       by decide +kernel⟩,
   ⟨cmd 0 [0x168, 0, 0x10431, 100, 0x2803E8, 0, 0, 5] ((sv.modDx fun d => { d with unit := 1 }).modChan 0 fun c => { c with bdpCfg := 1 }),
       by decide +kernel⟩,
   ⟨cmd 0 [0x68, 0, 0x10431, 100, 0x2803E8, 0, 0, 0] ((sv.modDx fun d => { d with unit := 1 }).modChan 0 fun c => { c with bdpCfg := 1 }),
       by decide +kernel⟩,
   ⟨cmd 0 [0x68, 0, 0x430, 100, 0x2803E8, 0, 0, 0]
       { ((sv.modDx fun d => { d with unit := 1 }).modChan 0 fun c => { c with bdpCfg := 1 }) with dx := { (((sv.modDx fun d => { d with unit := 1 }).modChan 0 fun c => { c with bdpCfg := 1 })).dx with pairEn := true, state := 5 } },
       by decide +kernel⟩,
   ⟨cmd 0 [0x168, 0, 0x10431, 100, 0x2803E8, 0, 0, 0x7FFF]
       { ((sv.modDx fun d => { d with unit := 1 }).modChan 0 fun c => { c with bdpCfg := 1 }) with dx := { (((sv.modDx fun d => { d with unit := 1 }).modChan 0 fun c => { c with bdpCfg := 1 })).dx with pairEn := true, state := 2, supMask := 1, highest := 65535, claim := 9 } },
       by decide +kernel⟩,
   ⟨cmd 0 [0x69] sv, by decide +kernel⟩,
   ⟨cmd 0 [0x69] { sv with dx := { (sv).dx with linkUp := true, lane0 := true, lane1 := true, pairEn := true, state := 2, replays := [{ ctx := 0, rcd := { index := 0, words := [], frame := [] }, why := .own }], partner := some { state := 4, unit := 1, worst := 0, claim := 0 } } },
       by decide +kernel⟩,
   ⟨cmd 0 [0x69] { sv with dx := { (sv).dx with linkUp := true, lane0 := true, lane1 := true, pairEn := true, state := 2, partner := some { state := 4, unit := 1, worst := 0, claim := 0 } } },
       by decide +kernel⟩,
   ⟨cmd 0 [0x6A] sv, by decide +kernel⟩,
   ⟨cmd 0 [0x6B] sv, by decide +kernel⟩,
   ⟨cmd 0 [0x6B] { sv with dx := { (sv).dx with linkUp := true, lane0 := true, lane1 := true, pairEn := true, state := 4, committed := 77 } },
       by decide +kernel⟩,
   ⟨cmd 0 [0x6B] { sv with dx := { (sv).dx with linkUp := true, lane0 := true, lane1 := true, pairEn := true, state := 3 } },
       by decide +kernel⟩,
   ⟨cmd 0 [0x6B] { sv with dx := { (sv).dx with linkUp := true, lane0 := true, lane1 := true, pairEn := true, state := 5 } },
       by decide +kernel⟩,
   ⟨startedCmd 0 [0x6B] { sv with dx := { (sv).dx with resync := [0] } }, by decide +kernel⟩,
   ⟨cmd 0 [0x69] { sv with dx := { (sv).dx with linkUp := true, lane0 := true, lane1 := true, pairEn := true, state := 2, refFor := some 5, partner := some { state := 4, unit := 1, worst := 0, claim := 0 } } },
       by decide +kernel⟩⟩

/-- States that meet the hypotheses of `LinkPackets`. -/
theorem meets_LinkPackets :
    (∃ s : State, linkRuns s = false)
    ∧ (∃ s : State, linkRuns s = true ∧ s.dx.txNow = none ∧ s.dx.txWait = [] ∧ s.dx.silent = false ∧ heldBy s .duplex = false
        ∧ s.vx.safe = false)
    ∧ (∃ s : State, s.dx.txNow ≠ none ∧ s.dx.txWait = [] ∧ s.vx.safe = false)
    ∧ (∃ s : State, linkRuns s = true)
    ∧ (∃ s : State, s.dx.linkUp = false)
    ∧ (∃ s : State, s.dx.linkUp = true)
    ∧ (∃ s : State, s.dx.lane1 = false)
    ∧ (∃ s : State, linkRuns s = true ∧ s.dx.lane0 = true ∧ s.dx.lane1 = true)
    ∧ (∃ s : State, linkRuns s = true ∧ s.dx.lane0 = true ∧ s.dx.lane1 = true ∧ packetGood 1 [0xFFFF0012, 0] (gd 1 [0xFFFF0012, 0]) = true
        ∧ s.dx.state = 1 ∧ fld 0xFFFF0012#32 0 3 = 2)
    ∧ (∃ s : State, linkRuns s = true ∧ s.dx.lane0 = true ∧ s.dx.lane1 = true ∧ s.dx.state = 1 ∧ s.dx.unit = 1 ∧ s.vx.safe = false
        ∧ packetGood 1 [1, 0] (gd 1 [1, 0]) = true)
    ∧ (∃ s : State, linkRuns s = true ∧ s.dx.lane0 = true ∧ s.dx.lane1 = true ∧ s.dx.state = 4 ∧ s.dx.linkUp = false
        ∧ packetGood 1 [2, 0] (gd 1 [2, 0]) = true)
    ∧ (∃ s : State, linkRuns s = true ∧ s.dx.lane0 = true ∧ s.dx.lane1 = true ∧ s.dx.state ≠ 1 ∧ s.dx.linkUp = true
        ∧ packetGood 1 [2, 0] (gd 1 [2, 0]) = true ∧ s.dx.state = 4)
    ∧ (∃ s : State, linkRuns s = true ∧ s.dx.lane0 = true ∧ s.dx.lane1 = true ∧ s.dx.linkUp = true ∧ fld 2#32 0 2 = 2
        ∧ s.dx.noteCls.testBit 0 = true ∧ s.vx.safe = false ∧ packetGood 2 [2] (gd 2 [2]) = true ∧ s.dx.state = 4)
    ∧ (∃ s : State, linkRuns s = true ∧ s.dx.lane0 = true ∧ s.dx.lane1 = true ∧ s.dx.state ≠ 3 ∧ packetGood 2 [3] (gd 2 [3]) = true
        ∧ s.dx.state ≠ 4 ∧ s.dx.linkUp = true)
    ∧ (∃ s : State, linkRuns s = true ∧ s.dx.lane0 = true ∧ s.dx.lane1 = true ∧ s.dx.state = 2 ∧ fld 1#32 0 2 = 1
        ∧ packetGood 3 [1] (gd 3 [1]) = true)
    ∧ (∃ s : State, linkRuns s = true ∧ s.dx.lane0 = true ∧ s.dx.lane1 = true ∧ s.dx.state ≠ 2 ∧ packetGood 3 [1] (gd 3 [1]) = true
        ∧ packetGood 4 [0] (gd 4 [0]) = true ∧ packetGood 8 [1] (gd 8 [1]) = true)
    ∧ (∃ s : State, linkRuns s = true ∧ s.dx.lane0 = true ∧ s.dx.lane1 = true
        ∧ findRec s 5 9 = some { index := 9, words := [1, 2], frame := [] } ∧ (findRec s 5 9).map (·.bad) = some false
        ∧ fld (wd [5, 9] 10) 0 2 ≠ 1 ∧ packetGood 4 [5, 9] (gd 4 [5, 9]) = true ∧ s.dx.state = 2 ∧ s.dx.linkUp = true)
    ∧ (∃ s : State, linkRuns s = true ∧ s.dx.lane0 = true ∧ s.dx.lane1 = true ∧ findRec s 5 9 = none
        ∧ packetGood 4 [5, 9] (gd 4 [5, 9]) = true ∧ s.dx.state = 2 ∧ s.dx.linkUp = true)
    ∧ (∃ s : State, linkRuns s = true ∧ s.dx.lane0 = true ∧ s.dx.lane1 = true ∧ packetGood 5 [0x205, 9] (gd 5 [0x205, 9]) = true
        ∧ s.dx.linkUp = true ∧ s.dx.ref.map (·.selfOk) = some none)
    ∧ (∃ s : State, linkRuns s = true ∧ s.dx.lane0 = true ∧ s.dx.lane1 = true ∧ s.dx.ref.map (·.selfOk) = some (some true)
        ∧ packetGood 5 [0x205, 9] (gd 5 [0x205, 9]) = true ∧ packetGood 5 [5, 9] (gd 5 [5, 9]) = true ∧ s.dx.linkUp = true)
    ∧ (∃ s : State, linkRuns s = true ∧ s.dx.lane0 = true ∧ s.dx.lane1 = true ∧ s.dx.ref.map (·.selfOk) = some (some false)
        ∧ packetGood 5 [0x205, 9] (gd 5 [0x205, 9]) = true ∧ packetGood 5 [5, 9] (gd 5 [5, 9]) = true ∧ s.dx.linkUp = true ∧ s.dx.state = 4)
    ∧ (∃ s : State, linkRuns s = true ∧ s.dx.lane0 = true ∧ s.dx.lane1 = true ∧ isStandby s = true
        ∧ packetGood 7 [0x805, 7, 9] (gd 7 [0x805, 7, 9]) = true ∧ s.dx.linkUp = true ∧ fld 0x805#32 9 3 ≤ 4)
    ∧ (∃ s : State, linkRuns s = true ∧ s.dx.lane0 = true ∧ s.dx.lane1 = true ∧ isStandby s = false ∧ s.dx.state = 2
        ∧ packetGood 7 [0x805, 7, 9] (gd 7 [0x805, 7, 9]) = true ∧ packetGood 9 [] (gd 9 []) = true ∧ packetGood 8 [1] (gd 8 [1]) = true)
    ∧ (∃ s : State, linkRuns s = true ∧ s.dx.lane0 = true ∧ s.dx.lane1 = true ∧ isStandby s = true ∧ s.dx.awaitRec.contains 5 = true
        ∧ s.dx.replays = [] ∧ packetGood 9 [5, 9] (gd 9 [5, 9]) = true)
    ∧ (∃ s : State, s.dx.txNow = some ({ kind := 11, words := [7, 0] } : Packet) ∧ s.dx.txWait = []
        ∧ s.dx.commits = [({ kind := 10, words := [7, 4, 9] } : Packet)] ∧ s.dx.sendBad = false ∧ linkRuns s = true ∧ s.dx.linkUp = true
        ∧ s.dx.silent = false ∧ heldBy s .duplex = false ∧ s.vx.safe = false)
    ∧ (∃ s : State, linkRuns s = true ∧ s.dx.lane0 = true ∧ s.dx.lane1 = true ∧ s.dx.state = 2 ∧ fld 2#32 0 2 ≠ 1
        ∧ packetGood 3 [2] (gd 3 [2]) = true ∧ s.dx.linkUp = true)
    ∧ (∃ s : State, linkRuns s = true ∧ s.dx.lane0 = true ∧ s.dx.lane1 = true ∧ s.dx.linkUp = true ∧ s.dx.state = 2
        ∧ packetGood 4 [5, 9] (gd 4 [5, 9]) = true ∧ (findRec s 5 9).map (·.bad) = some true)
    ∧ (∃ s : State, linkRuns s = true ∧ s.dx.txNow = some ({ kind := 11, words := [7, 0] } : Packet) ∧ s.dx.silent = false
        ∧ heldBy s .duplex = false ∧ s.vx.safe = false)
    ∧ (∃ s : State, s.dx.txNow = none) :=
  ⟨⟨sv, by decide +kernel⟩,
   ⟨{ sv with dx := { (sv).dx with linkUp := true, lane0 := true, lane1 := true, pairEn := true, state := 4, committed := 70000, txSeq := 4095, hbCount := 65535, claim := 3 } },
       by decide +kernel⟩,
   ⟨{ sv with dx := { (sv).dx with linkUp := true, lane0 := true, lane1 := true, pairEn := true, txNow := some { kind := 10, words := [] }, commits := [] } },
       by decide +kernel⟩,
   ⟨{ sv with dx := { (sv).dx with pairEn := true } }, by decide +kernel⟩,
   ⟨{ sv with dx := { (sv).dx with lane0 := true, lane1 := true } }, by decide +kernel⟩,
   ⟨{ sv with dx := { (sv).dx with linkUp := true, lane0 := true, lane1 := true, pairEn := true } }, by decide +kernel⟩,
   ⟨{ sv with dx := { (sv).dx with pairEn := true, lane0 := true } }, by decide +kernel⟩,
   ⟨{ sv with dx := { (sv).dx with linkUp := true, lane0 := true, lane1 := true, pairEn := true } }, by decide +kernel⟩,
   ⟨{ sv with dx := { (sv).dx with pairEn := true, lane0 := true, lane1 := true, state := 1 } }, by decide +kernel⟩,
   ⟨{ sv with dx := { (sv).dx with pairEn := true, lane0 := true, lane1 := true, state := 1, unit := 1, highest := 7 } },
       by decide +kernel⟩,
   ⟨{ sv with dx := { (sv).dx with pairEn := true, lane0 := true, lane1 := true, state := 4 } }, by decide +kernel⟩,
   ⟨{ sv with dx := { (sv).dx with linkUp := true, lane0 := true, lane1 := true, pairEn := true, state := 4 } }, by decide +kernel⟩,
   ⟨{ sv with dx := { (sv).dx with linkUp := true, lane0 := true, lane1 := true, pairEn := true, state := 4, noteCls := 1 } },
       by decide +kernel⟩,
   ⟨{ sv with dx := { (sv).dx with linkUp := true, lane0 := true, lane1 := true, pairEn := true, state := 2 } }, by decide +kernel⟩,
   ⟨{ sv with dx := { (sv).dx with linkUp := true, lane0 := true, lane1 := true, pairEn := true, state := 2 } }, by decide +kernel⟩,
   ⟨{ sv with dx := { (sv).dx with linkUp := true, lane0 := true, lane1 := true, pairEn := true, state := 4 } }, by decide +kernel⟩,
   ⟨{ sv with dx := { (sv).dx with linkUp := true, lane0 := true, lane1 := true, pairEn := true, state := 2, recs := [(5, [{ index := 9, words := [1, 2], frame := [] }])] } },
       by decide +kernel⟩,
   ⟨{ sv with dx := { (sv).dx with linkUp := true, lane0 := true, lane1 := true, pairEn := true, state := 2 } }, by decide +kernel⟩,
   ⟨{ sv with dx := { (sv).dx with linkUp := true, lane0 := true, lane1 := true, pairEn := true, state := 4, ref := some { ctx := 5, index := 9, selfOk := none, answer := none } } },
       by decide +kernel⟩,
   ⟨{ sv with dx := { (sv).dx with linkUp := true, lane0 := true, lane1 := true, pairEn := true, state := 4, ref := some { ctx := 5, index := 9, selfOk := some true, answer := none } } },
       by decide +kernel⟩,
   ⟨{ sv with dx := { (sv).dx with linkUp := true, lane0 := true, lane1 := true, pairEn := true, state := 4, ref := some { ctx := 5, index := 9, selfOk := some false, answer := none } } },
       by decide +kernel⟩,
   ⟨{ sv with dx := { (sv).dx with linkUp := true, lane0 := true, lane1 := true, pairEn := true, state := 4 } }, by decide +kernel⟩,
   ⟨{ sv with dx := { (sv).dx with linkUp := true, lane0 := true, lane1 := true, pairEn := true, state := 2 } }, by decide +kernel⟩,
   ⟨{ sv with dx := { (sv).dx with linkUp := true, lane0 := true, lane1 := true, pairEn := true, state := 3, awaitRec := [5] } },
       by decide +kernel⟩,
   ⟨{ sv with dx := { (sv).dx with linkUp := true, lane0 := true, lane1 := true, pairEn := true, state := 2, txNow := some ({ kind := 11, words := [7, 0] } : Packet), commits := [({ kind := 10, words := [7, 4, 9] } : Packet)], txSeq := 4095 } },
       by decide +kernel⟩,
   ⟨{ sv with dx := { (sv).dx with linkUp := true, lane0 := true, lane1 := true, pairEn := true, state := 2, refFor := some 5 } },
       by decide +kernel⟩,
   ⟨{ sv with dx := { (sv).dx with linkUp := true, lane0 := true, lane1 := true, pairEn := true, state := 2, recs := [(5, [{ index := 9, words := [1, 2], frame := [], bad := true }])] } },
       by decide +kernel⟩,
   ⟨{ sv with dx := { (sv).dx with linkUp := true, lane0 := true, lane1 := true, pairEn := true, state := 2, txNow := some ({ kind := 11, words := [7, 0] } : Packet), epochNo := 5, hbCount := 65535 } },
       by decide +kernel⟩,
   ⟨sv, by decide +kernel⟩⟩

/-- States that meet the hypotheses of `Epochs`. -/
theorem meets_Epochs :
    (∃ s : State, linkRuns s = true ∧ s.dx.lane0 = true ∧ s.dx.lane1 = true ∧ s.dx.linkUp = false ∧ packetGood 11 [] (gd 11 []) = true)
    ∧ (∃ s : State, linkRuns s = true ∧ s.dx.lane0 = true ∧ s.dx.lane1 = true ∧ receiving s = false ∧ isStandby s = true
        ∧ s.dx.linkUp = true ∧ packetGood 11 [7, 0, 0x04030201] (gd 11 [7, 0, 0x04030201]) = true)
    ∧ (∃ s : State, linkRuns s = true ∧ s.dx.lane0 = true ∧ s.dx.lane1 = true ∧ isStandby s = true
        ∧ packetGood 11 [7, 31] (gd 11 [7, 31]) = true ∧ s.dx.linkUp = true
        ∧ s.dx.rxEpoch.map (fun e => (e.number, e.next, e.bad)) = some (7, 31, false))
    ∧ (∃ s : State, linkRuns s = true ∧ s.dx.lane0 = true ∧ s.dx.lane1 = true ∧ isStandby s = true
        ∧ packetGood 11 [7, 4] (gd 11 [7, 4]) = true ∧ s.dx.linkUp = true
        ∧ s.dx.rxEpoch.map (fun e => (e.number, e.next, e.bad)) = some (7, 3, false))
    ∧ (∃ s : State, linkRuns s = true ∧ s.dx.lane0 = true ∧ s.dx.lane1 = true ∧ isStandby s = false
        ∧ packetGood 10 [0, 0, 0] (gd 10 [0, 0, 0]) = true)
    ∧ (∃ s : State, linkRuns s = true ∧ s.dx.lane0 = true ∧ s.dx.lane1 = true ∧ isStandby s = true ∧ s.dx.bufBad = false
        ∧ crc32c [1, 2, 3, 4] ≠ 0 ∧ packetGood 10 [7, 4, 0] (gd 10 [7, 4, 0]) = true ∧ s.dx.linkUp = true
        ∧ s.dx.rxEpoch.map (·.bad) = some false)
    ∧ (∃ s : State, linkRuns s = true ∧ s.dx.lane0 = true ∧ s.dx.lane1 = true ∧ isStandby s = true ∧ s.dx.bufBad = false
        ∧ crc32c [1, 2, 3, 4] = 0x29308CF4 ∧ packetGood 10 [7, 4, 0x29308CF4] (gd 10 [7, 4, 0x29308CF4]) = true ∧ s.dx.linkUp = true
        ∧ s.dx.rxEpoch.map (fun e => (e.number, e.next, e.bad)) = some (7, 1, false))
    ∧ (∃ s : State, (passCycles 0 s).dx.state = 2 ∧ (passCycles 0 s).dx.linkUp = true ∧ (passCycles 0 s).pw.awake = true
        ∧ (passCycles 0 s).dx.appLen = 0)
    ∧ (∃ s : State, isStandby (passCycles 0 s) = true ∧ receiving (passCycles 0 s) = true)
    ∧ (∃ s : State, (passCycles 5 s).dx.state = 0)
    ∧ (∃ s : State, linkRuns s = true ∧ s.dx.lane0 = true ∧ s.dx.lane1 = true ∧ s.dx.linkUp = true ∧ isStandby s = true
        ∧ receiving s = true ∧ packetGood 11 [7, 0] (gd 11 [7, 0]) = true ∧ fld (wd [7, 0] 1) 0 5 = 0)
    ∧ (∃ s : State, linkRuns s = true ∧ s.dx.lane0 = true ∧ s.dx.lane1 = true ∧ packetGood 11 [7, 3] ng = false ∧ s.dx.linkUp = true
        ∧ isStandby s = true ∧ s.dx.rxEpoch.map (·.bad) = some false)
    ∧ (∃ s : State, (passCycles 5 s).dx.state = 2 ∧ (passCycles 5 s).dx.linkUp = false)
    ∧ (∃ s : State, linkRuns s = true ∧ s.dx.lane0 = true ∧ s.dx.lane1 = true ∧ s.dx.linkUp = true ∧ isStandby s = true
        ∧ fld (wd [7, 2] 1) 0 5 ≠ 0 ∧ s.dx.rxEpoch.map (fun e => (e.number, e.bad)) = some (6, true) ∧ 6 ≠ unnamed
        ∧ packetGood 11 [7, 2] (gd 11 [7, 2]) = true)
    ∧ (∃ s : State, (passCycles 0 s).dx.state = 2 ∧ (passCycles 0 s).dx.linkUp = true ∧ (passCycles 0 s).pw.awake = true
        ∧ (passCycles 0 s).dx.appLen = 0 ∧ (passCycles 0 s).dx.pairEn = true ∧ (passCycles 0 s).dx.silent = false
        ∧ (passCycles 0 s).vx.safe = false ∧ heldBy (passCycles 0 s) .duplex = false ∧ (passCycles 0 s).dx.txNow = none
        ∧ (passCycles 0 s).dx.txWait = [] ∧ (∀ c : Fin 512, ((passCycles 0 s).ctx c.val).bad = [])) :=
  ⟨⟨{ sv with dx := { (sv).dx with pairEn := true, lane0 := true, lane1 := true, state := 4 } }, by decide +kernel⟩,
   ⟨{ sv with dx := { (sv).dx with linkUp := true, lane0 := true, lane1 := true, pairEn := true, state := 4 } }, by decide +kernel⟩,
   ⟨{ sv with dx := { (sv).dx with linkUp := true, lane0 := true, lane1 := true, pairEn := true, state := 4, rxEpoch := some { number := 7, next := 31, bytes := [1], bad := false } } },
       by decide +kernel⟩,
   ⟨{ sv with dx := { (sv).dx with linkUp := true, lane0 := true, lane1 := true, pairEn := true, state := 4, rxEpoch := some { number := 7, next := 3, bytes := [1], bad := false } } },
       by decide +kernel⟩,
   ⟨{ sv with dx := { (sv).dx with linkUp := true, lane0 := true, lane1 := true, pairEn := true, state := 2 } }, by decide +kernel⟩,
   ⟨{ sv with dx := { (sv).dx with linkUp := true, lane0 := true, lane1 := true, pairEn := true, state := 4, rxEpoch := some { number := 7, next := 1, bytes := [1, 2, 3, 4, 5], bad := false } } },
       by decide +kernel⟩,
   ⟨{ sv with dx := { (sv).dx with linkUp := true, lane0 := true, lane1 := true, pairEn := true, state := 4, rxEpoch := some { number := 7, next := 1, bytes := [1, 2, 3, 4, 5], bad := false } } },
       by decide +kernel⟩,
   ⟨{ sv with dx := { (sv).dx with linkUp := true, lane0 := true, lane1 := true, pairEn := true, state := 2, epochNo := 4294967295 } },
       by decide +kernel⟩,
   ⟨{ sv with dx := { (sv).dx with linkUp := true, lane0 := true, lane1 := true, pairEn := true, state := 4, rxEpoch := some { number := 7, next := 1, bytes := [], bad := false } } },
       by decide +kernel⟩,
   ⟨sv, by decide +kernel⟩,
   ⟨{ sv with dx := { (sv).dx with linkUp := true, lane0 := true, lane1 := true, pairEn := true, state := 4, rxEpoch := some { number := 6, next := 3, bytes := [1], bad := false } } },
       by decide +kernel⟩,
   ⟨{ sv with dx := { (sv).dx with linkUp := true, lane0 := true, lane1 := true, pairEn := true, state := 4, rxEpoch := some { number := 7, next := 3, bytes := [1], bad := false } } },
       by decide +kernel⟩,
   ⟨{ sv with dx := { (sv).dx with pairEn := true, state := 2 } }, by decide +kernel⟩,
   ⟨{ sv with dx := { (sv).dx with linkUp := true, lane0 := true, lane1 := true, pairEn := true, state := 4, rxEpoch := some { number := 6, next := 3, bytes := [1], bad := true } } },
       by decide +kernel⟩,
   ⟨{ sv with dx := { (sv).dx with linkUp := true, lane0 := true, lane1 := true, pairEn := true, state := 2, epochNo := 6, committed := 9 } },
       by decide +kernel⟩⟩

/-- States that meet the hypotheses of `DuplexTimersAndSwap`. -/
theorem meets_DuplexTimersAndSwap :
    (∃ s : State, s.dx.state ≠ 1 ∧ s.dx.state = 0 ∧ s.dx.ref = none ∧ s.dx.pend = [])
    ∧ (∃ s : State, s.dx.state = 1 ∧ s.dx.startRun = true)
    ∧ (∃ s : State, s.dx.partner = none ∧ s.vx.safe = false ∧ s.dx.state = 1 ∧ s.dx.startRun = true ∧ s.dx.pairEn = true)
    ∧ (∃ s : State, s.dx.state = 4 ∧ s.dx.linkUp = true)
    ∧ (∃ s : State, s.dx.state = 4 ∧ s.dx.linkUp = false ∧ s.vx.safe = false)
    ∧ (∃ s : State, mget [] s.dx.pend 511 ≠ [] ∧ s.dx.state = 4)
    ∧ (∃ s : State, s.dx.ref.map (·.answer) = some (some true))
    ∧ (∃ s : State, s.dx.ref.map (·.answer) = some none)
    ∧ (∃ s : State, linkRuns s = true ∧ s.dx.lane0 = true ∧ s.dx.lane1 = true ∧ s.dx.divergent = [] ∧ s.vx.safe = false
        ∧ packetGood 6 [0, 5, 1] (gd 6 [0, 5, 1]) = true ∧ s.dx.state = 4 ∧ s.dx.linkUp = true)
    ∧ (∃ s : State, linkRuns s = true ∧ s.dx.lane0 = true ∧ s.dx.lane1 = true ∧ s.dx.divergent ≠ [] ∧ mySwap s = none
        ∧ packetGood 6 [0, 5, 1] (gd 6 [0, 5, 1]) = true ∧ packetGood 6 [1, 5, 1] (gd 6 [1, 5, 1]) = true
        ∧ packetGood 6 [2, 5, 1] (gd 6 [2, 5, 1]) = true)
    ∧ (∃ s : State, linkRuns s = true ∧ s.dx.lane0 = true ∧ s.dx.lane1 = true ∧ mySwap s ≠ none
        ∧ packetGood 6 [1, 5, 1] (gd 6 [1, 5, 1]) = true ∧ packetGood 6 [2, 5, 1] (gd 6 [2, 5, 1]) = true)
    ∧ (∃ s : State, mySwap s ≠ none)
    ∧ (∃ s : State, s.dx.swap.map (·.passed) = some true)
    ∧ (∃ s : State, (passCycles 0 s).dx.swap.map (·.passed) = some true)
    ∧ (∃ s : State, (passCycles 0 s).dx.swap.map (fun w => (w.acked, w.passed, w.mine)) = some (true, false, true)
        ∧ (passCycles 0 s).dx.state = 2)
    ∧ (∃ s : State, (passCycles 0 s).dx.state = 4 ∧ (passCycles 0 s).vx.safe = false ∧ (passCycles 0 s).dx.pairEn = true
        ∧ receiving (passCycles 0 s) = false
        ∧ (passCycles 0 s).dx.swap.map (fun w => (w.mine, w.acked, w.passed)) = some (false, true, false))
    ∧ (∃ s : State, s.dx.state = 1 ∧ s.dx.startRun = true ∧ s.dx.heard = true)
    ∧ (∃ s : State, s.dx.ref = none) :=
  ⟨⟨sv, by decide +kernel⟩,
   ⟨{ sv with dx := { (sv).dx with state := 1, startRun := true, pairEn := true, partner := some { state := 4, unit := 1, worst := 0, claim := 0 } } },
       by decide +kernel⟩,
   ⟨{ sv with dx := { (sv).dx with state := 1, startRun := true, pairEn := true } }, by decide +kernel⟩,
   ⟨{ sv with dx := { (sv).dx with state := 4, linkUp := true } }, by decide +kernel⟩,
   ⟨{ sv with dx := { (sv).dx with state := 4, pairEn := true } }, by decide +kernel⟩,
   ⟨{ sv with dx := { (sv).dx with state := 4, pairEn := true, pend := [(511, [{ index := 9, frame := [1] }])] } }, by decide +kernel⟩,
   ⟨{ sv with dx := { (sv).dx with state := 4, ref := some { ctx := 5, index := 9, selfOk := none, answer := some true } } },
       by decide +kernel⟩,
   ⟨{ sv with dx := { (sv).dx with state := 4, ref := some { ctx := 5, index := 9, selfOk := none, answer := none } } }, by decide +kernel⟩,
   ⟨{ sv with dx := { (sv).dx with linkUp := true, lane0 := true, lane1 := true, pairEn := true, state := 4 } }, by decide +kernel⟩,
   ⟨{ sv with dx := { (sv).dx with linkUp := true, lane0 := true, lane1 := true, pairEn := true, state := 4, divergent := [3] } },
       by decide +kernel⟩,
   ⟨startedCmd 0 [0x69] { sv with dx := { (sv).dx with linkUp := true, lane0 := true, lane1 := true, pairEn := true, state := 2, swap := some { mine := true, instant := 0, acked := false, passed := false, ring := some 0 } } },
       by decide +kernel⟩,
   ⟨startedCmd 0 [0x69] { sv with dx := { (sv).dx with linkUp := true, lane0 := true, lane1 := true, pairEn := true, state := 2, swap := some { mine := true, instant := 0, acked := true, passed := false, ring := some 0 } } },
       by decide +kernel⟩,
   ⟨startedCmd 0 [0x69] { sv with dx := { (sv).dx with linkUp := true, lane0 := true, lane1 := true, pairEn := true, state := 4, swap := some { mine := true, instant := 0, acked := true, passed := true, ring := some 0 } } },
       by decide +kernel⟩,
   ⟨{ sv with dx := { (sv).dx with linkUp := true, lane0 := true, lane1 := true, pairEn := true, state := 4, swap := some { mine := true, instant := 0, acked := true, passed := true, ring := some 0 } } },
       by decide +kernel⟩,
   ⟨{ sv with dx := { (sv).dx with linkUp := true, lane0 := true, lane1 := true, pairEn := true, state := 2, swap := some { mine := true, instant := 0, acked := true, passed := false, ring := some 0 } } },
       by decide +kernel⟩,
   ⟨{ sv with dx := { (sv).dx with linkUp := true, lane0 := true, lane1 := true, pairEn := true, state := 4, swap := some { mine := false, instant := 0, acked := true, passed := false, ring := none } } },
       by decide +kernel⟩,
   ⟨{ sv with dx := { (sv).dx with state := 1, startRun := true, pairEn := true, heard := true } }, by decide +kernel⟩,
   ⟨{ sv with dx := { (sv).dx with state := 2, refFor := some 7 } }, by decide +kernel⟩⟩

/-- States that meet the hypotheses of `TangentCommands`. -/
theorem meets_TangentCommands :
    (∃ s : State, ready s 0 = some (P s 0) ∧ (s.cr 0).cmd.bind (·.comp) = none ∧ sharedCheck s (P s 0) = none ∧ pOpcode (P s 0) = 0x58
        ∧ fld (wd (P s 0) 1) 9 23 ≠ 0)
    ∧ (∃ s : State, ready s 0 = some (P s 0) ∧ (s.cr 0).cmd.bind (·.comp) = none ∧ sharedCheck s (P s 0) = none ∧ pOpcode (P s 0) = 0x58
        ∧ (s.cr 0).serial = false)
    ∧ (∃ s : State, ready s 0 = some (P s 0) ∧ (s.cr 0).cmd.bind (·.comp) = none ∧ sharedCheck s (P s 0) = none ∧ pOpcode (P s 0) = 0x58
        ∧ (s.cr 0).serial = true ∧ addrOk s 0 0 0 96 = true ∧ ctxBad s 511 (wd (wordsOf (stgRead s 0 96) 24)) = true)
    ∧ (∃ s : State, ready s 0 = some (P s 0) ∧ (s.cr 0).cmd.bind (·.comp) = none ∧ sharedCheck s (P s 0) = none ∧ pOpcode (P s 0) = 0x58
        ∧ (s.cr 0).serial = true ∧ addrOk s 0 0 0 96 = true ∧ ctxBad s 5 (wd (wordsOf (stgRead s 0 96) 24)) = false
        ∧ (s.ctx 5).state = .enabled)
    ∧ (∃ s : State, ready s 0 = some (P s 0) ∧ (s.cr 0).cmd.bind (·.comp) = none ∧ sharedCheck s (P s 0) = none ∧ pOpcode (P s 0) = 0x58
        ∧ (s.cr 0).serial = true ∧ addrOk s 0 0 0 96 = true ∧ ctxBad s 5 (wd (wordsOf (stgRead s 0 96) 24)) = false
        ∧ (s.ctx 5).state ≠ .enabled ∧ (s.ctx 5).state ≠ .disabling)
    ∧ (∃ s : State, ready s 0 = some (P s 0) ∧ (s.cr 0).cmd.bind (·.comp) = none ∧ sharedCheck s (P s 0) = none ∧ pOpcode (P s 0) = 0x59
        ∧ isStandby s = true ∧ fld (wd (P s 0) 2) 0 2 ≠ 3)
    ∧ (∃ s : State, ready s 0 = some (P s 0) ∧ (s.cr 0).cmd.bind (·.comp) = none ∧ sharedCheck s (P s 0) = none ∧ pOpcode (P s 0) = 0x5A
        ∧ isStandby s = true)
    ∧ (∃ s : State, ready s 0 = some (P s 0) ∧ (s.cr 0).cmd.bind (·.comp) = none ∧ sharedCheck s (P s 0) = none ∧ pOpcode (P s 0) = 0x59
        ∧ s.dx.state = 2 ∧ s.dx.linkUp = true ∧ ctxPeriod (s.ctx 5) ≠ 0)
    ∧ (∃ s : State, ready s 0 = some (P s 0) ∧ (s.cr 0).cmd.bind (·.comp) = none ∧ sharedCheck s (P s 0) = none ∧ pOpcode (P s 0) = 0x59
        ∧ s.dx.state = 0)
    ∧ (∃ s : State, ready s 0 = some (P s 0) ∧ (s.cr 0).cmd.bind (·.comp) = none ∧ sharedCheck s (P s 0) = none ∧ pOpcode (P s 0) = 0x59
        ∧ s.dx.state = 0 ∧ ctlStatus s 5 0 0 = eParam ∧ doubleBad (s.ctx 5) = none)
    ∧ (∃ s : State, ready s 0 = some (P s 0) ∧ (s.cr 0).cmd.bind (·.comp) = none ∧ sharedCheck s (P s 0) = none ∧ pOpcode (P s 0) = 0x59
        ∧ ctlStatus s 5 0 0 = stOk ∧ doubleBad (s.ctx 5) = none ∧ s.dx.state = 0)
    ∧ (∃ s : State, ready s 0 = some (P s 0) ∧ (s.cr 0).cmd.bind (·.comp) = none ∧ sharedCheck s (P s 0) = none ∧ pOpcode (P s 0) = 0x5A
        ∧ s.dx.state = 0 ∧ ctlStatus s 5 1 0 ≠ stOk)
    ∧ (∃ s : State, ready s 0 = some (P s 0) ∧ (s.cr 0).cmd.bind (·.comp) = none ∧ sharedCheck s (P s 0) = none ∧ pOpcode (P s 0) = 0x5A
        ∧ (s.ctx 5).state = .enabled ∧ (s.ctx 5).frame = none ∧ s.dx.state = 0)
    ∧ (∃ s : State, ready s 0 = some (P s 0) ∧ (s.cr 0).cmd.bind (·.comp) = none ∧ sharedCheck s (P s 0) = none ∧ pOpcode (P s 0) = 0x5A
        ∧ (s.ctx 5).frame ≠ none ∧ bitOf (wd (P s 0) 0) 8 = true ∧ s.dx.state = 0)
    ∧ (∃ s : State, ready s 0 = some (P s 0) ∧ (s.cr 0).cmd.bind (·.comp) = none ∧ sharedCheck s (P s 0) = none ∧ pOpcode (P s 0) = 0x5A
        ∧ (s.ctx 5).frame ≠ none ∧ bitOf (wd (P s 0) 0) 8 = false ∧ s.dx.state = 0)
    ∧ (∃ s : State, ready s 0 = some (P s 0) ∧ (s.cr 0).cmd.bind (·.comp) = none ∧ sharedCheck s (P s 0) = none ∧ pOpcode (P s 0) = 0x5B
        ∧ fld (wd (P s 0) 2) 1 2 = 3)
    ∧ (∃ s : State, ready s 0 = some (P s 0) ∧ (s.cr 0).cmd.bind (·.comp) = none ∧ sharedCheck s (P s 0) = none ∧ pOpcode (P s 0) = 0x5B
        ∧ (s.ctx 5).state ≠ .enabled ∧ s.dx.state = 0)
    ∧ (∃ s : State, ready s 0 = some (P s 0) ∧ (s.cr 0).cmd.bind (·.comp) = none ∧ sharedCheck s (P s 0) = none ∧ pOpcode (P s 0) = 0x5B
        ∧ (s.ctx 5).state = .enabled ∧ s.dx.state = 0)
    ∧ (∃ s : State, ready s 0 = some (P s 0) ∧ (s.cr 0).cmd.bind (·.comp) = none ∧ sharedCheck s (P s 0) = none ∧ pOpcode (P s 0) = 0x5C
        ∧ tgfOk (wd (P s 0) 2) = false)
    ∧ (∃ s : State, ready s 0 = some (P s 0) ∧ (s.cr 0).cmd.bind (·.comp) = none ∧ sharedCheck s (P s 0) = none ∧ pOpcode (P s 0) = 0x5C
        ∧ tgfOk (wd (P s 0) 2) = true ∧ ctlStatus s 5 3 (wd (P s 0) 2) = eParam ∧ doubleBad (s.ctx 5) = none)
    ∧ (∃ s : State, ready s 0 = some (P s 0) ∧ (s.cr 0).cmd.bind (·.comp) = none ∧ sharedCheck s (P s 0) = none ∧ pOpcode (P s 0) = 0x5C
        ∧ ctlStatus s 5 3 (wd (P s 0) 2) = stOk ∧ doubleBad (s.ctx 5) = none ∧ s.dx.state = 0)
    ∧ (∃ s : State, ready s 0 = some (P s 0) ∧ (s.cr 0).cmd.bind (·.comp) = none ∧ sharedCheck s (P s 0) = none ∧ pOpcode (P s 0) = 0x5D
        ∧ addrOk s 0 3713 0 128 = false)
    ∧ (∃ s : State, ready s 0 = some (P s 0) ∧ (s.cr 0).cmd.bind (·.comp) = none ∧ sharedCheck s (P s 0) = none ∧ pOpcode (P s 0) = 0x5D
        ∧ addrOk s 0 0x1000 0 128 = true ∧ (s.ctx 5).state = .unconfigured)
    ∧ (∃ s : State, ready s 0 = some (P s 0) ∧ (s.cr 0).cmd.bind (·.comp) = none ∧ sharedCheck s (P s 0) = none ∧ pOpcode (P s 0) = 0x5D
        ∧ (s.cr 0).serial = false ∧ doubleBad (s.ctx 5) = none)
    ∧ (∃ s : State, ready s 0 = some (P s 0) ∧ (s.cr 0).cmd.bind (·.comp) = none ∧ sharedCheck s (P s 0) = none ∧ pOpcode (P s 0) = 0x5D
        ∧ (s.cr 0).serial = false ∧ doubleBad (s.ctx 5) ≠ none)
    ∧ (∃ s : State, ready s 0 = some (P s 0) ∧ (s.cr 0).cmd.bind (·.comp) = none ∧ sharedCheck s (P s 0) = none ∧ pOpcode (P s 0) = 0x59
        ∧ s.dx.state = 0 ∧ fld (wd (P s 0) 2) 0 2 ≠ 3 ∧ (s.ctx 5).state = .disabled ∧ readsBad [0, 2, 22] (s.ctx 5) = true)
    ∧ (∃ s : State, dmaWaits s 0 = true ∧ hostIdle s = true ∧ slotBad s .hostDma = none ∧ fld (pkt s 0 0) 0 8 = 0x58
        ∧ fld (pkt s 0 1) 0 9 = 511 ∧ ctxBad s 511 (wd (wordsOf (bytesOfWords (List.replicate 24 0)) 24)) = true)
    ∧ (∃ s : State, dmaWaits s 0 = true ∧ hostIdle s = true ∧ slotBad s .hostDma = none ∧ fld (pkt s 0 0) 0 8 = 0x58
        ∧ ctxBad s 5 (wd (wordsOf (bytesOfWords ([0, 100, 0x12001, 0, 0, 8] ++ List.replicate 18 0)) 24)) = false
        ∧ (s.ctx 5).state = .disabling)
    ∧ (∃ s : State, dmaWaits s 0 = true ∧ hostIdle s = true ∧ slotBad s .hostDma = none ∧ fld (pkt s 0 0) 0 8 = 0x58
        ∧ ctxBad s 5 (wd (wordsOf (bytesOfWords ([0, 100, 0x12001, 0, 0, 8] ++ List.replicate 18 0)) 24)) = false
        ∧ (s.ctx 5).state ≠ .enabled ∧ (s.ctx 5).state ≠ .disabling) :=
  ⟨⟨cmd 0 [0x58, 0x200] sv, by decide +kernel⟩,
   ⟨cmd 0 [0x58, 511, 0x1000] sv, by decide +kernel⟩,
   ⟨cmdS 0 [0x58, 511] sv, by decide +kernel⟩,
   ⟨stgWrite (cmdS 0 [0x58, 5] ((withQ 9 5 sv).modCtx 5 fun x => { x with words := [(1, 100), (2, 0x12001), (5, 8)], state := .enabled }))
       0 (bytesOfWords [0, 100, 0x12001, 0, 0, 8]), by decide +kernel⟩,
   ⟨stgWrite (cmdS 0 [0x58, 5] ((withQ 9 5 sv).modCtx 5 fun x =>
       { x with words := [(1, 100), (2, 0x12001), (5, 8)], state := .failed, valid := true, latch := 3 })) 0 (bytesOfWords [0, 100,
       0x12001, 0, 0, 8]), by decide +kernel⟩,
   ⟨cmd 0 [0x59, 5] { ((withQ 9 5 sv).modCtx 5 fun x => { x with words := [(1, 100), (2, 0x12001), (5, 8)], state := .disabled }) with dx := { (((withQ 9 5 sv).modCtx 5 fun x => { x with words := [(1, 100), (2, 0x12001), (5, 8)], state := .disabled })).dx with state := 4 } },
       by decide +kernel⟩,
   ⟨cmd 0 [0x5A, 5] { ((withQ 9 5 sv).modCtx 5 fun x => { x with words := [(1, 100), (2, 0x12001), (5, 8)], state := .disabled }) with dx := { (((withQ 9 5 sv).modCtx 5 fun x => { x with words := [(1, 100), (2, 0x12001), (5, 8)], state := .disabled })).dx with state := 4 } },
       by decide +kernel⟩,
   ⟨cmd 0 [0x59, 5, 2] { ((withQ 9 5 sv).modCtx 5 fun x => { x with words := [(1, 100), (2, 0x12001), (5, 8)], state := .disabled }) with dx := { (((withQ 9 5 sv).modCtx 5 fun x => { x with words := [(1, 100), (2, 0x12001), (5, 8)], state := .disabled })).dx with linkUp := true, lane0 := true, lane1 := true, pairEn := true, state := 2, ctlSent := 65535 } },
       by decide +kernel⟩,
   ⟨cmd 0 [0x59, 5, 3] sv, by decide +kernel⟩,
   ⟨cmd 0 [0x59, 5, 2] (sv.modCtx 5 fun x => { x with words := [(1, 100), (2, 0x12001), (5, 8)], state := .disabled }), by decide +kernel⟩,
   ⟨cmd 0 [0x59, 5, 2] ((withQ 9 5 sv).modCtx 5 fun x => { x with words := [(1, 100), (2, 0x12001), (5, 8)], state := .disabled }),
       by decide +kernel⟩,
   ⟨cmd 0 [0x5A, 5] ((withQ 9 5 sv).modCtx 5 fun x => { x with words := [(1, 100), (2, 0x12001), (5, 8)], state := .disabled }),
       by decide +kernel⟩,
   ⟨cmd 0 [0x5A, 5] ((withQ 9 5 sv).modCtx 5 fun x => { x with words := [(1, 100), (2, 0x12001), (5, 8)], state := .enabled }),
       by decide +kernel⟩,
   ⟨cmd 0 [0x15A, 5] ((withQ 9 5 sv).modCtx 5 fun x =>
       { x with words := [(1, 100), (2, 0x12001), (5, 8)], state := .enabled, frame := some (tgFrame (fun _ => 0) 5 0 0) }),
       by decide +kernel⟩,
   ⟨cmd 0 [0x5A, 5] ((withQ 9 5 sv).modCtx 5 fun x =>
       { x with words := [(1, 100), (2, 0x12001), (5, 8)], state := .enabled, frame := some (tgFrame (fun _ => 0) 5 0 0) }),
       by decide +kernel⟩,
   ⟨cmd 0 [0x5B, 5, 6] sv, by decide +kernel⟩,
   ⟨cmd 0 [0x5B, 5, 4] sv, by decide +kernel⟩,
   ⟨cmd 0 [0x5B, 5, 5] ((withQ 9 5 sv).modCtx 5 fun x => { x with words := [(1, 100), (2, 0x12001), (5, 8)], state := .enabled }),
       by decide +kernel⟩,
   ⟨cmd 0 [0x5C, 5, 0x20000000] sv, by decide +kernel⟩,
   ⟨cmd 0 [0x5C, 5, 1] ((withQ 9 5 sv).modCtx 5 fun x => { x with words := [(1, 100), (2, 0x12001), (5, 8)], state := .disabled }),
       by decide +kernel⟩,
   ⟨cmd 0 [0x5C, 5, 0] ((withQ 9 5 sv).modCtx 5 fun x => { x with words := [(1, 100), (2, 0x12001), (5, 8)], state := .disabled }),
       by decide +kernel⟩,
   ⟨cmdS 0 [0x5D, 5, 3713] ((withQ 9 5 sv).modCtx 5 fun x => { x with words := [(1, 100), (2, 0x12001), (5, 8)], state := .disabled }),
       by decide +kernel⟩,
   ⟨cmd 0 [0x5D, 5, 0x1000] sv, by decide +kernel⟩,
   ⟨cmd 0 [0x5D, 5, 0x1000, 1] ((withQ 9 5 sv).modCtx 5 fun x => { x with words := [(1, 100), (2, 0x12001), (5, 8)], state := .disabled }),
       by decide +kernel⟩,
   ⟨cmd 0 [0x5D, 5, 0x1000, 1] ((withQ 9 5 sv).modCtx 5 fun x =>
       { x with words := [(1, 100), (2, 0x12001), (5, 8)], state := .disabled, bad := [(3, 2)] }), by decide +kernel⟩,
   ⟨cmd 0 [0x59, 5, 2] ((withQ 9 5 sv).modCtx 5 fun x =>
       { x with words := [(1, 100), (2, 0x12001), (5, 8)], state := .disabled, bad := [(22, 2)] }), by decide +kernel⟩,
   ⟨((startedCmd 0 [0x58, 511] (sv)).modCmd 0 fun d => { d with dma := true, aux := [] }), by decide +kernel⟩,
   ⟨((startedCmd 0 [0x58, 5] (((withQ 9 5 sv).modCtx 5 fun x =>
       { x with words := [(1, 100), (2, 0x12001), (5, 8)], state := .disabling }))).modCmd 0 fun d => { d with dma := true, aux := [] }),
       by decide +kernel⟩,
   ⟨((startedCmd 0 [0x58, 5] (((withQ 9 5 sv).modCtx 5 fun x =>
       { x with words := [(1, 100), (2, 0x12001), (5, 8)], state := .failed, valid := true, latch := 3 }))).modCmd 0 fun d =>
       { d with dma := true, aux := [] }), by decide +kernel⟩⟩

/-- States that meet the hypotheses of `TangentWork`. -/
theorem meets_TangentWork :
    (∃ s : State, ctxPeriod ((passCycles 3 s).ctx 511) = 0)
    ∧ (∃ s : State, ctxPeriod ((passCycles 3 s).ctx 5) ≠ 0 ∧ timeRuns (passCycles 3 s) = true ∧ (passCycles 3 s).dx.held = []
        ∧ ((passCycles 3 s).ctx 5).state = .unconfigured)
    ∧ (∃ s : State, timeRuns (passCycles 3 s) = true ∧ ((passCycles 3 s).ctx 5).state = .enabled
        ∧ newInstant ((passCycles 3 s).ctx 5) (passCycles 3 s).tm.now.toNat (indexAt ((passCycles 3 s).ctx 5) (passCycles 3
        s).tm.now.toNat) = true ∧ tgRuns (passCycles 3 s) = true ∧ ((passCycles 3 s).ctx 5).pendK = none)
    ∧ (∃ s : State, (pendingAt ((passCycles 0 s).ctx 5) (passCycles 0 s).tm.now.toNat).map (·.1) = some 4
        ∧ ((passCycles 0 s).ctx 5).pendFroz = false
        ∧ newInstant ((passCycles 0 s).ctx 5) (passCycles 0 s).tm.now.toNat (indexAt ((passCycles 0 s).ctx 5) (passCycles 0
        s).tm.now.toNat) = true ∧ timeRuns (passCycles 0 s) = true ∧ tgRuns (passCycles 0 s) = true
        ∧ ((passCycles 0 s).ctx 5).state = .enabled)
    ∧ (∃ s : State, ((passCycles 0 s).ctx 5).state = .disabled
        ∧ newInstant ((passCycles 0 s).ctx 5) (passCycles 0 s).tm.now.toNat (indexAt ((passCycles 0 s).ctx 5) (passCycles 0
        s).tm.now.toNat) = true ∧ timeRuns (passCycles 0 s) = true)
    ∧ (∃ s : State, firstDue (dueList s) = none)
    ∧ (∃ s : State, tgRuns s = true ∧ nextReplay s = none ∧ firstDue (dueList s) = some (5000000, 5, 5, 5000000) ∧ s.dx.held = []
        ∧ doubleBad (s.ctx 5) ≠ none)
    ∧ (∃ s : State, tgRuns s = true ∧ nextReplay s = none ∧ firstDue (dueList s) = some (5000000, 5, 5, 5000000) ∧ s.dx.held = []
        ∧ (s.ctx 5).bad = [] ∧ s.dx.state = 0)
    ∧ (∃ s : State, s.tg.emitQ = [])
    ∧ (∃ s : State, tgRuns s = true ∧ s.tg.emitQ = 5 :: [6] ∧ slotBad s .tangent = none ∧ doubleBad (s.ctx 5) = none
        ∧ (s.ctx 5).frame ≠ none ∧ (s.queue 9).consumer = 5 ∧ allocOk s 9 true = true ∧ (s.queue 9).state ≠ .broken)
    ∧ (∃ s : State, tgRuns s = true ∧ s.tg.emitQ = 5 :: [6] ∧ slotBad s .tangent = none ∧ doubleBad (s.ctx 5) = none
        ∧ (s.ctx 5).frame ≠ none ∧ (s.queue 9).consumer = 5 ∧ allocOk s 9 true = false)
    ∧ (∃ s : State, s.tg.spCells = none ∧ spTurn s = none)
    ∧ (∃ s : State, tgRuns s = true ∧ s.tg.emitQ = [] ∧ s.tg.spCells = some [100, 101] ∧ slotBad s .tangent = none)
    ∧ (∃ s : State, tgRuns s = true ∧ s.tg.emitQ = [] ∧ s.tg.spCells = none ∧ spTurn s = some 5 ∧ doubleBad (s.ctx 5) = none
        ∧ (headItem s 8).map itemId = some 100 ∧ fld ((s.ctx 5).word 21) 0 8 = 8 ∧ s.pool.linkBad = [] ∧ slotBad s .tangent = none)
    ∧ (∃ s : State, nextReplay s = none)
    ∧ (∃ s : State, tgRuns s = true ∧ nextReplay s ≠ none ∧ doubleBad (s.ctx 5) = none)
    ∧ (∃ s : State, tgRuns s = true ∧ nextReplay s ≠ none ∧ doubleBad (s.ctx 5) = none)
    ∧ (∃ s : State, tgRuns s = true ∧ nextReplay s ≠ none ∧ doubleBad (s.ctx 5) = none)
    ∧ (∃ s : State, tgRuns s = true ∧ nextReplay s ≠ none ∧ doubleBad (s.ctx 5) = none)
    ∧ (∃ s : State, ctxPeriod ((passCycles 0 s).ctx 5) ≠ 0 ∧ timeRuns (passCycles 0 s) = true ∧ (passCycles 0 s).dx.held = []
        ∧ ((passCycles 0 s).ctx 5).state = .enabled
        ∧ newInstant ((passCycles 0 s).ctx 5) (passCycles 0 s).tm.now.toNat (indexAt ((passCycles 0 s).ctx 5) (passCycles 0
        s).tm.now.toNat) = true ∧ tgRuns (passCycles 0 s) = false)
    ∧ (∃ s : State, ctxPeriod ((passCycles 0 s).ctx 5) ≠ 0 ∧ timeRuns (passCycles 0 s) = true ∧ (passCycles 0 s).dx.held = []
        ∧ ((passCycles 0 s).ctx 5).state = .enabled ∧ readsBad [1, 26] ((passCycles 0 s).ctx 5) = true
        ∧ newInstant ((passCycles 0 s).ctx 5) (passCycles 0 s).tm.now.toNat (indexAt ((passCycles 0 s).ctx 5) (passCycles 0
        s).tm.now.toNat) = true)
    ∧ (∃ s : State, tgRuns s = true ∧ s.tg.emitQ = 5 :: [6] ∧ slotBad s .tangent = none ∧ doubleBad (s.ctx 5) = none
        ∧ (s.ctx 5).frame ≠ none ∧ fld ((s.ctx 5).word 2) 13 8 = 9 ∧ (s.queue 9).consumer = 5 ∧ (s.queue 9).state ≠ .none
        ∧ (s.queue 9).state ≠ .broken ∧ (s.queue 9).items = [])
    ∧ (∃ s : State, tgRuns s = true ∧ s.tg.emitQ = [] ∧ s.tg.spCells = none ∧ slotBad s .tangent = none ∧ readsBad [21] (s.ctx 5) = true)
    ∧ (∃ s : State, tgRuns s = true ∧ s.tg.emitQ = [] ∧ s.tg.spCells = none ∧ spTurn s = some 5 ∧ doubleBad (s.ctx 5) = none
        ∧ spCheck s = s ∧ (headItem s 8).map itemId = some 100 ∧ fld ((s.ctx 5).word 21) 0 8 = 8 ∧ s.pool.linkBad = []
        ∧ slotBad s .tangent = none ∧ s.dx.state = 0
        ∧ fld ((s.ctx 5).word 21) 9 5 + (fld ((s.ctx 5).word 21) 14 2 + 1) ≤ ((readItem s [100]).data.take 28).length
        ∧ ctlStatus s 5 4 (tgfClamp ((s.ctx 5).word 19) ((s.ctx 5).word 20) (tgfOfInt (fieldOf ((readItem s [100]).data.take 28) (fld
        ((s.ctx 5).word 21) 9 5) (fld ((s.ctx 5).word 21) 14 2 + 1) (bitOf ((s.ctx 5).word 21) 17) (bitOf ((s.ctx 5).word 21) 16)))) = stOk)
    ∧ (∃ s : State, tgRuns s = true ∧ s.tg.emitQ = [] ∧ s.tg.spCells = none ∧ spTurn s = some 5 ∧ doubleBad (s.ctx 5) = none
        ∧ spCheck s = s ∧ (headItem s 8).map itemId = some 100 ∧ fld ((s.ctx 5).word 21) 0 8 = 8 ∧ s.pool.linkBad = []
        ∧ slotBad s .tangent = none ∧ isStandby s = false
        ∧ ((readItem s [100]).data.take 28).length < fld ((s.ctx 5).word 21) 9 5 + (fld ((s.ctx 5).word 21) 14 2 + 1))
    ∧ (∃ s : State, tgRuns s = true ∧ s.tg.emitQ = [] ∧ s.tg.spCells = none ∧ spTurn s = some 5 ∧ doubleBad (s.ctx 5) = none
        ∧ spCheck s = s ∧ (headItem s 8).map itemId = some 100 ∧ fld ((s.ctx 5).word 21) 0 8 = 8 ∧ s.pool.linkBad = []
        ∧ slotBad s .tangent = none ∧ isStandby s = true) :=
  ⟨⟨sv, by decide +kernel⟩,
   ⟨(({ { (withQ 9 5 sv) with tg := { sv.tg with ctxs := [(5, { Ctx.reset with words := [(1, 100)] })] } } with tm := { sv.tm with now := 5000000#64 } }
       : State)), by decide +kernel⟩,
   ⟨(({ ((withQ 9 5 sv).modCtx 5 fun x => { x with words := [(1, 100), (2, 0x12001), (5, 8)], state := .enabled }) with tm := { sv.tm with now := 5000000#64 } }
       : State)), by decide +kernel⟩,
   ⟨(({ ((withQ 9 5 sv).modCtx 5 fun x => { x with words := [(1, 100), (2, 0x12001), (5, 8)], state := .enabled, pendK := some (4, 4000000) }) with tm := { sv.tm with now := 5000000#64 } }
       : State)), by decide +kernel⟩,
   ⟨(({ ((withQ 9 5 sv).modCtx 5 fun x => { x with words := [(1, 100), (2, 0x12001), (5, 8)], state := .disabled }) with tm := { sv.tm with now := 5000000#64 } }
       : State)), by decide +kernel⟩,
   ⟨sv, by decide +kernel⟩,
   ⟨(({ ((withQ 9 5 sv).modCtx 5 fun x => { x with words := [(1, 100), (2, 0x12001), (5, 8)], state := .enabled, pendK := some (5, 5000000), bad := [(31, 2)] }) with tm := { sv.tm with now := 5000000#64 } }
       : State)), by decide +kernel⟩,
   ⟨(({ ((withQ 9 5 sv).modCtx 5 fun x => { x with words := [(1, 100), (2, 0x12001), (5, 8)], state := .enabled, pendK := some (5, 5000000) }) with tm := { sv.tm with now := 5000000#64 } }
       : State)), by decide +kernel⟩,
   ⟨sv, by decide +kernel⟩,
   ⟨{ (({ ((withQ 9 5 sv).modCtx 5 fun x => { x with words := [(1, 100), (2, 0x12001), (5, 8)], state := .disabling, frame := some (tgFrame (fun _ => 0) 5 0 0) }) with tm := { sv.tm with now := 5000000#64 } } : State)) with tg := { ((withQ 9 5 sv).modCtx 5 fun x => { x with words := [(1, 100), (2, 0x12001), (5, 8)], state := .disabling, frame := some (tgFrame (fun _ => 0) 5 0 0) }).tg with emitQ := [5, 6] } },
       by decide +kernel⟩,
   ⟨{ (({ ((withQ 9 5 sv).modCtx 5 fun x => { x with words := [(1, 100), (2, 0x12001), (5, 8)], state := .enabled, frame := some (tgFrame (fun _ => 0) 5 0 0) }) with tm := { sv.tm with now := 5000000#64 } } : State)) with tg := { ((withQ 9 5 sv).modCtx 5 fun x => { x with words := [(1, 100), (2, 0x12001), (5, 8)], state := .enabled, frame := some (tgFrame (fun _ => 0) 5 0 0) }).tg with emitQ := [5, 6] } }.modQueue
       9 fun u => { u with max := 0 }, by decide +kernel⟩,
   ⟨sv, by decide +kernel⟩,
   ⟨{ sv with tg := { sv.tg with spCells := some [100, 101] }, pool := { sv.pool with owner := [(100, 9), (101, 9)] } }, by decide +kernel⟩,
   ⟨withItem 8 0 [100] (withQ 8 3 ((withQ 9 5 sv).modCtx 5 fun x =>
       { x with words := [(1, 100), (2, 0x12001), (5, 8), (21, 0x108)], state := .enabled })), by decide +kernel⟩,
   ⟨sv, by decide +kernel⟩,
   ⟨(({ ((withQ 9 5 sv).modCtx 5 fun x => { x with words := [(1, 100), (2, 0x12001), (5, 8)], state := .enabled, lastK := 9 }) with dx := { sv.dx with pairEn := true, replays := [{ ctx := 5, rcd := { index := 3, words := [0, 0, 0, 0, 0, 0, 0, 0], frame := [] }, why := .answer none }], state := 2 }, tm := { sv.tm with now := 5000000#64 } }
       : State)), by decide +kernel⟩,
   ⟨(({ ((withQ 9 5 sv).modCtx 5 fun x => { x with words := [(1, 100), (2, 0x12001), (5, 8)], state := .enabled, lastK := 9 }) with dx := { sv.dx with pairEn := true, replays := [{ ctx := 5, rcd := { index := 3, words := [0, 0, 0, 0, 0, 0, 0, 0], frame := [] }, why := .answer (some [1]) }], state := 2 }, tm := { sv.tm with now := 5000000#64 } }
       : State)), by decide +kernel⟩,
   ⟨(({ ((withQ 9 5 sv).modCtx 5 fun x => { x with words := [(1, 100), (2, 0x12001), (5, 8)], state := .enabled, lastK := 9 }) with dx := { sv.dx with pairEn := true, replays := [{ ctx := 5, rcd := { index := 3, words := [0, 0, 0, 0, 0, 0, 0, 0], frame := [] }, why := .own }], state := 4, ref := some { ctx := 5, index := 3, selfOk := none, answer := none } }, tm := { sv.tm with now := 5000000#64 } }
       : State)), by decide +kernel⟩,
   ⟨(({ ((withQ 9 5 sv).modCtx 5 fun x => { x with words := [(1, 100), (2, 0x12001), (5, 8)], state := .enabled, lastK := 9 }) with dx := { sv.dx with pairEn := true, replays := [{ ctx := 5, rcd := { index := 3, words := [0, 0, 0, 0, 0, 0, 0, 0], frame := [] }, why := .resync }], state := 3, awaitRec := [5, 6], divergent := [5] }, tm := { sv.tm with now := 5000000#64 } }
       : State)), by decide +kernel⟩,
   ⟨{ (({ ((withQ 9 5 sv).modCtx 5 fun x => { x with words := [(1, 100), (2, 0x12001), (5, 8)], state := .enabled, pendK := some (4, 4000000) }) with tm := { sv.tm with now := 5000000#64 } } : State)) with vx := { sv.vx with held := [(19, .tangent)] } },
       by decide +kernel⟩,
   ⟨(({ ((withQ 9 5 sv).modCtx 5 fun x => { x with words := [(1, 100), (2, 0x12001), (5, 8)], state := .enabled, bad := [(26, 2)] }) with tm := { sv.tm with now := 5000000#64 } }
       : State)), by decide +kernel⟩,
   ⟨{ (({ ((withQ 9 5 sv).modCtx 5 fun x => { x with words := [(1, 100), (2, 0x12001), (5, 8)], state := .disabling, frame := some (tgFrame (fun _ => 0) 5 0 0) }) with tm := { sv.tm with now := 5000000#64 } } : State)) with tg := { ((withQ 9 5 sv).modCtx 5 fun x => { x with words := [(1, 100), (2, 0x12001), (5, 8)], state := .disabling, frame := some (tgFrame (fun _ => 0) 5 0 0) }).tg with emitQ := [5, 6] } },
       by decide +kernel⟩,
   ⟨{ sv with tg := { sv.tg with ctxs := [(5, { Ctx.reset with state := .enabled, words := [(1, 100), (21, 0x108)], bad := [(21, 2)] })] } },
       by decide +kernel⟩,
   ⟨writeCell 100 (bytesOfWords [4, 0, 0, 0, 0, 0, 0, 0] ++ [0, 0, 0, 0]) (withItem 8 0 [100] (withQ 8 3 ((withQ 9 5 sv).modCtx 5 fun x =>
       { x with words := [(1, 100), (2, 0x12001), (5, 8), (21, 0x108)], state := .enabled }))), by decide +kernel⟩,
   ⟨writeCell 100 (bytesOfWords [4, 0, 0, 0, 0, 0, 0, 0] ++ [1, 2, 3, 4]) (withItem 8 0 [100] (withQ 8 3 ((withQ 9 5 sv).modCtx 5 fun x =>
       { x with words := [(1, 100), (2, 0x12001), (5, 8), (21, 0x908)], state := .enabled }))), by decide +kernel⟩,
   ⟨{ writeCell 100 (bytesOfWords [4, 0, 0, 0, 0, 0, 0, 0] ++ [0, 0, 0, 0]) (withItem 8 0 [100] (withQ 8 3 ((withQ 9 5 sv).modCtx 5 fun x => { x with words := [(1, 100), (2, 0x12001), (5, 8), (21, 0x108)], state := .enabled }))) with dx := { (writeCell 100 (bytesOfWords [4, 0, 0, 0, 0, 0, 0, 0] ++ [0, 0, 0, 0]) (withItem 8 0 [100] (withQ 8 3 ((withQ 9 5 sv).modCtx 5 fun x => { x with words := [(1, 100), (2, 0x12001), (5, 8), (21, 0x108)], state := .enabled })))).dx with state := 4 } },
       by decide +kernel⟩⟩

/-- States that meet the hypotheses of `CheckUnits`. -/
theorem meets_CheckUnits :
    (∃ s : State, ready s 0 = some (P s 0) ∧ (s.cr 0).cmd.bind (·.comp) = none ∧ sharedCheck s (P s 0) = none ∧ pOpcode (P s 0) = 0x60
        ∧ ckConfigBad s (wd (P s 0) 2) (wd (P s 0) 3) = true)
    ∧ (∃ s : State, ready s 0 = some (P s 0) ∧ (s.cr 0).cmd.bind (·.comp) = none ∧ sharedCheck s (P s 0) = none ∧ pOpcode (P s 0) = 0x60
        ∧ ckConfigBad s (wd (P s 0) 2) (wd (P s 0) 3) = false ∧ ckServed s 31 9 = true)
    ∧ (∃ s : State, ready s 0 = some (P s 0) ∧ (s.cr 0).cmd.bind (·.comp) = none ∧ sharedCheck s (P s 0) = none ∧ pOpcode (P s 0) = 0x60
        ∧ (s.unit 31).job ≠ none ∧ ckBusy s 31 = true ∧ ckConfigBad s 0 0 = false)
    ∧ (∃ s : State, ready s 0 = some (P s 0) ∧ (s.cr 0).cmd.bind (·.comp) = none ∧ sharedCheck s (P s 0) = none ∧ pOpcode (P s 0) = 0x60
        ∧ (s.unit 31).job = none ∧ ckBusy s 31 = false ∧ ckBound s 31 = [] ∧ ckServed s 31 9 = false ∧ ckConfigBad s 0x902 7 = false)
    ∧ (∃ s : State, ready s 0 = some (P s 0) ∧ (s.cr 0).cmd.bind (·.comp) = none ∧ sharedCheck s (P s 0) = none ∧ pOpcode (P s 0) = 0x60
        ∧ ckBusy s 31 = false ∧ ckConfigBad s 1 7 = false ∧ ckBound s 31 = [15])
    ∧ (∃ s : State, ready s 0 = some (P s 0) ∧ (s.cr 0).cmd.bind (·.comp) = none ∧ sharedCheck s (P s 0) = none ∧ pOpcode (P s 0) = 0x61
        ∧ 4 ≤ fld (wd (P s 0) 1) 5 3)
    ∧ (∃ s : State, ready s 0 = some (P s 0) ∧ (s.cr 0).cmd.bind (·.comp) = none ∧ sharedCheck s (P s 0) = none ∧ pOpcode (P s 0) = 0x61
        ∧ fld (wd (P s 0) 1) 5 3 = 0 ∧ (s.cr 0).serial = false)
    ∧ (∃ s : State, ready s 0 = some (P s 0) ∧ (s.cr 0).cmd.bind (·.comp) = none ∧ sharedCheck s (P s 0) = none ∧ pOpcode (P s 0) = 0x61
        ∧ fld (wd (P s 0) 1) 5 3 = 1 ∧ ckMode (s.unit 31).cfg ≠ 0 ∧ ckMode (s.unit 31).cfg ≠ 3)
    ∧ (∃ s : State, ready s 0 = some (P s 0) ∧ (s.cr 0).cmd.bind (·.comp) = none ∧ sharedCheck s (P s 0) = none ∧ pOpcode (P s 0) = 0x61
        ∧ ckBusy s 31 = false ∧ ckMode (s.unit 31).cfg = 3 ∧ (s.cr 0).serial = false)
    ∧ (∃ s : State, ready s 0 = some (P s 0) ∧ (s.cr 0).cmd.bind (·.comp) = none ∧ sharedCheck s (P s 0) = none ∧ pOpcode (P s 0) = 0x61
        ∧ addrOk s 0 0 0 32 = true ∧ fld ((wd (wordsOf (stgRead s 0 32) 8)) 2) 0 2 ≠ ckPoly (s.unit 31).cfg)
    ∧ (∃ s : State, ready s 0 = some (P s 0) ∧ (s.cr 0).cmd.bind (·.comp) = none ∧ sharedCheck s (P s 0) = none ∧ pOpcode (P s 0) = 0x61
        ∧ addrOk s 0 0 0 32 = true ∧ fld ((wd (wordsOf (stgRead s 0 32) 8)) 2) 0 2 = ckPoly (s.unit 31).cfg)
    ∧ (∃ s : State, ready s 0 = some (P s 0) ∧ (s.cr 0).cmd.bind (·.comp) = none ∧ sharedCheck s (P s 0) = none ∧ pOpcode (P s 0) = 0x61
        ∧ ckMode (s.unit 31).cfg ≠ 3)
    ∧ (∃ s : State, ready s 0 = some (P s 0) ∧ (s.cr 0).cmd.bind (·.comp) = none ∧ sharedCheck s (P s 0) = none ∧ pOpcode (P s 0) = 0x61
        ∧ ckMode (s.unit 31).cfg = 3 ∧ (s.unit 31).job ≠ none)
    ∧ (∃ s : State, ready s 0 = some (P s 0) ∧ (s.cr 0).cmd.bind (·.comp) = none ∧ sharedCheck s (P s 0) = none ∧ pOpcode (P s 0) = 0x61
        ∧ ckMode (s.unit 31).cfg = 3 ∧ (s.unit 31).job = none ∧ ckFeedWaits s 31 0 = false ∧ fld (wd (P s 0) 4) 0 16 = 0)
    ∧ (∃ s : State, ready s 0 = some (P s 0) ∧ (s.cr 0).cmd.bind (·.comp) = none ∧ sharedCheck s (P s 0) = none ∧ pOpcode (P s 0) = 0x61
        ∧ ckMode (s.unit 31).cfg = 3 ∧ (s.unit 31).job = none ∧ ckFeedWaits s 31 0 = false ∧ fld (wd (P s 0) 4) 0 16 ≠ 0
        ∧ (s.cr 0).serial = false)
    ∧ (∃ s : State, ready s 0 = some (P s 0) ∧ (s.cr 0).cmd.bind (·.comp) = none ∧ sharedCheck s (P s 0) = none ∧ pOpcode (P s 0) = 0x61
        ∧ ckMode (s.unit 31).cfg = 3 ∧ (s.unit 31).job = none ∧ ckFeedWaits s 31 0 = false ∧ addrOk s 0 0 0 9 = true
        ∧ ckEngBad s false = false ∧ bitOf (wd (P s 0) 0) 9 = false ∧ ckMode (s.unit 31).cfg = 3)
    ∧ (∃ s : State, ready s 0 = some (P s 0) ∧ (s.cr 0).cmd.bind (·.comp) = none ∧ sharedCheck s (P s 0) = none ∧ pOpcode (P s 0) = 0x61
        ∧ ckMode (s.unit 31).cfg = 3 ∧ (s.unit 31).job = none ∧ ckFeedWaits s 31 0 = false ∧ addrOk s 0 0 0 9 = true
        ∧ ckEngBad s false = false ∧ bitOf (wd (P s 0) 0) 9 = true)
    ∧ (∃ s : State, ready s 0 = some (P s 0) ∧ (s.cr 0).cmd.bind (·.comp) = none ∧ sharedCheck s (P s 0) = none ∧ pOpcode (P s 0) = 0x61
        ∧ ckMode (s.unit 31).cfg = 3 ∧ (s.unit 31).job = none ∧ ckFeedWaits s 31 0 = false ∧ addrOk s 0 0 0 9 = true
        ∧ ckEngBad s false = false ∧ bitOf (wd (P s 0) 0) 9 = true)
    ∧ (∃ s : State, ready s 0 = some (P s 0) ∧ (s.cr 0).cmd.bind (·.comp) = none ∧ sharedCheck s (P s 0) = none ∧ pOpcode (P s 0) = 0x61
        ∧ fld (wd (P s 0) 1) 5 3 = 3 ∧ ckMode (s.unit 31).cfg = 3 ∧ (s.unit 31).job = none ∧ ckFeedWaits s 31 0 = false
        ∧ queueExists s 8 = true ∧ (s.queue 8).consumer = 4 ∧ queueExists s 9 = true)
    ∧ (∃ s : State, (s.unit 31).job = none ∧ ckTurn s ≠ some 31)
    ∧ (∃ s : State, (s.unit 31).job ≠ none ∧ inProgress s 0 = false ∧ s.pw.awake = true ∧ ckTurn s = some 31 ∧ slotBad s .check = none)
    ∧ (∃ s : State, inProgress s 0 = true ∧ headItem s 8 = none ∧ s.pw.awake = true ∧ ckTurn s = some 31 ∧ slotBad s .check = none)
    ∧ (∃ s : State, inProgress s 0 = true ∧ (headItem s 8).map itemId = some 100 ∧ s.pool.linkBad = []
        ∧ ckShort (s.unit 31).cfg (s.unit 31).cfg2 (readItem s [100]).data.length = true ∧ ckEngBad s false = false ∧ s.pw.awake = true
        ∧ ckTurn s = some 31 ∧ slotBad s .check = none)
    ∧ (∃ s : State, ckShort (s.unit 31).cfg (s.unit 31).cfg2 (readItem s [100]).data.length = false ∧ (readItem s [100]).data.length = 4
        ∧ s.pw.awake = true ∧ ckTurn s = some 31 ∧ slotBad s .check = none ∧ s.pool.linkBad = [] ∧ ckEngBad s false = false
        ∧ inProgress s 0 = true ∧ (s.unit 31).job.map (fun j => (j.hand, j.inQ)) = some (none, 8))
    ∧ (∃ s : State, ckValue 3 0 0 0 (readItem s [100]).data = ckCarried 3 (readItem s [100]).data ∧ s.pw.awake = true ∧ ckTurn s = some 31
        ∧ slotBad s .check = none ∧ s.pool.linkBad = [] ∧ ckEngBad s false = false ∧ inProgress s 0 = true
        ∧ (s.unit 31).job.map (fun j => (j.hand, j.inQ)) = some (none, 8))
    ∧ (∃ s : State, ready s 0 = some (P s 0) ∧ (s.cr 0).cmd.bind (·.comp) = none ∧ sharedCheck s (P s 0) = none ∧ pOpcode (P s 0) = 0x61
        ∧ fld (wd (P s 0) 1) 5 3 = 3 ∧ ckMode (s.unit 31).cfg ≠ 3)
    ∧ (∃ s : State, ready s 0 = some (P s 0) ∧ (s.cr 0).cmd.bind (·.comp) = none ∧ sharedCheck s (P s 0) = none ∧ pOpcode (P s 0) = 0x61
        ∧ ckMode (s.unit 31).cfg = 3 ∧ (s.unit 31).job = none ∧ ckFeedWaits s 31 0 = true)
    ∧ (∃ s : State, dmaWaits s 0 = true ∧ hostIdle s = true ∧ slotBad s .hostDma = none ∧ fld (pkt s 0 0) 0 8 = 0x61
        ∧ fld (pkt s 0 1) 5 3 = 1 ∧ ckPoly (s.unit 31).cfg = 1)
    ∧ (∃ s : State, dmaWaits s 0 = true ∧ hostIdle s = true ∧ slotBad s .hostDma = none ∧ fld (pkt s 0 0) 0 8 = 0x61
        ∧ fld (pkt s 0 1) 5 3 = 1)
    ∧ (∃ s : State, dmaWaits s 0 = true ∧ hostIdle s = true ∧ slotBad s .hostDma = none ∧ fld (pkt s 0 0) 0 8 = 0x61
        ∧ fld (pkt s 0 1) 5 3 = 2 ∧ ckEngBad s false = false)
    ∧ (∃ s : State, dmaWaits s 0 = true ∧ hostIdle s = true ∧ slotBad s .hostDma = none ∧ fld (pkt s 0 0) 0 8 = 0x61
        ∧ ckEngBad s false = false)
    ∧ (∃ s : State, dmaWaits s 0 = true ∧ hostIdle s = true ∧ slotBad s .hostDma = none ∧ fld (pkt s 0 0) 0 8 = 0x61
        ∧ ckEngBad s false = false)
    ∧ (∃ s : State, dmaWaits s 0 = true ∧ hostIdle s = true ∧ fld (pkt s 0 0) 0 8 = 0x61 ∧ fld (pkt s 0 1) 5 3 = 2
        ∧ classMapOf s.vx.classes 37 ≠ 3) :=
  ⟨⟨cmd 0 [0x60, 31, 0x08000000] sv, by decide +kernel⟩,
   ⟨cmd 0 [0x60, 31, 0x902] ((withQ 9 5 sv).modUnit 30 fun x => { x with cfg := 0x902 }), by decide +kernel⟩,
   ⟨cmd 0 [0x60, 31, 0] (sv.modUnit 31 fun x =>
       { x with job := some { ring := 0, inQ := 8, outQ := 9, dropFail := false, noSeq := true, left := 2, passed := 1, failed := 0, hand := none, eng := false } }),
       by decide +kernel⟩,
   ⟨cmd 0 [0x60, 31, 0x902, 7] ((withQ 9 5 sv).modUnit 31 fun x => { x with cfg := 0x902, seqV := 5 }), by decide +kernel⟩,
   ⟨cmd 0 [0x160, 31, 1, 7] ((sv.modUnit 31 fun x => { x with seqV := 5 }).modChan 15 fun c =>
       { c with rx := some { rx0 with check := some (31, false) } }), by decide +kernel⟩,
   ⟨cmd 0 [0x61, 0x9F] sv, by decide +kernel⟩,
   ⟨cmd 0 [0x61, 0x1F, 0x1000] sv, by decide +kernel⟩,
   ⟨cmd 0 [0x61, 0x3F, 0x1000] (sv.modUnit 31 fun x => { x with cfg := 1 }), by decide +kernel⟩,
   ⟨cmd 0 [0x61, 0x3F, 0x1000] (sv.modUnit 31 fun x => { x with cfg := 3 }), by decide +kernel⟩,
   ⟨cmdS 0 [0x61, 0x3F, 0] (sv.modUnit 31 fun x => { x with cfg := 0x4 }), by decide +kernel⟩,
   ⟨stgWrite (cmdS 0 [0x61, 0x3F, 0] (sv.modUnit 31 fun x => { x with cfg := 0x4 })) 0 (bytesOfWords [5, 6, 1, 7, 0x04030201, 0, 0,
       0x04000000]), by decide +kernel⟩,
   ⟨cmd 0 [0x61, 0x5F, 0x1000, 0, 4] sv, by decide +kernel⟩,
   ⟨cmd 0 [0x61, 0x5F, 0x1000, 0, 4] ((sv.modUnit 31 fun x => { x with cfg := 3 }).modUnit 31 fun x =>
       { x with job := some { ring := 0, inQ := 8, outQ := 9, dropFail := false, noSeq := true, left := 2, passed := 1, failed := 0, hand := none, eng := false } }),
       by decide +kernel⟩,
   ⟨cmd 0 [0x61, 0x5F, 0x1000, 0, 0] (sv.modUnit 31 fun x => { x with cfg := 3 }), by decide +kernel⟩,
   ⟨cmd 0 [0x61, 0x5F, 0x1000, 0, 65535] (sv.modUnit 31 fun x => { x with cfg := 3 }), by decide +kernel⟩,
   ⟨stgWrite (cmdS 0 [0x561, 0x5F, 0, 0, 9] (sv.modUnit 31 fun x => { x with cfg := 0xF })) 0 ([0x31, 0x32, 0x33, 0x34, 0x35, 0x36, 0x37,
       0x38, 0x39]), by decide +kernel⟩,
   ⟨stgWrite (cmdS 0 [0x761, 0x5F, 0, 0, 9, 0xE3069283] (sv.modUnit 31 fun x => { x with cfg := 0xF })) 0 ([0x31, 0x32, 0x33, 0x34, 0x35,
       0x36, 0x37, 0x38, 0x39]), by decide +kernel⟩,
   ⟨stgWrite (cmdS 0 [0x761, 0x5F, 0, 0, 9, 0xE3069282] (sv.modUnit 31 fun x => { x with cfg := 0xF })) 0 ([0x31, 0x32, 0x33, 0x34, 0x35,
       0x36, 0x37, 0x38, 0x39]), by decide +kernel⟩,
   ⟨cmd 0 [0x61, 0x7F, 0x908, 1] (withQ 8 4 (withQ 9 5 (sv.modUnit 31 fun x => { x with cfg := 3 }))), by decide +kernel⟩,
   ⟨sv, by decide +kernel⟩,
   ⟨sv.modUnit 31 fun x =>
       { x with job := some { ring := 0, inQ := 8, outQ := 9, dropFail := false, noSeq := true, left := 2, passed := 1, failed := 0, hand := none, eng := false } },
       by decide +kernel⟩,
   ⟨startedCmd 0 [0x61, 0x7F] ((withQ 8 4 (withQ 9 5 sv)).modUnit 31 fun x =>
       { x with cfg := 3, job := some { ring := 0, inQ := 8, outQ := 9, dropFail := false, noSeq := true, left := 2, passed := 1, failed := 0, hand := none, eng := false } }),
       by decide +kernel⟩,
   ⟨startedCmd 0 [0x61, 0x7F] (((writeCell 100 (bytesOfWords [4, 0, 0, 0, 0, 0, 0, 0] ++ [1, 2, 3, 4]) (withItem 8 0 [100] (withQ 8 4
       (withQ 9 5 sv))))).modUnit 31 fun x =>
       { x with cfg := 0x0002000F, job := some { ring := 0, inQ := 8, outQ := 9, dropFail := false, noSeq := true, left := 2, passed := 1, failed := 0, hand := none, eng := false } }),
       by decide +kernel⟩,
   ⟨startedCmd 0 [0x61, 0x7F] (((writeCell 100 (bytesOfWords [4, 0, 0, 0, 0, 0, 0, 0] ++ [1, 2, 3, 4]) (withItem 8 0 [100] (withQ 8 4
       (withQ 9 5 sv))))).modUnit 31 fun x =>
       { x with cfg := 3, job := some { ring := 0, inQ := 8, outQ := 9, dropFail := false, noSeq := true, left := 2, passed := 1, failed := 0, hand := none, eng := false } }),
       by decide +kernel⟩,
   ⟨startedCmd 0 [0x61, 0x7F] (((writeCell 100 (bytesOfWords [4, 0, 0, 0, 0, 0, 0, 0] ++ [BitVec.ofNat 8 (ckValue 3 0 0 0 [0, 2, 3, 4]), 2,
       3, 4]) (withItem 8 0 [100] (withQ 8 4 (withQ 9 5 sv))))).modUnit 31 fun x =>
       { x with cfg := 3, job := some { ring := 0, inQ := 8, outQ := 9, dropFail := false, noSeq := true, left := 2, passed := 1, failed := 0, hand := none, eng := false } }),
       by decide +kernel⟩,
   ⟨cmd 0 [0x61, 0x7F, 0x908, 1] (withQ 8 4 (withQ 9 5 (sv.modUnit 31 fun x => { x with cfg := 2 }))), by decide +kernel⟩,
   ⟨cmd 0 [0x61, 0x5F, 0x1000, 0, 4] (startedCmd 1 [0x61, 0x5F, 0x1000, 0, 4] ((sv.modUnit 31 fun x => { x with cfg := 3 }))),
       by decide +kernel⟩,
   ⟨((startedCmd 0 [0x61, 0x3F] ((sv.modUnit 31 fun x => { x with cfg := 0x4 }))).modCmd 0 fun d => { d with dma := true, aux := [] }),
       by decide +kernel⟩,
   ⟨((startedCmd 0 [0x61, 0x3F] ((sv.modUnit 31 fun x => { x with cfg := 0x4 }))).modCmd 0 fun d => { d with dma := true, aux := [] }),
       by decide +kernel⟩,
   ⟨((startedCmd 0 [0x561, 0x5F, 0, 0, 9] ((sv.modUnit 31 fun x => { x with cfg := 0xF }))).modCmd 0 fun d =>
       { d with dma := true, aux := [0, 0] }), by decide +kernel⟩,
   ⟨((startedCmd 0 [0x761, 0x5F, 0, 0, 9, 0xE3069283] ((sv.modUnit 31 fun x => { x with cfg := 0xF }))).modCmd 0 fun d =>
       { d with dma := true, aux := [0, 0] }), by decide +kernel⟩,
   ⟨((startedCmd 0 [0x761, 0x5F, 0, 0, 9, 0xE3069282] ((sv.modUnit 31 fun x => { x with cfg := 0xF }))).modCmd 0 fun d =>
       { d with dma := true, aux := [0, 0] }), by decide +kernel⟩,
   ⟨((startedCmd 0 [0x761, 0x5F, 0, 0, 9, 0xE3069282] ((sv.modUnit 31 fun x => { x with cfg := 0xF }))).modCmd 0 fun d =>
       { d with dma := true, aux := [0, 0] }), by decide +kernel⟩⟩

/-- States that meet the hypotheses of `NetworkSleep`. -/
theorem meets_NetworkSleep :
    (∃ s : State, ready s 0 = some (P s 0) ∧ (s.cr 0).cmd.bind (·.comp) = none ∧ sharedCheck s (P s 0) = none ∧ pOpcode (P s 0) = 0x78
        ∧ s.pw.ballot ≠ 0)
    ∧ (∃ s : State, ready s 0 = some (P s 0) ∧ (s.cr 0).cmd.bind (·.comp) = none ∧ sharedCheck s (P s 0) = none ∧ pOpcode (P s 0) = 0x78
        ∧ s.pw.ballot = 0 ∧ isStandby s = false ∧ ((s.chan 15).state = .active ∧ bdpEn s 15 = true))
    ∧ (∃ s : State, ready s 0 = some (P s 0) ∧ (s.cr 0).cmd.bind (·.comp) = none ∧ sharedCheck s (P s 0) = none ∧ pOpcode (P s 0) = 0x78
        ∧ reasonsHeld s = [] ∧ s.pw.ballot = 0 ∧ isStandby s = false ∧ (s.chan 15).state = .active ∧ bdpEn s 15 = true)
    ∧ (∃ s : State, ready s 0 = some (P s 0) ∧ (s.cr 0).cmd.bind (·.comp) = none ∧ sharedCheck s (P s 0) = none ∧ pOpcode (P s 0) = 0x78
        ∧ reasonsHeld s ≠ [] ∧ s.pw.ballot = 0 ∧ isStandby s = false ∧ (s.chan 15).state = .active ∧ bdpEn s 15 = true)
    ∧ (∃ s : State, ready s 0 = some (P s 0) ∧ (s.cr 0).cmd.bind (·.comp) = none ∧ sharedCheck s (P s 0) = none ∧ pOpcode (P s 0) = 0x79
        ∧ s.pw.bal = none)
    ∧ (∃ s : State, ready s 0 = some (P s 0) ∧ (s.cr 0).cmd.bind (·.comp) = none ∧ sharedCheck s (P s 0) = none ∧ pOpcode (P s 0) = 0x79
        ∧ s.pw.bal ≠ none ∧ s.pw.ballotNo ≠ 7)
    ∧ (∃ s : State, ready s 0 = some (P s 0) ∧ (s.cr 0).cmd.bind (·.comp) = none ∧ sharedCheck s (P s 0) = none ∧ pOpcode (P s 0) = 0x79
        ∧ s.pw.bal ≠ none ∧ s.pw.ballotNo = 7 ∧ s.pw.ballot = 2)
    ∧ (∃ s : State, s.pw.bal = none ∧ s.pw.ballot ≠ 2)
    ∧ (∃ s : State, s.pw.ballot = 1 ∧ s.pw.bal.map (fun b => (b.chans, b.sent, b.auto)) = some ([15], [15], false))
    ∧ (∃ s : State, s.pw.ballot = 1 ∧ s.pw.bal.map (fun b => (b.chans, b.sent, b.auto)) = some ([15], [15], true))
    ∧ (∃ s : State, s.pw.ballot = 1)
    ∧ (∃ s : State, s.pw.ballot = 2)
    ∧ (∃ s : State, s.pw.ballot = 3)
    ∧ (∃ s : State, s.pw.committed = false)
    ∧ (∃ s : State, s.pw.committed = true)
    ∧ (∃ s : State, ballotMask s = 0 ∧ reasonsHeld s = [])
    ∧ (∃ s : State, ballotMask s ≠ 0 ∧ isStandby s = false ∧ s.vx.safe = false ∧ s.pw.ballot = 0 ∧ s.pw.awake = true ∧ reasonsHeld s = []
        ∧ inBallotMask s 15 = true ∧ ballotEligible s 15 = true)
    ∧ (∃ s : State, reasonsHeld s = (2, 0) :: [] ∧ inBallotMask s 15 = true ∧ asleep s 15 = false ∧ bdpSends s 15 = true)
    ∧ (∃ s : State, ready s 0 = some (P s 0) ∧ (s.cr 0).cmd.bind (·.comp) = none ∧ sharedCheck s (P s 0) = none ∧ pOpcode (P s 0) = 0x7A
        ∧ pwGlobalOk (wd (P s 0) 2) (wd (P s 0) 3) (wd (P s 0) 4) (wd (P s 0) 5) = false)
    ∧ (∃ s : State, ready s 0 = some (P s 0) ∧ (s.cr 0).cmd.bind (·.comp) = none ∧ sharedCheck s (P s 0) = none ∧ pOpcode (P s 0) = 0x7A
        ∧ pwGlobalOk (wd (P s 0) 2) (wd (P s 0) 3) (wd (P s 0) 4) (wd (P s 0) 5) = true ∧ maskBusy s (wd (P s 0) 3) = true)
    ∧ (∃ s : State, ready s 0 = some (P s 0) ∧ (s.cr 0).cmd.bind (·.comp) = none ∧ sharedCheck s (P s 0) = none ∧ pOpcode (P s 0) = 0x7A
        ∧ pwGlobalOk (wd (P s 0) 2) (wd (P s 0) 3) (wd (P s 0) 4) (wd (P s 0) 5) = true ∧ maskBusy s (wd (P s 0) 3) = false)
    ∧ (∃ s : State, ready s 0 = some (P s 0) ∧ (s.cr 0).cmd.bind (·.comp) = none ∧ sharedCheck s (P s 0) = none ∧ pOpcode (P s 0) = 0x7A
        ∧ chWakeOk (wd (P s 0) 2) (wd (P s 0) 3) = false)
    ∧ (∃ s : State, ready s 0 = some (P s 0) ∧ (s.cr 0).cmd.bind (·.comp) = none ∧ sharedCheck s (P s 0) = none ∧ pOpcode (P s 0) = 0x7A
        ∧ chWakeOk (wd (P s 0) 2) (wd (P s 0) 3) = true ∧ bitOf (wd (P s 0) 0) 8 = false)
    ∧ (∃ s : State, ready s 0 = some (P s 0) ∧ (s.cr 0).cmd.bind (·.comp) = none ∧ sharedCheck s (P s 0) = none
        ∧ isPwMode (· == 1) (P s 0) = true)
    ∧ (∃ s : State, ready s 0 = some (P s 0) ∧ (s.cr 0).cmd.bind (·.comp) = none ∧ sharedCheck s (P s 0) = none ∧ pOpcode (P s 0) = 0x7B
        ∧ fld (wd (P s 0) 1) 0 3 = 0)
    ∧ (∃ s : State, ready s 0 = some (P s 0) ∧ (s.cr 0).cmd.bind (·.comp) = none ∧ sharedCheck s (P s 0) = none ∧ pOpcode (P s 0) = 0x7B
        ∧ 6 ≤ fld (wd (P s 0) 1) 0 3)
    ∧ (∃ s : State, ready s 0 = some (P s 0) ∧ (s.cr 0).cmd.bind (·.comp) = none ∧ sharedCheck s (P s 0) = none
        ∧ isPwMode (· == 4) (P s 0) = true ∧ reasonCodeOk 0x7F = false)
    ∧ (∃ s : State, ready s 0 = some (P s 0) ∧ (s.cr 0).cmd.bind (·.comp) = none ∧ sharedCheck s (P s 0) = none
        ∧ isPwMode (· == 5) (P s 0) = true ∧ reasonCodeOk 0x7F = false)
    ∧ (∃ s : State, ready s 0 = some (P s 0) ∧ (s.cr 0).cmd.bind (·.comp) = none ∧ sharedCheck s (P s 0) = none
        ∧ isPwMode (· == 4) (P s 0) = true ∧ reasonCodeOk 0x80 = true)
    ∧ (∃ s : State, ready s 0 = some (P s 0) ∧ (s.cr 0).cmd.bind (·.comp) = none ∧ sharedCheck s (P s 0) = none
        ∧ isPwMode (· == 5) (P s 0) = true)
    ∧ (∃ s : State, ballotMask s ≠ 0 ∧ s.pw.awake = false)
    ∧ (∃ s : State, ready s 0 = some (P s 0) ∧ (s.cr 0).cmd.bind (·.comp) = none ∧ sharedCheck s (P s 0) = none
        ∧ isPwMode (· == 5) (P s 0) = true)
    ∧ (∃ s : State, ready s 0 = some (P s 0) ∧ (s.cr 0).cmd.bind (·.comp) = none ∧ sharedCheck s (P s 0) = none
        ∧ isPwMode (· == 4) (P s 0) = true)
    ∧ (∃ s : State, ready s 0 = some (P s 0) ∧ (s.cr 0).cmd.bind (·.comp) = none ∧ sharedCheck s (P s 0) = none ∧ pOpcode (P s 0) = 0x78
        ∧ reasonsHeld s = [] ∧ bdpSends s 15 = true)
    ∧ (∃ s : State, ready s 0 = some (P s 0) ∧ (s.cr 0).cmd.bind (·.comp) = none ∧ sharedCheck s (P s 0) = none ∧ pOpcode (P s 0) = 0x79
        ∧ s.pw.ballotNo = 7 ∧ s.pw.ballot = 2 ∧ bdpSends s 15 = true)
    ∧ (∃ s : State, s.pw.ballot = 1 ∧ s.pw.ballotNo = 7 ∧ bdpSends s 15 = true) :=
  ⟨⟨cmd 0 [0x78, 1] { sv with pw := { (sv).pw with ballot := 2 } }, by decide +kernel⟩,
   ⟨cmd 0 [0x78, 0x8000, 4] (sv.modChan 15 fun c => { c with state := .active, bdpCfg := 0x901, trx := 0, trxTgt := 0 }),
       by decide +kernel⟩,
   ⟨cmd 0 [0x78, 0x8000, 5]
       { (sv.modChan 15 fun c => { c with state := .active, bdpCfg := 0x901, trx := 0, trxTgt := 0 }) with ret := { sv.ret with ballotNo := 65535 } },
       by decide +kernel⟩,
   ⟨cmd 0 [0x78, 0x8000, 5]
       { (sv.modChan 15 fun c => { c with state := .active, bdpCfg := 0x901, trx := 0, trxTgt := 0 }) with pw := { ((sv.modChan 15 fun c => { c with state := .active, bdpCfg := 0x901, trx := 0, trxTgt := 0 })).pw with hostHeld := true } },
       by decide +kernel⟩,
   ⟨cmd 0 [0x79, 7] { sv with pw := { (sv).pw with lapsed := 7 } }, by decide +kernel⟩,
   ⟨cmd 0 [0x79, 7] { sv with pw := { (sv).pw with ballot := 2, ballotNo := 6, bal := some { chans := [15], extra := [], window := 20, delay := 500, cause := 0, auto := false, sent := [], ring := some 0, ring2 := none } } },
       by decide +kernel⟩,
   ⟨cmd 0 [0x79, 7] { (sv.modChan 15 fun c => { c with state := .active, bdpCfg := 0x901, trx := 0, trxTgt := 0 }) with pw := { ((sv.modChan 15 fun c => { c with state := .active, bdpCfg := 0x901, trx := 0, trxTgt := 0 })).pw with ballot := 2, ballotNo := 7, bal := some { chans := [15], extra := [], window := 20, delay := 500, cause := 0, auto := false, sent := [15], ring := some 0, ring2 := none } } },
       by decide +kernel⟩,
   ⟨sv, by decide +kernel⟩,
   ⟨startedCmd 0 [0x78, 0x8000]
       { (sv.modChan 15 fun c => { c with state := .active, bdpCfg := 0x901, trx := 0, trxTgt := 0 }) with pw := { ((sv.modChan 15 fun c => { c with state := .active, bdpCfg := 0x901, trx := 0, trxTgt := 0 })).pw with ballot := 1, ballotNo := 7, bal := some { chans := [15], extra := [], window := 20, delay := 500, cause := 0, auto := false, sent := [15], ring := some 0, ring2 := none } } },
       by decide +kernel⟩,
   ⟨startedCmd 0 [0x78, 0x8000]
       { (sv.modChan 15 fun c => { c with state := .active, bdpCfg := 0x901, trx := 0, trxTgt := 0 }) with pw := { ((sv.modChan 15 fun c => { c with state := .active, bdpCfg := 0x901, trx := 0, trxTgt := 0 })).pw with ballot := 1, ballotNo := 7, bal := some { chans := [15], extra := [], window := 20, delay := 500, cause := 0, auto := true, sent := [15], ring := some 0, ring2 := none } } },
       by decide +kernel⟩,
   ⟨startedCmd 0 [0x78, 0x8000]
       { (sv.modChan 15 fun c => { c with state := .active, bdpCfg := 0x901, trx := 0, trxTgt := 0 }) with pw := { ((sv.modChan 15 fun c => { c with state := .active, bdpCfg := 0x901, trx := 0, trxTgt := 0 })).pw with ballot := 1, ballotNo := 7, bal := some { chans := [15], extra := [], window := 20, delay := 500, cause := 0, auto := true, sent := [], ring := some 0, ring2 := none } } },
       by decide +kernel⟩,
   ⟨{ (sv.modChan 15 fun c => { c with state := .active, bdpCfg := 0x901, trx := 0, trxTgt := 0 }) with pw := { ((sv.modChan 15 fun c => { c with state := .active, bdpCfg := 0x901, trx := 0, trxTgt := 0 })).pw with ballot := 2, ballotNo := 7, bal := some { chans := [15], extra := [], window := 20, delay := 500, cause := 0, auto := true, sent := [], ring := some 0, ring2 := none } } },
       by decide +kernel⟩,
   ⟨{ (sv.modChan 15 fun c => { c with state := .active, bdpCfg := 0x901, trx := 0, trxTgt := 0 }) with pw := { ((sv.modChan 15 fun c => { c with state := .active, bdpCfg := 0x901, trx := 0, trxTgt := 0 })).pw with ballot := 3, ballotNo := 7, bal := some { chans := [15], extra := [], window := 20, delay := 500, cause := 0, auto := true, sent := [], ring := some 0, ring2 := none } } },
       by decide +kernel⟩,
   ⟨sv, by decide +kernel⟩,
   ⟨{ sv with pw := { (sv).pw with committed := true } }, by decide +kernel⟩,
   ⟨sv, by decide +kernel⟩,
   ⟨{ (sv.modChan 15 fun c => { c with state := .active, bdpCfg := 0x901, trx := 0, trxTgt := 0 }) with pw := { ((sv.modChan 15 fun c => { c with state := .active, bdpCfg := 0x901, trx := 0, trxTgt := 0 })).pw with ballotReg := 0x00148000 } },
       by decide +kernel⟩,
   ⟨{ (sv.modChan 15 fun c => { c with state := .active, bdpCfg := 0x901, trx := 0, trxTgt := 0 }) with pw := { ((sv.modChan 15 fun c => { c with state := .active, bdpCfg := 0x901, trx := 0, trxTgt := 0 })).pw with ballotReg := 0x00148000, hostHeld := true } },
       by decide +kernel⟩,
   ⟨cmd 0 [0x7A, 0x10, 3] sv, by decide +kernel⟩,
   ⟨cmd 0 [0x7A, 0x10, 0x02580001, 0x00148001, 0x01F4000A, 0] { sv with pw := { (sv).pw with ballot := 1 } }, by decide +kernel⟩,
   ⟨cmd 0 [0x7A, 0x10, 0x0258FF01, 0x00148001, 0x01F4000A, 7] { sv with pw := { (sv).pw with appCodes := [0x80] } }, by decide +kernel⟩,
   ⟨cmd 0 [0x7A, 0xF, 0x60, 100] sv, by decide +kernel⟩,
   ⟨cmd 0 [0x7A, 0xF, 0x00080511, 10] sv, by decide +kernel⟩,
   ⟨cmd 0 [0x7B, 1] sv, by decide +kernel⟩,
   ⟨{ (cmd 0 [0x7B, 0] sv) with pw := { (cmd 0 [0x7B, 0] sv).pw with doze := true } }, by decide +kernel⟩,
   ⟨cmd 0 [0x7B, 7] sv, by decide +kernel⟩,
   ⟨cmd 0 [0x7B, 4, 0x7F] sv, by decide +kernel⟩,
   ⟨cmd 0 [0x7B, 5, 0x7F] sv, by decide +kernel⟩,
   ⟨cmd 0 [0x7B, 4, 0x80] sv, by decide +kernel⟩,
   ⟨cmd 0 [0x7B, 5, 2] { sv with pw := { (sv).pw with hostHeld := true } }, by decide +kernel⟩,
   ⟨{ (sv.modChan 15 fun c => { c with state := .active, bdpCfg := 0x901, trx := 0, trxTgt := 0 }) with pw := { ((sv.modChan 15 fun c => { c with state := .active, bdpCfg := 0x901, trx := 0, trxTgt := 0 })).pw with ballotReg := 0x00148000, mode := .sleep } },
       by decide +kernel⟩,
   ⟨cmd 0 [0x7B, 5, 0x80] { sv with pw := { (sv).pw with appCodes := [0x81, 0x80] } }, by decide +kernel⟩,
   ⟨cmd 0 [0x7B, 4, 2] sv, by decide +kernel⟩,
   ⟨cmd 0 [0x78, 0x8000, 5]
       { (sv.modChan 15 fun c => { c with state := .active, bdpCfg := 0x901, trx := 0, trxTgt := 0 }) with ret := { sv.ret with ballotNo := 65535 } },
       by decide +kernel⟩,
   ⟨cmd 0 [0x79, 7] { (sv.modChan 15 fun c => { c with state := .active, bdpCfg := 0x901, trx := 0, trxTgt := 0 }) with pw := { ((sv.modChan 15 fun c => { c with state := .active, bdpCfg := 0x901, trx := 0, trxTgt := 0 })).pw with ballot := 2, ballotNo := 7, bal := some { chans := [15], extra := [], window := 20, delay := 500, cause := 0, auto := false, sent := [15], ring := some 0, ring2 := none } } },
       by decide +kernel⟩,
   ⟨startedCmd 0 [0x78, 0x8000]
       { (sv.modChan 15 fun c => { c with state := .active, bdpCfg := 0x901, trx := 0, trxTgt := 0 }) with pw := { ((sv.modChan 15 fun c => { c with state := .active, bdpCfg := 0x901, trx := 0, trxTgt := 0 })).pw with ballot := 1, ballotNo := 7, bal := some { chans := [15], extra := [], window := 20, delay := 500, cause := 0, auto := true, sent := [15], ring := some 0, ring2 := none } } },
       by decide +kernel⟩⟩

/-- States that meet the hypotheses of `PowerModes`. -/
theorem meets_PowerModes :
    (∃ s : State, ready s 0 = some (P s 0) ∧ (s.cr 0).cmd.bind (·.comp) = none ∧ sharedCheck s (P s 0) = none
        ∧ isPwMode (· == 2) (P s 0) = true ∧ entryRefused s ≠ 0)
    ∧ (∃ s : State, ready s 0 = some (P s 0) ∧ (s.cr 0).cmd.bind (·.comp) = none ∧ sharedCheck s (P s 0) = none
        ∧ isPwMode (· == 3) (P s 0) = true ∧ entryRefused s = 0)
    ∧ (∃ s : State, sleepCondition s = false ∧ s.pw.mode = .run)
    ∧ (∃ s : State, inService s = true ∧ s.pw.awake = true ∧ sleepCondition s = true)
    ∧ (∃ s : State, s.pw.mode = .entering false)
    ∧ (∃ s : State, s.pw.mode = .entering true)
    ∧ (∃ s : State, s.pw.mode = .waking)
    ∧ (∃ s : State, s.pw.mode ≠ .waking)
    ∧ (∃ s : State, bitOf (chWake s 15) 0 = false ∧ bitOf s.pw.cfg 2 = false ∧ fld s.pw.timer 0 16 = 0 ∧ s.pw.confirm = []
        ∧ s.pw.winOpen.contains 15 = false)
    ∧ (∃ s : State, bitOf (chWake s 15) 0 = true ∧ asleep s 15 = true ∧ (s.chan 15).state ≠ .safe ∧ s.vx.safe = false ∧ s.pw.mode = .sleep)
    ∧ (∃ s : State, bitOf (chWake s 15) 0 = true ∧ asleep s 15 = true ∧ (s.chan 15).state ≠ .safe ∧ s.pw.mode = .run
        ∧ groupCommitted s 15 = false ∧ s.vx.safe = false)
    ∧ (∃ s : State, bitOf s.pw.cfg 2 = true ∧ s.pw.mode = .sleep ∧ fld s.pw.timer 0 16 ≠ 0)
    ∧ (∃ s : State, (s.pw.confirm.find? fun e => e.1 == 15) = some (15, []))
    ∧ (∃ s : State, s.pw.winOpen.contains 15 = true)
    ∧ (∃ s : State, s.vx.safe = true)
    ∧ (∃ s : State, ready s 0 = some (P s 0) ∧ (s.cr 0).cmd.bind (·.comp) = none ∧ sharedCheck s (P s 0) = none
        ∧ isPwMode (· == 2) (P s 0) = true ∧ entryRefused s = 0)
    ∧ (∃ s : State, s.vx.safe = false ∧ bitOf64 s.vx.stat (41) = true ∧ classMapOf s.vx.classes (41) = 2)
    ∧ (∃ s : State, s.vx.safe = false ∧ ((List.range 64).all fun i => !bitOf64 s.vx.stat i || classMapOf s.vx.classes i != 2) = true
        ∧ s.pw.ballot ≠ 0)
    ∧ (∃ s : State, s.vx.safe = false ∧ ((List.range 64).all fun i => !bitOf64 s.vx.stat i || classMapOf s.vx.classes i != 2) = true
        ∧ s.pw.ballot = 0)
    ∧ (∃ s : State, s.pw.mode = .entering false) :=
  ⟨⟨cmd 0 [0x7B, 2] { sv with pw := { (sv).pw with ballot := 1 } }, by decide +kernel⟩,
   ⟨cmd 0 [0x7B, 3] sv, by decide +kernel⟩,
   ⟨sv, by decide +kernel⟩,
   ⟨{ sv with pw := { (sv).pw with cfg := 0x02580002 } }, by decide +kernel⟩,
   ⟨{ sv with pw := { (sv).pw with mode := .entering false, latch := 1 } }, by decide +kernel⟩,
   ⟨{ sv with pw := { (sv).pw with mode := .entering true } }, by decide +kernel⟩,
   ⟨{ { sv with pw := { (sv).pw with mode := .waking, latch := 0x60001 } } with ret := { sv.ret with time := 5 } }, by decide +kernel⟩,
   ⟨sv, by decide +kernel⟩,
   ⟨sv, by decide +kernel⟩,
   ⟨{ sv with pw := { (sv).pw with mode := .sleep, chWake := [(15, 0x00080511)] } }, by decide +kernel⟩,
   ⟨{ sv with pw := { (sv).pw with chWake := [(15, 0x00080511)] } }, by decide +kernel⟩,
   ⟨{ sv with pw := { (sv).pw with mode := .sleep, cfg := 0x02580004, timer := 9 } }, by decide +kernel⟩,
   ⟨{ sv with pw := { (sv).pw with confirm := [(15, [])] } }, by decide +kernel⟩,
   ⟨{ sv with pw := { (sv).pw with winOpen := [3, 15], filtLong := [15], winCount := [(15, 2)] } }, by decide +kernel⟩,
   ⟨cmd 0 [0x7B, 2] { sv with vx := { sv.vx with safe := true } }, by decide +kernel⟩,
   ⟨cmd 0 [0x7B, 2] sv, by decide +kernel⟩,
   ⟨(({ sv with vx := { sv.vx with stat := 0x20000000000 } } : State)), by decide +kernel⟩,
   ⟨{ sv with pw := { (sv).pw with ballot := 2 } }, by decide +kernel⟩,
   ⟨sv, by decide +kernel⟩,
   ⟨{ { ((withQ 9 5 sv).modCtx 5 fun x => { x with words := [(1, 100), (2, 0x12001), (5, 8)], state := .enabled, frame := some (tgFrame (fun _ => 0) 5 0 0) }) with pw := { (((withQ 9 5 sv).modCtx 5 fun x => { x with words := [(1, 100), (2, 0x12001), (5, 8)], state := .enabled, frame := some (tgFrame (fun _ => 0) 5 0 0) })).pw with mode := .entering false } } with tg := { ((withQ 9 5 sv).modCtx 5 fun x => { x with words := [(1, 100), (2, 0x12001), (5, 8)], state := .enabled, frame := some (tgFrame (fun _ => 0) 5 0 0) }).tg with emitQ := [5] }, sq := { sv.sq with stgCells := 64 } },
       by decide +kernel⟩⟩

/-- States that meet the hypotheses of `MarginPlanner`. -/
theorem meets_MarginPlanner :
    (∃ s : State, ready s 0 = some (P s 0) ∧ (s.cr 0).cmd.bind (·.comp) = none ∧ sharedCheck s (P s 0) = none ∧ pOpcode (P s 0) = 0x7C
        ∧ 256 < fld (wd (P s 0) 4) 0 8 + fld (wd (P s 0) 4) 8 9)
    ∧ (∃ s : State, ready s 0 = some (P s 0) ∧ (s.cr 0).cmd.bind (·.comp) = none ∧ sharedCheck s (P s 0) = none ∧ pOpcode (P s 0) = 0x7C
        ∧ fld (wd (P s 0) 4) 8 9 = 1 ∧ fld (wd (P s 0) 4) 0 8 = 255 ∧ (s.cr 0).serial = false
        ∧ ((recordsOf s.mp.last 15).filter fun e => (e.1 == 256 || (decide (255 ≤ e.1) && decide (e.1 < 256)))
        && e.2.2.count != 0).length = 2)
    ∧ (∃ s : State, ready s 0 = some (P s 0) ∧ (s.cr 0).cmd.bind (·.comp) = none ∧ sharedCheck s (P s 0) = none ∧ pOpcode (P s 0) = 0x7C
        ∧ bitOf (wd (P s 0) 0) 8 = true ∧ (s.cr 0).serial = false)
    ∧ (∃ s : State, ready s 0 = some (P s 0) ∧ (s.cr 0).cmd.bind (·.comp) = none ∧ sharedCheck s (P s 0) = none ∧ pOpcode (P s 0) = 0x7D
        ∧ fld (wd (P s 0) 2) 0 2 = 3)
    ∧ (∃ s : State, ready s 0 = some (P s 0) ∧ (s.cr 0).cmd.bind (·.comp) = none ∧ sharedCheck s (P s 0) = none ∧ pOpcode (P s 0) = 0x7D
        ∧ fld (wd (P s 0) 2) 0 2 = 0)
    ∧ (∃ s : State, ready s 0 = some (P s 0) ∧ (s.cr 0).cmd.bind (·.comp) = none ∧ sharedCheck s (P s 0) = none ∧ pOpcode (P s 0) = 0x7D
        ∧ fld (wd (P s 0) 2) 0 2 = 1 ∧ frameOnWire s 15 = true)
    ∧ (∃ s : State, ready s 0 = some (P s 0) ∧ (s.cr 0).cmd.bind (·.comp) = none ∧ sharedCheck s (P s 0) = none ∧ pOpcode (P s 0) = 0x7D
        ∧ frameOnWire s 15 = false)
    ∧ (∃ s : State, ready s 0 = some (P s 0) ∧ (s.cr 0).cmd.bind (·.comp) = none ∧ sharedCheck s (P s 0) = none ∧ pOpcode (P s 0) = 0x7D
        ∧ (s.chan 15).state ≠ .stopped)
    ∧ (∃ s : State, ready s 0 = some (P s 0) ∧ (s.cr 0).cmd.bind (·.comp) = none ∧ sharedCheck s (P s 0) = none ∧ pOpcode (P s 0) = 0x7D
        ∧ (s.chan 15).state = .stopped ∧ fld (mget 0#32 s.mp.chRec 15) 16 9 = 0)
    ∧ (∃ s : State, ready s 0 = some (P s 0) ∧ (s.cr 0).cmd.bind (·.comp) = none ∧ sharedCheck s (P s 0) = none ∧ pOpcode (P s 0) = 0x7D
        ∧ fld (mget 0#32 s.mp.chRec 15) 16 9 = 256)
    ∧ (∃ s : State, s.vx.safe = true)
    ∧ (∃ s : State, bitOf s.mp.cfg 0 = true ∧ s.vx.safe = false ∧ s.pw.awake = true)
    ∧ (∃ s : State, frameOnWire s 15 = false ∧ s.mp.reverts.contains 15 = false ∧ s.vx.safe = false ∧ s.pw.awake = true)
    ∧ (∃ s : State, bitOf s.mp.cfg 0 = true ∧ s.vx.safe = false ∧ s.pw.awake = true)
    ∧ (∃ s : State, frameOnWire s 15 = false ∧ s.mp.reverts.contains 15 = true ∧ s.vx.safe = false ∧ s.pw.awake = true) :=
  ⟨⟨cmd 0 [0x7C, 15, 0x1000, 0, 0x101FF] sv, by decide +kernel⟩,
   ⟨cmd 0 [0x7C, 15, 0x1000, 0, 0x1FF]
       { sv with mp := { sv.mp with last := [((257 * 15 + 255) * 3, { count := 3, eMin := 1, eMax := 2, bins := [0, 0, 0, 0, 0, 0, 0, 3] }), ((257 * 15 + 256) * 3 + 2, { count := 3, eMin := 1, eMax := 2, bins := [0, 0, 0, 0, 0, 0, 0, 3] })] } },
       by decide +kernel⟩,
   ⟨cmd 0 [0x17C, 15, 0x1000, 0, 0x1FF]
       { sv with mp := { sv.mp with last := [((257 * 15 + 254) * 3, { count := 3, eMin := 1, eMax := 2, bins := [0, 0, 0, 0, 0, 0, 0, 3] }), ((257 * 15 + 255) * 3, { count := 3, eMin := 1, eMax := 2, bins := [0, 0, 0, 0, 0, 0, 0, 3] }), ((257 * 15 + 256) * 3 + 2, { count := 3, eMin := 1, eMax := 2, bins := [0, 0, 0, 0, 0, 0, 0, 3] })] } },
       by decide +kernel⟩,
   ⟨cmd 0 [0x7D, 15, 3] sv, by decide +kernel⟩,
   ⟨cmd 0 [0x7D, 15, 0] sv, by decide +kernel⟩,
   ⟨cmd 0 [0x7D, 15, 1] (sv.modChan 15 fun c => { c with rx := some rx0 }), by decide +kernel⟩,
   ⟨cmd 0 [0x7D, 15, 1] { sv with mp := { sv.mp with steps := [{ ch := 15, item := 0, value := 5 }, { ch := 14, item := 0, value := 5 }], reverts := [15], chPlan := [(15, 0x04030201)] } },
       by decide +kernel⟩,
   ⟨cmd 0 [0x7D, 15, 2] (sv.modChan 15 fun c => { c with state := .active }), by decide +kernel⟩,
   ⟨cmd 0 [0x7D, 15, 2] sv, by decide +kernel⟩,
   ⟨cmd 0 [0x7D, 15, 2] { sv with mp := { sv.mp with chRec := [(15, 0x01000000)] } }, by decide +kernel⟩,
   ⟨{ sv with vx := { sv.vx with safe := true } }, by decide +kernel⟩,
   ⟨{ sv with mp := { sv.mp with cur := [(5, { count := 3, eMin := 1, eMax := 2, bins := [0, 0, 0, 0, 0, 0, 0, 3] })], delays := [(0, 1, 1, 1, 1)], senders := [(0, 5)] } },
       by decide +kernel⟩,
   ⟨{ sv with mp := { sv.mp with steps := [{ ch := 15, item := 0, value := 5 }, { ch := 14, item := 0, value := 5 }] } },
       by decide +kernel⟩,
   ⟨{ sv with mp := { sv.mp with cur := [(5, { count := 3, eMin := 1, eMax := 2, bins := [0, 0, 0, 0, 0, 0, 0, 3] })] } },
       by decide +kernel⟩,
   ⟨{ sv with mp := { sv.mp with steps := [{ ch := 15, item := 0, value := 5 }, { ch := 14, item := 0, value := 5 }], reverts := [14, 15], chPlan := [(15, 0x04030201)] } },
       by decide +kernel⟩⟩

end Sys2Proof.Tests
end

/-!
PROOF. CH_RECOVER by the channel's bus-off state (R92), and ceil_latched, which neither CH_STOP nor CH_START changes (R92, R94).
-/
namespace Sys2Proof.Machine

/-! ## The beginning of a command -/

/-- A command's beginning does not touch the channels. -/
@[simp] theorem started_chan (r : Nat) (s : State) (n : Nat) : (started r s).chan n = s.chan n := rfl

/-- What a command's beginning comes to: nothing, the end that a shared check gives it, or its own body (R499, R506). -/
theorem beginWhen_cases (r : Nat) (p : List Word → Bool) (body : List Word → State → State) (s : State) :
    beginWhen r p body s = s ∨ (∃ st r0 r1, beginWhen r p body s = complete r st r0 r1 (started r s))
      ∨ ∃ ws, beginWhen r p body s = body ws (started r s) := by
  cases hr : ready s r with
  | none => exact .inl (beginWhen_none hr p body)
  | some ws =>
    cases hp : p ws with
    | false => exact .inl (by simp [beginWhen, hr, hp])
    | true =>
      cases hc : sharedCheck s ws with
      | some e => exact .inr (.inl ⟨_, _, _, beginWhen_refused hr hc p hp body⟩)
      | none => exact .inr (.inr ⟨ws, by simp [beginWhen, hr, hp, hc, started]⟩)

/-- Word 1 of a channel command with [31:4] zero. -/
theorem chanWordBad_eq_false {ws : List Word} (h : fld (wd ws 1) 4 28 = 0) : chanWordBad ws = false := by
  simp [chanWordBad, h]

/-! ## CH_RECOVER, and CH_START of a latched channel (R92) -/

section RecoverAndStart
variable {s : State} {r : Nat} {ws : List Word}

/-- The start of the recovery sequence and the beginning of a command touch different parts of the state. -/
theorem startRecovery_started (n r : Nat) (s : State) : startRecovery n (started r s) = started r (startRecovery n s) := rfl

/-- The channel whose recovery sequence starts. -/
@[simp] theorem startRecovery_chan_same (n : Nat) (s : State) :
    (startRecovery n s).chan n = { s.chan n with boff := .recovering, seqCnt := 0 } := State.modChan_chan_same _ _ _

/-- CH_RECOVER in WAIT_HOST and BACKOFF starts the sequence. -/
theorem chRecoverBody_starts (hw : Waits s r ws) (hz : fld (wd ws 1) 4 28 = 0)
    (hb : (s.chan (fld (wd ws 1) 0 4)).boff = .waitHost ∨ (s.chan (fld (wd ws 1) 0 4)).boff = .backoff) :
    chRecoverBody r ws (started r s) =
      ended r stOk (boffStatWord { s.chan (fld (wd ws 1) 0 4) with boff := .recovering, seqCnt := 0 }) 0
        (startRecovery (fld (wd ws 1) 0 4) s) := by
  rw [← complete_started_of hw (u := startRecovery (fld (wd ws 1) 0 4) s) rfl]
  rcases hb with hb | hb <;> simp [chRecoverBody, chanWordBad_eq_false hz, hb, startRecovery_started]

/-- CH_RECOVER in RECOVERING leaves the channel as it is. -/
theorem chRecoverBody_recovering (hw : Waits s r ws) (hz : fld (wd ws 1) 4 28 = 0)
    (hb : (s.chan (fld (wd ws 1) 0 4)).boff = .recovering) :
    chRecoverBody r ws (started r s) = ended r stOk (boffStatWord (s.chan (fld (wd ws 1) 0 4))) 0 s := by
  simp [chRecoverBody, chanWordBad_eq_false hz, hb, complete_started hw]

/-- CH_RECOVER in LATCHED and outside BUS_OFF is refused. -/
theorem chRecoverBody_refused (hw : Waits s r ws) (hz : fld (wd ws 1) 4 28 = 0)
    (hb : (s.chan (fld (wd ws 1) 0 4)).boff = .latched ∨ (s.chan (fld (wd ws 1) 0 4)).boff = .none) :
    chRecoverBody r ws (started r s) = ended r eState 0 0 s := by
  rcases hb with hb | hb <;> simp [chRecoverBody, chanWordBad_eq_false hz, hb, complete_started hw]

/-- An accepted CH_RECOVER is its body. -/
theorem exec_chRecover_accepted {r : Fin 4} (h : Accepted s r.val ws) (hop : pOpcode ws = 0x14) :
    exec (.chRecover r) s = .next (chRecoverBody r.val ws (started r.val s)) :=
  congrArg Host.Outcome.next (beginOp_accepted h hop _)

/-- An accepted CH_START is its body. -/
theorem exec_chStart_accepted {r : Fin 4} (h : Accepted s r.val ws) (hop : pOpcode ws = 0x11) :
    exec (.chStart r) s = .next (chStartBody r.val ws (started r.val s)) :=
  congrArg Host.Outcome.next (beginOp_accepted h hop _)

/-- CH_START of a channel that has latched at its ceiling is refused (R92). -/
theorem chStartBody_ceil (hw : Waits s r ws) (hz : fld (wd ws 1) 4 28 = 0) (hc : (s.chan (fld (wd ws 1) 0 4)).ceil = true) :
    chStartBody r ws (started r s) = ended r eState 0 0 s := by
  simp [chStartBody, chanWordBad_eq_false hz, hc, complete_started hw]

end RecoverAndStart

/-! ## ceil_latched under a stop and a start (R92, R94) -/

/-- Every channel's ceil_latched is in t what it is in s. -/
def SameCeil (s t : State) : Prop := ∀ m, (t.chan m).ceil = (s.chan m).ceil

section Ceil
variable {z s : State}

/-- What the picker, counters and events change is never ceil_latched. -/
theorem SameCeil.txSide {t : State} (h : SameCeil z s) (k : TxSide s t) : SameCeil z t := by
  obtain ⟨_, hchan⟩ := k
  intro m
  rw [hchan m]
  exact h m

/-- A change of a channel's other fields. -/
theorem State.modChan_sameCeil (n : Nat) {f : Chan → Chan} (hf : ∀ c, (f c).ceil = c.ceil) (h : SameCeil z s) :
    SameCeil z (s.modChan n f) := by
  intro m
  by_cases hm : m = n
  · subst hm
    rw [State.modChan_chan_same, hf, h]
  · rw [State.modChan_chan_other _ _ _ _ hm, h]

/-- See `SameCeil.txSide`. -/
theorem complete_sameCeil (r st : Nat) (r0 r1 : Word) (h : SameCeil z s) : SameCeil z (complete r st r0 r1 s) :=
  h.txSide (complete_txside _ _ _ _ _ (TxSide_refl s))

/-- See `SameCeil.txSide`. -/
theorem recheck_sameCeil (n : Nat) (h : SameCeil z s) : SameCeil z (recheck n s) :=
  h.txSide (recheck_txside _ _ (TxSide_refl s))

/-- See `SameCeil.txSide`. -/
theorem finishStop_sameCeil (n k : Nat) (h : SameCeil z s) : SameCeil z (finishStop n k s) :=
  h.txSide (finishStop_txside _ _ _ (TxSide_refl s))

/-- A command leaves ceil_latched alone when its body does. -/
theorem beginOp_sameCeil {body : List Word → State → State}
    (hbody : ∀ (ws : List Word) (u : State), SameCeil z u → SameCeil z (body ws u)) (r op : Nat) (h : SameCeil z s) :
    SameCeil z (beginOp r op body s) := by
  have hstart : SameCeil z (started r s) := h
  unfold beginOp
  rcases beginWhen_cases r (fun ws => pOpcode ws == op) body s with e | ⟨st, r0, r1, e⟩ | ⟨ws, e⟩ <;> rw [e]
  · exact h
  · exact complete_sameCeil _ _ _ _ hstart
  · exact hbody _ _ hstart

/-- CH_STOP leaves ceil_latched alone. -/
theorem chStopBody_sameCeil (r : Nat) (ws : List Word) (s : State) (h : SameCeil z s) : SameCeil z (chStopBody r ws s) := by
  unfold chStopBody
  dsimp only
  split
  · exact complete_sameCeil _ _ _ _ h
  · split
    case h_1 | h_2 => exact complete_sameCeil _ _ _ _ h
    case h_3 => exact h
    case h_4 =>
      split
      · exact recheck_sameCeil _ (State.modChan_sameCeil _ (fun _ => rfl) h)
      · exact finishStop_sameCeil _ _ (recheck_sameCeil _ (State.modChan_sameCeil _ (fun _ => rfl) h))
    case h_5 => exact finishStop_sameCeil _ _ (recheck_sameCeil _ (State.modChan_sameCeil _ (fun _ => rfl) h))

/-- A channel's start leaves ceil_latched alone. -/
theorem startChannel_sameCeil (n : Nat) (h : SameCeil z s) : SameCeil z (startChannel n s) :=
  recheck_sameCeil _ (State.modChan_sameCeil _ (fun _ => rfl) h)

/-- CH_START leaves ceil_latched alone. -/
theorem chStartBody_sameCeil (r : Nat) (ws : List Word) (s : State) (h : SameCeil z s) : SameCeil z (chStartBody r ws s) := by
  unfold chStartBody
  dsimp only
  split
  · exact complete_sameCeil _ _ _ _ h
  · split
    · exact complete_sameCeil _ _ _ _ h
    · split
      · exact complete_sameCeil _ _ _ _ h
      · exact complete_sameCeil _ _ _ _ (startChannel_sameCeil _ h)

end Ceil

/-- Settles O32: CH_RECOVER by cases on the bus-off state, and the frame of CH_STOP and CH_START for ceil_latched. -/
theorem channelRecover : Obligations.ChannelRecover := by
  unfold Obligations.ChannelRecover
  refine ⟨?_, ?_⟩
  · rintro s r ws n hacc rfl hz
    refine ⟨fun hop hb => ?_, fun hop hb => ?_, fun hop hb => ?_, fun hop hc => ?_⟩
    · rw [exec_chRecover_accepted hacc hop, chRecoverBody_starts hacc.1 hz hb, startRecovery]
    · rw [exec_chRecover_accepted hacc hop, chRecoverBody_recovering hacc.1 hz hb]
    · rw [exec_chRecover_accepted hacc hop, chRecoverBody_refused hacc.1 hz hb]
    · rw [exec_chStart_accepted hacc hop, chStartBody_ceil hacc.1 hz hc]
  · rintro s t r m (h | h)
    · rw [← Host.Outcome.next.inj h]
      exact beginOp_sameCeil (chStopBody_sameCeil r.val) _ _ (fun _ => rfl) m
    · rw [← Host.Outcome.next.inj h]
      exact beginOp_sameCeil (chStartBody_sameCeil r.val) _ _ (fun _ => rfl) m

end Sys2Proof.Machine

/-!
PROOF. The safe state (R395): the shared checks refuse what it does not let run, and every command but the two of core power-on
reset keeps it.
-/
namespace Sys2Proof.Machine

/-! ## Ring commands in the safe state (R395, R506) -/

/-- What R395 lets run in the safe state is a matter of the opcode alone. -/
theorem runsInSafe_iff (op : Nat) : runsInSafe op = true ↔ op ∈ [0x00, 0x01, 0x04, 0x15, 0x70] := by
  simp only [runsInSafe, List.contains_iff_mem]

/-- The first shared check refuses every other opcode in the safe state (R506). -/
theorem sharedCheck_of_safe {s : State} {ws : List Word} (hs : s.vx.safe = true)
    (hop : pOpcode ws ∉ [0x00, 0x01, 0x04, 0x15, 0x70]) : sharedCheck s ws = some (eFault, 0) := by
  have hr : runsInSafe (pOpcode ws) = false := Bool.eq_false_iff.mpr (mt (runsInSafe_iff _).mp hop)
  simp [sharedCheck, hs, hr]

/-- For an opcode that runs in the safe state the shared checks do not look at it. -/
theorem sharedCheck_of_runsInSafe {ws : List Word} (hop : runsInSafe (pOpcode ws) = true) (s : State) (b : Bool) :
    sharedCheck { s with vx := { s.vx with safe := b } } ws = sharedCheck s ws := by
  simp only [sharedCheck, hop, Bool.not_true, Bool.and_false]
  rfl

/-- The row runs the packets that its form names, behind the shared checks. -/
def BeginsForm (f : (Fin 4 → Instr) × (List Word → Bool)) : Prop :=
  ∀ (r : Fin 4) (s : State), ∃ body, exec (f.1 r) s = .next (beginWhen r.val f.2 body s)

/-- A row with an opcode of its own begins with it. -/
theorem beginsForm_of_oneForm : ∀ f ∈ oneForm, BeginsForm f := by
  simp only [oneForm, List.forall_mem_cons, List.not_mem_nil, false_implies, implies_true, and_true]
  and_intros <;> exact fun _ _ => ⟨_, rfl⟩

/-- A row that shares its opcode begins with the packets of its flag or op. -/
theorem beginsForm_of_someForms (fault : Bool) (a : Option Nat) (b : Nat) : ∀ f ∈ someForms fault a b, BeginsForm f := by
  simp only [someForms, List.forall_mem_cons, List.not_mem_nil, false_implies, implies_true, and_true]
  and_intros <;> exact fun _ _ => ⟨_, rfl⟩

/-- Every row that a packet in a ring stands for begins behind the shared checks. -/
theorem beginsForm_of_ringForms {fault : Bool} {a : Option Nat} {b : Nat} {f : (Fin 4 → Instr) × (List Word → Bool)}
    (hf : f ∈ ringForms fault a b) : BeginsForm f :=
  (List.mem_append.mp hf).elim (beginsForm_of_oneForm f) (beginsForm_of_someForms fault a b f)

/-- A waiting command that R395 does not let run ends with E_FAULT in the safe state. -/
theorem exec_ended_of_safe {s : State} {r : Fin 4} {ws : List Word} {f : (Fin 4 → Instr) × (List Word → Bool)}
    (hf : BeginsForm f) (hw : Waits s r.val ws) (hp : f.2 ws = true) (hs : s.vx.safe = true)
    (hop : pOpcode ws ∉ [0x00, 0x01, 0x04, 0x15, 0x70]) :
    ∃ r0 r1, exec (f.1 r) s = .next (ended r.val eFault r0 r1 s) := by
  obtain ⟨body, e⟩ := hf r s
  rw [e, beginWhen_refused hw.1 (sharedCheck_of_safe hs hop) _ hp, complete_started hw]
  exact ⟨_, _, rfl⟩

/-! ## What every command but core power-on reset keeps (R395) -/

/-- Every command but the two rows of core power-on reset keeps the queue, the pool's canonical form and a set safe state. -/
theorem exec_keeps {c : Instr} {s t : State} (hlow : ∀ rail, c ≠ .corePorAsserted rail)
    (hpor : ∀ straps bad, c ≠ .corePor straps bad) (e : exec c s = .next t) : Keeps s t := by
  cases c with
  | vaoPor => exact execVaoPor_keeps (e := e)
  | corePor straps bad => exact absurd rfl (hpor straps bad)
  | resetN => exact execResetN_keeps (e := e)
  | softReset => exact execSoftReset_keeps (e := e)
  | pePerstN => exact execPePerstN_keeps (e := e)
  | romCheckDone => exact execRomCheckDone_keeps (e := e)
  | referenceStable => exact execReferenceStable_keeps (e := e)
  | referenceTimeout => exact execReferenceTimeout_keeps (e := e)
  | pllLocked => exact execPllLocked_keeps (e := e)
  | pllLockTimeout => exact execPllLockTimeout_keeps (e := e)
  | bistDone => exact execBistDone_keeps (e := e)
  | flashCopyDone => exact execFlashCopyDone_keeps (e := e)
  | flashHeaderTimeout => exact execFlashHeaderTimeout_keeps (e := e)
  | sequencerWatchdog => exact execSequencerWatchdog_keeps (e := e)
  | pllLockLoss => exact execPllLockLoss_keeps (e := e)
  | clockMonitorFault => exact execClockMonitorFault_keeps (e := e)
  | supplyExcursion => exact execSupplyExcursion_keeps (e := e)
  | temperatureAlarm => exact execTemperatureAlarm_keeps (e := e)
  | monitorDeassert => exact execMonitorDeassert_keeps (e := e)
  | complementMismatch => exact execComplementMismatch_keeps (e := e)
  | safeStateComplete => exact execSafeStateComplete_keeps (e := e)
  | tagWindowEnd => exact execTagWindowEnd_keeps (e := e)
  | aliveToggle => exact execAliveToggle_keeps (e := e)
  | aliveTimeout => exact execAliveTimeout_keeps (e := e)
  | proofTestTimeout => exact execProofTestTimeout_keeps (e := e)
  | nop => exact execNop_keeps (e := e)
  | identify => exact execIdentify_keeps (e := e)
  | commitConfig => exact execCommitConfig_keeps (e := e)
  | commitConfigEmpty => exact execCommitConfigEmpty_keeps (e := e)
  | loadImage => exact execLoadImage_keeps (e := e)
  | loadImageCommit => exact execLoadImageCommit_keeps (e := e)
  | readStatus => exact execReadStatus_keeps (e := e)
  | setProfile => exact execSetProfile_keeps (e := e)
  | undefinedOpcode => exact execUndefinedOpcode_keeps (e := e)
  | cmdDoorbell => exact execCmdDoorbell_keeps (e := e)
  | cqDoorbell => exact execCqDoorbell_keeps (e := e)
  | ringEnable => exact execRingEnable_keeps (e := e)
  | ringDisable => exact execRingDisable_keeps (e := e)
  | commandFetch => exact execCommandFetch_keeps (e := e)
  | completionWrite => exact execCompletionWrite_keeps (e := e)
  | coalesceTimeout => exact execCoalesceTimeout_keeps (e := e)
  | dmaReadDone => exact execDmaReadDone_keeps (e := e)
  | dmaCompletionTimeout => exact execDmaCompletionTimeout_keeps (e := e)
  | serialWrite => exact execSerialWrite_keeps (e := e)
  | serialRead => exact execSerialRead_keeps (e := e)
  | serialStatus => exact execSerialStatus_keeps (e := e)
  | serialUnknownInstruction => exact execSerialUnknownInstruction_keeps (e := e)
  | pcieLinkDown => exact execPcieLinkDown_keeps (e := e)
  | pcieBadTlp => exact execPcieBadTlp_keeps (e := e)
  | stagingSet => exact execStagingSet_keeps (e := e)
  | stagingRelease => exact execStagingRelease_keeps (e := e)
  | glKeyArm => exact execGlKeyArm_keeps (e := e)
  | glKeyUnlock => exact execGlKeyUnlock_keeps (e := e)
  | glKeyLock => exact execGlKeyLock_keeps (e := e)
  | glKeyOtherCode => exact execGlKeyOtherCode_keeps (e := e)
  | keyArmTimeout => exact execKeyArmTimeout_keeps (e := e)
  | keyRelockTimeout => exact execKeyRelockTimeout_keeps (e := e)
  | registerWrite => exact execRegisterWrite_keeps (e := e)
  | lowWordRead => exact execLowWordRead_keeps (e := e)
  | chConfigure => exact execChConfigure_keeps (e := e)
  | chStart => exact execChStart_keeps (e := e)
  | chStop => exact execChStop_keeps (e := e)
  | chSetState => exact execChSetState_keeps (e := e)
  | chRecover => exact execChRecover_keeps (e := e)
  | chCounters => exact execChCounters_keeps (e := e)
  | integrationDone => exact execIntegrationDone_keeps (e := e)
  | rxFrame => exact execRxFrame_keeps (e := e)
  | rxCommit => exact execRxCommit_keeps (e := e)
  | stagedCellWrite => exact execStagedCellWrite_keeps (e := e)
  | txHeadFetch => exact execTxHeadFetch_keeps (e := e)
  | txAttempt => exact execTxAttempt_keeps (e := e)
  | backoffElapsed => exact execBackoffElapsed_keeps (e := e)
  | recoveryDone => exact execRecoveryDone_keeps (e := e)
  | boffWindowClose => exact execBoffWindowClose_keeps (e := e)
  | dupHoldRelease => exact execDupHoldRelease_keeps (e := e)
  | trxChangeApplied => exact execTrxChangeApplied_keeps (e := e)
  | trxSettled => exact execTrxSettled_keeps (e := e)
  | primeArm => exact execPrimeArm_keeps (e := e)
  | txSubmit => exact execTxSubmit_keeps (e := e)
  | hostItemCommit => exact execHostItemCommit_keeps (e := e)
  | bpTimeout => exact execBpTimeout_keeps (e := e)
  | txCancel => exact execTxCancel_keeps (e := e)
  | txPrime => exact execTxPrime_keeps (e := e)
  | ltWrite => exact execLtWrite_keeps (e := e)
  | ltWriteDone => exact execLtWriteDone_keeps (e := e)
  | ltCommit => exact execLtCommit_keeps (e := e)
  | ltDrainDone => exact execLtDrainDone_keeps (e := e)
  | ltCopyDone => exact execLtCopyDone_keeps (e := e)
  | ltRead => exact execLtRead_keeps (e := e)
  | ltOwned => exact execLtOwned_keeps (e := e)
  | housekeepingTurn => exact execHousekeepingTurn_keeps (e := e)
  | elementWindowLowWrite => exact execElementWindowLowWrite_keeps (e := e)
  | elementWindowHighWrite => exact execElementWindowHighWrite_keeps (e := e)
  | gateEnable => exact execGateEnable_keeps (e := e)
  | gateDisable => exact execGateDisable_keeps (e := e)
  | gateHighestWrite => exact execGateHighestWrite_keeps (e := e)
  | qCreate => exact execQCreate_keeps (e := e)
  | qRemove => exact execQRemove_keeps (e := e)
  | qFlush => exact execQFlush_keeps (e := e)
  | qFlushRepair => exact execQFlushRepair_keeps (e := e)
  | qBudget => exact execQBudget_keeps (e := e)
  | qStatus => exact execQStatus_keeps (e := e)
  | windowLockRead => exact execWindowLockRead_keeps (e := e)
  | windowDataRead => exact execWindowDataRead_keeps (e := e)
  | windowPop => exact execWindowPop_keeps (e := e)
  | windowRelease => exact execWindowRelease_keeps (e := e)
  | lockTimeout => exact execLockTimeout_keeps (e := e)
  | auditPassEnd => exact execAuditPassEnd_keeps (e := e)
  | poolWindowWrite => exact execPoolWindowWrite_keeps (e := e)
  | cdRouteAdd => exact execCdRouteAdd_keeps (e := e)
  | cdRouteReenable => exact execCdRouteReenable_keeps (e := e)
  | cdRouteRemove => exact execCdRouteRemove_keeps (e := e)
  | cdStats => exact execCdStats_keeps (e := e)
  | chordSelect => exact execChordSelect_keeps (e := e)
  | chordJudge => exact execChordJudge_keeps (e := e)
  | cdStall => exact execCdStall_keeps (e := e)
  | tokenAdd => exact execTokenAdd_keeps (e := e)
  | cutThroughCommit => exact execCutThroughCommit_keeps (e := e)
  | tmSet => exact execTmSet_keeps (e := e)
  | tmStep => exact execTmStep_keeps (e := e)
  | tmRate => exact execTmRate_keeps (e := e)
  | tmRole => exact execTmRole_keeps (e := e)
  | ppsInEdge => exact execPpsInEdge_keeps (e := e)
  | ppsOutRise => exact execPpsOutRise_keeps (e := e)
  | ppsOutFall => exact execPpsOutFall_keeps (e := e)
  | syncInterval => exact execSyncInterval_keeps (e := e)
  | servoHoldTimeout => exact execServoHoldTimeout_keeps (e := e)
  | holdoverLimit => exact execHoldoverLimit_keeps (e := e)
  | identifyAnsCommit => exact execIdentifyAnsCommit_keeps (e := e)
  | marginEchoCommit => exact execMarginEchoCommit_keeps (e := e)
  | consoleAnswer => exact execConsoleAnswer_keeps (e := e)
  | heartbeatInterval => exact execHeartbeatInterval_keeps (e := e)
  | claimInterval => exact execClaimInterval_keeps (e := e)
  | tgConfig => exact execTgConfig_keeps (e := e)
  | tgEnable => exact execTgEnable_keeps (e := e)
  | tgDisable => exact execTgDisable_keeps (e := e)
  | tgMode => exact execTgMode_keeps (e := e)
  | tgSetpoint => exact execTgSetpoint_keeps (e := e)
  | tgRead => exact execTgRead_keeps (e := e)
  | tgInstant => exact execTgInstant_keeps (e := e)
  | tgEvaluation => exact execTgEvaluation_keeps (e := e)
  | tgEmitCommit => exact execTgEmitCommit_keeps (e := e)
  | setpointItemRead => exact execSetpointItemRead_keeps (e := e)
  | tgReplay => exact execTgReplay_keeps (e := e)
  | ckConfig => exact execCkConfig_keeps (e := e)
  | ckSave => exact execCkSave_keeps (e := e)
  | ckRestore => exact execCkRestore_keeps (e := e)
  | ckFeedHost => exact execCkFeedHost_keeps (e := e)
  | ckFeedQueue => exact execCkFeedQueue_keeps (e := e)
  | ckFeedItem => exact execCkFeedItem_keeps (e := e)
  | dxConfig => exact execDxConfig_keeps (e := e)
  | dxReinit => exact execDxReinit_keeps (e := e)
  | dxSwap => exact execDxSwap_keeps (e := e)
  | dxStatus => exact execDxStatus_keeps (e := e)
  | dxResync => exact execDxResync_keeps (e := e)
  | linkHbSend => exact execLinkHbSend_keeps (e := e)
  | hbPacket => exact execHbPacket_keeps (e := e)
  | laneAlignLoss => exact execLaneAlignLoss_keeps (e := e)
  | linkHbTimeout => exact execLinkHbTimeout_keeps (e := e)
  | noticePacket => exact execNoticePacket_keeps (e := e)
  | verdictPacket => exact execVerdictPacket_keeps (e := e)
  | refReqPacket => exact execRefReqPacket_keeps (e := e)
  | refAnsPacket => exact execRefAnsPacket_keeps (e := e)
  | swapPrepPacket => exact execSwapPrepPacket_keeps (e := e)
  | swapAckPacket => exact execSwapAckPacket_keeps (e := e)
  | swapRefusePacket => exact execSwapRefusePacket_keeps (e := e)
  | ctlPacket => exact execCtlPacket_keeps (e := e)
  | resyncPacket => exact execResyncPacket_keeps (e := e)
  | recPacket => exact execRecPacket_keeps (e := e)
  | chunkPacket => exact execChunkPacket_keeps (e := e)
  | commitPacket => exact execCommitPacket_keeps (e := e)
  | pairingTimeout => exact execPairingTimeout_keeps (e := e)
  | busHbTimeout => exact execBusHbTimeout_keeps (e := e)
  | cmpMissingTimeout => exact execCmpMissingTimeout_keeps (e := e)
  | refereeTimeout => exact execRefereeTimeout_keeps (e := e)
  | epochBoundary => exact execEpochBoundary_keeps (e := e)
  | swapInstant => exact execSwapInstant_keeps (e := e)
  | swapAckTimeout => exact execSwapAckTimeout_keeps (e := e)
  | swapClaimTimeout => exact execSwapClaimTimeout_keeps (e := e)
  | resyncEpochLimit => exact execResyncEpochLimit_keeps (e := e)
  | vxStatus => exact execVxStatus_keeps (e := e)
  | vxClear => exact execVxClear_keeps (e := e)
  | vxProofTest => exact execVxProofTest_keeps (e := e)
  | vxFactoryTest => exact execVxFactoryTest_keeps (e := e)
  | vxClasses => exact execVxClasses_keeps (e := e)
  | pwSleepPrepare => exact execPwSleepPrepare_keeps (e := e)
  | pwSleepCommit => exact execPwSleepCommit_keeps (e := e)
  | pwWakeConfig => exact execPwWakeConfig_keeps (e := e)
  | dozeOn => exact execDozeOn_keeps (e := e)
  | dozeOff => exact execDozeOff_keeps (e := e)
  | pwModeSleep => exact execPwModeSleep_keeps (e := e)
  | pwModeHibernate => exact execPwModeHibernate_keeps (e := e)
  | reasonSet => exact execReasonSet_keeps (e := e)
  | reasonClear => exact execReasonClear_keeps (e := e)
  | deviceSleepEntry => exact execDeviceSleepEntry_keeps (e := e)
  | entryComplete => exact execEntryComplete_keeps (e := e)
  | entryTimeout => exact execEntryTimeout_keeps (e := e)
  | exitComplete => exact execExitComplete_keeps (e := e)
  | busWake => exact execBusWake_keeps (e := e)
  | hostWakePin => exact execHostWakePin_keeps (e := e)
  | wakeTimer => exact execWakeTimer_keeps (e := e)
  | confirmTimeout => exact execConfirmTimeout_keeps (e := e)
  | fwWindowClose => exact execFwWindowClose_keeps (e := e)
  | keepAwakeInterval => exact execKeepAwakeInterval_keeps (e := e)
  | ballotWindowEnd => exact execBallotWindowEnd_keeps (e := e)
  | ballotSendTimeout => exact execBallotSendTimeout_keeps (e := e)
  | ballotLapse => exact execBallotLapse_keeps (e := e)
  | ballotDelayEnd => exact execBallotDelayEnd_keeps (e := e)
  | groupSleepDelayEnd => exact execGroupSleepDelayEnd_keeps (e := e)
  | awakeTimerExpiry => exact execAwakeTimerExpiry_keeps (e := e)
  | mpReport => exact execMpReport_keeps (e := e)
  | mpFold => exact execMpFold_keeps (e := e)
  | mpRevert => exact execMpRevert_keeps (e := e)
  | mpNomSp => exact execMpNomSp_keeps (e := e)
  | planningCycleEnd => exact execPlanningCycleEnd_keeps (e := e)
  | mpStepApply => exact execMpStepApply_keeps (e := e)
  | hostDmaDrain => exact execHostDmaDrain_keeps (e := e)
  | bdpItemCommit => exact execBdpItemCommit_keeps (e := e)
  | laneAligned => exact execLaneAligned_keeps (e := e)
  | linkPacketEnd => exact execLinkPacketEnd_keeps (e := e)
  | pcieLinkUp => exact execPcieLinkUp_keeps (e := e)
  | resetNAsserted => exact execResetNAsserted_keeps (e := e)
  | corePorAsserted rail => exact absurd rfl (hlow rail)
  | vaoLost => exact execVaoLost_keeps (e := e)
  | clockMonitorRecovered => exact execClockMonitorRecovered_keeps (e := e)
  | recoveryOccurrence => exact execRecoveryOccurrence_keeps (e := e)

/-- A row that leads out of the safe state is one of core power-on reset. -/
theorem corePor_of_safe_ends {c : Instr} {s t : State} (hs : s.vx.safe = true) (e : exec c s = .next t)
    (ht : t.vx.safe = false) : (∃ rail, c = .corePorAsserted rail) ∨ ∃ straps bad, c = .corePor straps bad := by
  refine Classical.byContradiction fun h => ?_
  have hlow : ∀ rail, c ≠ .corePorAsserted rail := fun rail hc => h (.inl ⟨rail, hc⟩)
  have hpor : ∀ straps bad, c ≠ .corePor straps bad := fun straps bad hc => h (.inr ⟨straps, bad, hc⟩)
  have hkeep : t.vx.safe = true := (exec_keeps hlow hpor e).2 hs
  exact Bool.noConfusion (hkeep.symm.trans ht)

/-- A core supply below its threshold leads to a state outside the safe state, from every state (R395, R551). -/
theorem exec_corePorAsserted_safe (s : State) (rail : Fin 4) :
    ∃ t, exec (.corePorAsserted rail) s = .next t ∧ t.vx.safe = false := by
  refine ⟨_, rfl, ?_⟩
  dsimp only
  split <;> rfl

/-- Settles O25: the shared checks for the ring commands, and the frame of every command for the safe state. -/
theorem safeStateEnds : Obligations.SafeStateEnds := by
  unfold Obligations.SafeStateEnds
  refine ⟨?_, ?_, ?_, exec_corePorAsserted_safe⟩
  · intro s r ws fault a b f hf hw hp hs hop
    exact exec_ended_of_safe (beginsForm_of_ringForms hf) hw hp hs hop
  · intro s ws hop
    exact (sharedCheck_of_runsInSafe ((runsInSafe_iff _).mpr hop) s false).symm
  · intro c s t hs e ht
    exact corePor_of_safe_ends hs e ht

end Sys2Proof.Machine

/-!
PROOF. RESET_N and soft reset in the safe state (R441): a warm reset does nothing there, and each of them comes to one.
-/
namespace Sys2Proof.Machine

/-- A warm reset does nothing in the safe state (R441). -/
theorem warmReset_of_safe {s : State} (hs : s.vx.safe = true) (straps : Straps) (bad : List (Fin 128)) (cause : Nat) :
    warmReset straps bad cause s = s :=
  if_pos (.inl hs)

/-- An access that leaves the state as it is does so whether or not the register can be reached. -/
theorem regAccess_eq_self (i : Iface) (off : Nat) {f : State → State} {s : State} (hf : f s = s) :
    regAccess i off f s = s := by
  rw [regAccess, hf, ite_self]

/-- A write of GL_RST does nothing in the safe state, whatever its value and whether or not GL_KEY is unlocked (R441, R457). -/
theorem putReg_glRst_of_safe {s : State} (hs : s.vx.safe = true) (i : Iface) (v : Word) : putReg i 0x64 v s = s := by
  rw [putReg, if_pos rfl, warmReset_of_safe hs, ite_self]

/-- RESET_N with every core supply up does nothing in the safe state. -/
theorem execResetN_of_safe {s : State} (hs : s.vx.safe = true) (hpor : s.boot.porHeld = false) (straps : Straps)
    (bad : List (Fin 128)) : execResetN straps bad s = .next s := by
  rw [execResetN, if_neg (Bool.eq_false_iff.mp hpor), warmReset_of_safe hs]

/-- The falling edge of RESET_N does nothing in the safe state. -/
theorem execResetNAsserted_of_safe {s : State} (hs : s.vx.safe = true) : execResetNAsserted s = .next s := by
  rw [execResetNAsserted, if_pos (.inl hs)]

/-- A soft reset does nothing in the safe state. -/
theorem execSoftReset_of_safe {s : State} (hs : s.vx.safe = true) (i : Iface) (straps : Straps) (bad : List (Fin 128)) :
    execSoftReset i straps bad s = .next s := by
  refine congrArg _ (regAccess_eq_self i 0x64 ?_)
  rw [warmReset_of_safe hs, ite_self]

/-- GL_RST lies outside the TS block. -/
theorem testBlock_glRst (s : State) : testBlock s 0x64 = false := by
  have hlow : decide (0x60000 ≤ 0x64 ∧ 0x64 < 0x70000) = false := rfl
  rw [testBlock, hlow, Bool.and_false]

/-- GL_RST's offset is a multiple of 4: no write of it is a framing error, and a whole word written to it is an access. -/
theorem execRegisterWrite_glRst (i : Iface) (v : Word) (s : State) :
    execRegisterWrite i 0x64 v 15 s = .next (regAccess i 0x64 (putReg i 0x64 v) s) := by
  have hoff : (0x64 : Fin 1048576).val = 0x64 := rfl
  have hbe : (15 : Fin 16).val = 15 := rfl
  have haligned : (i == .serial && 0x64 % 4 != 0) = false := Bool.and_false _
  rw [execRegisterWrite, hoff, hbe, testBlock_glRst, haligned, if_neg Bool.false_ne_true, if_neg Bool.false_ne_true, if_pos rfl]

/-- Settles O8: each of the four comes to a warm reset, which the safe state shuts off. -/
theorem resetsInSafeState : Obligations.ResetsInSafeState := by
  unfold Obligations.ResetsInSafeState
  intro straps bad i v s hs hpor
  refine ⟨execResetN_of_safe hs hpor straps bad, execResetNAsserted_of_safe hs, execSoftReset_of_safe hs i straps bad, ?_⟩
  calc exec (.registerWrite i 0x64 v 15) s
      = .next (regAccess i 0x64 (putReg i 0x64 v) s) := execRegisterWrite_glRst i v s
    _ = .next s := by rw [regAccess_eq_self i 0x64 (putReg_glRst_of_safe hs i v)]

end Sys2Proof.Machine
